-- ==== Sys2Proof/Word.lean ====
section
/-! DEFINITION. The word types of the BX-856 manual (R9, R10, R14, R113). Only types stand here; byte order
and field handling are in Sys2Proof/Machine/Bits.lean. -/

namespace Sys2Proof

/-- One byte of a frame, a record or a register (R10). -/
abbrev Byte := BitVec 8
/-- A 16-bit field: epochs, sequence numbers, step words (R9). -/
abbrev Half := BitVec 16
/-- A 32-bit register word, or the low 32 bits of a cycle number (R9). -/
abbrev Word := BitVec 32
/-- Train time in nanoseconds (R113). -/
abbrev TrainTime := BitVec 64
/-- A 48-bit node identity (R14). -/
abbrev NodeId := BitVec 48
/-- A position, 0 when unnumbered (R19). -/
abbrev Position := BitVec 6
/-- One bit per lamp channel, bit n for channel n (R147, Table 6.6). -/
abbrev ChMask := BitVec 12
/-- One bit per position, bit 0 reserved (Table 4.5, GHOSTS). -/
abbrev GhostSet := BitVec 64

end Sys2Proof
end

