-- ==== Sys2Proof/Syntax.lean ====
section
/-! DEFINITION. The commands of the BX-856 block: one constructor of `Instr` per row of spec/opcode_table.json,
with the operands each row's rule gives it. A frame operand is a frame as its receiver has read it from the line; `whole` says
that its last byte has come, where a row may come before that (R95), and `since` how long before the row its codeword stood at the
receive balls. Measured quantities (currents, amplitudes, voltages) are operands because the outside world supplies them. -/

namespace Sys2Proof

/-! ### Names of parts (chapters 01, 02, 03, 11) -/

/-- A lamp die (R31): LA, fed from FEED_A, or LB, fed from FEED_B. -/
inductive Die | la | lb
  deriving DecidableEq, Repr

/-- A die on the high-voltage side (Table 1.4). -/
inductive HvDie | la | lb | ref
  deriving DecidableEq, Repr

/-- An end of the node (R13). -/
inductive VEnd | fore | aft
  deriving DecidableEq, Repr

/-- A line port, in the order of Table 14.3 (R17). -/
inductive Port | foreNear | foreSkip | aftNear | aftSkip
  deriving DecidableEq, Repr

/-- A local interface (R111): the Ethernet port, or the twin link of R112. -/
inductive LocalIf | eth | twin
  deriving DecidableEq, Repr

/-- The eight framed isolated links of Table 2.3. -/
inductive FLink | cdLa | cdLb | cdRef | ldLa | ldLb | refLa | refLb | mirror
  deriving DecidableEq, Repr

/-- The two ends of a framed link, in the order of the link's name: CD–LA has first end CD, second end LA. -/
inductive LEnd | first | second
  deriving DecidableEq, Repr

/-- The six level links of R49. -/
inductive LLink | grantA | grantB | driveA | driveB | killA | killB
  deriving DecidableEq, Repr

/-- The logic-side crossings of Table 2.2. -/
inductive Crossing
  | laneIn (p : Port) | laneOut (p : Port) | localIn (second : Bool) | localOut (second : Bool)
  | coreToCtl | ctlToCore | hostToCtl | ctlToHost | aoToCtl | aoToCore | ctlToAo | coreToAo
  deriving DecidableEq, Repr

/-- The wrapped blocks of Table 11.7. -/
inductive Block
  | cdEnd (d : HvDie) | bridge | nvm | lane (p : Port) | localLane (second : Bool) | timeLink (d : Die)
  deriving DecidableEq, Repr

/-- The code of a Gust (R267). -/
inductive GustCode | active | lull
  deriving DecidableEq, Repr

/-- A lamp channel, 0 to 11 (R147). -/
abbrev Chan := Fin 12

/-! ### Lamp records (chapters 06 and 07) -/

/-- A lamp-map entry, its defined fields (Table 6.3). Reserved fields are not kept (R306). -/
structure MapEntry where
  mode : BitVec 2
  enable : Bool
  endAft : Bool
  role : BitVec 4
  slot : BitVec 4
  burstEn : Bool
  dimEn : Bool
  doorSrc : BitVec 2
  setpoint : BitVec 12
  setpointLow : BitVec 12
  pilotDepth : BitVec 6
  signature : BitVec 3
  offset : BitVec 14
  fswDiv : BitVec 9
  deadTime : BitVec 4
  deriving DecidableEq, Repr

/-- A pattern slot: COUNT and eight step words (R161). -/
structure Slot where
  count : Nat
  steps : List Half
  deriving DecidableEq, Repr

/-- The alarm record of Table 7.5. `die` is false for LA. -/
structure AlarmRecord where
  kind : BitVec 4
  channel : BitVec 4
  dieB : Bool
  endAft : Bool
  late : Bool
  noReq : Bool
  role : BitVec 4
  seq : Half
  epoch : Half
  darkMask : ChMask
  tt : TrainTime
  deriving DecidableEq, Repr

/-! ### Line frames (Tables 4.3 and 4.5) -/

/-- The header fields of a line frame that a receiver acts on (Table 4.3). -/
structure LineHdr where
  src : Position
  dst : Position
  ttl : Byte
  epoch : Half
  seq : Half
  deriving DecidableEq, Repr

/-- ALARM payload (Table 4.5). -/
structure AlarmP where
  srcId : NodeId
  isRepeat : Bool
  beaconCopy : Bool
  record : AlarmRecord
  deriving DecidableEq, Repr

/-- TIME payload of a line frame (Table 4.5). -/
structure TimeP where
  tt : TrainTime
  steps : BitVec 6
  echoReq : Bool
  echo : Bool
  holdover : Bool
  stepped : Bool
  echoSeq : Half
  t2 : Word
  t3 : Word
  deriving DecidableEq, Repr

/-- CREDIT payload (Table 4.5). -/
structure CreditP where
  cAcc : Half
  cFree : Half
  mAcc : Half
  mFree : Half
  deriving DecidableEq, Repr

/-- FLAGS of FRONT and COMMIT (Table 4.5). -/
structure RoundFlags where
  broken : Bool
  noCab : Bool
  dualCab : Bool
  doubt : Bool
  deriving DecidableEq, Repr

/-- FRONT payload (Table 4.5); a call has `leadId` 0 (R130), a cut has `nextPos` 0 (R135). -/
structure FrontP where
  leadId : NodeId
  newEpoch : Half
  nextPos : Position
  flags : RoundFlags
  senderId : NodeId
  sentAft : Bool
  sentSkip : Bool
  senderPos : Position
  ghosts : GhostSet
  deriving DecidableEq, Repr

/-- COMMIT payload (Table 4.5). `phase1` false is the return sweep. -/
structure CommitP where
  leadId : NodeId
  newEpoch : Half
  phase1 : Bool
  lastPos : Position
  flags : RoundFlags
  tailId : NodeId
  ghosts : GhostSet
  switchCycle : Word
  deriving DecidableEq, Repr

/-- LAMP-SYNC payload (Table 4.5). -/
structure LampSyncP where
  cycle : Word
  scene : Byte
  burstValid : Bool
  burstSlot : BitVec 4
  burstCycle : Word
  deriving DecidableEq, Repr

/-- BEACON payload (Table 4.5). `fenced` and `up` hold FORE-NEAR in their high bit. -/
structure BeaconP where
  nodeId : NodeId
  position : Position
  stateCode : BitVec 4
  hostAbsent : Bool
  broken : Bool
  fenced : BitVec 4
  up : BitVec 4
  cplFore : BitVec 2
  cplAft : BitVec 2
  cab : Bool
  noCab : Bool
  txAft : Bool
  txSkip : Bool
  deriving DecidableEq, Repr

/-- MGMT payload (Table 4.5). -/
structure MgmtP where
  op : Byte
  tag : BitVec 3
  target : Byte
  result : Byte
  address : Word
  count : Half
  data : List Byte
  deriving DecidableEq, Repr

/-- CARRIED payload (Table 4.5): ingress interface and the Ethernet frame with its FCS. -/
structure CarriedP where
  iface : LocalIf
  frame : List Byte
  deriving DecidableEq, Repr

/-- The payload of a line frame by class (Table 4.4). -/
inductive LineBody
  | alarm (a : AlarmP) | time (t : TimeP) | credit (c : CreditP) | front (f : FrontP) | commit (c : CommitP)
  | lampSync (l : LampSyncP) | beacon (b : BeaconP) | mgmt (m : MgmtP) | carried (c : CarriedP)
  deriving DecidableEq, Repr

/-- A line frame (R86). -/
structure LineFrame where
  hdr : LineHdr
  body : LineBody
  deriving DecidableEq, Repr

/-- What a receiver finds of one frame that a codeword delivered (R88, R95): a frame as it stands, or one of the
three ways in which it fails its own checks. -/
inductive RxFrame
  | ok (f : LineFrame) | headerError | fcsError | stomped
  deriving DecidableEq, Repr

/-! ### Isolated-link payloads (chapters 02, 06, 08) -/

/-- MIRROR payload, the fields of Table 8.8. -/
structure MirrorP where
  version : Byte
  driverState : Byte
  cycle : Word
  tt : TrainTime
  reqLit : ChMask
  epoch : Half
  scene : Byte
  burstRunning : Bool
  burstWaiting : Bool
  burstSlot : BitVec 4
  burstMask : ChMask
  burstCycle : Word
  alarmSeq : Half
  darkMask : ChMask
  provenMask : ChMask
  qualMask : ChMask
  ch : List Byte
  mapCrc : Word
  slotCrc : Word
  pendingCount : Half
  cdLost : Bool
  holding : Bool
  fallback : Bool
  holdLeft : Half
  vStore : Half
  cStore : Half
  eAvail : Word
  eCommit : Word
  deriving DecidableEq, Repr

/-! ### Lane and measurement operands (chapters 03, 06, 07, 09, 16) -/

/-- The stored parameters of a lane (R62). -/
structure LaneParams where
  ctle : Nat
  ffe : List Int
  dfe : Nat
  slicers : List Int
  cdrOffset : Int
  deriving DecidableEq, Repr

/-- What a lamp die measured in the cycle just ended, as the inputs of Table 9.1 read (R234, R240): millivolts at the store,
the mean voltages over the charge-sense and the store-sense resistor in microvolts (the latter positive into the store), and
the feed in tenths of a volt. -/
structure StoreSample where
  storeMv : Nat
  ichUv : Nat
  istUv : Int
  feedDv : Nat
  deriving DecidableEq, Repr

/-- One host frame (R308, R310): the header bytes after CMD, the data bytes of the request part, the request CRC as
received, and `bits`, the rising edges of SCLK between the fall and the rise of HP_CS_N. `reserved3` is byte 3 [7:6]. -/
structure HostFrame where
  target : Byte
  unit : Byte
  reserved3 : BitVec 2
  words : BitVec 6
  address : Word
  data : List Byte
  crc : Half
  bits : Nat
  deriving DecidableEq, Repr

/-- Who accesses a register: the local host, or the host of the node at a position (R335). -/
inductive Writer
  | host | far (p : Position)
  deriving DecidableEq, Repr

/-! ### The commands -/

/-- One constructor per row of spec/opcode_table.json, in the table's order but for the mailbox rows, which stand last. -/
inductive Instr
  -- clock islands and isolated links (chapter 02)
  | crossingTransfer (x : Crossing) (data : List Byte) (sclk : Nat)
  | heartbeatSend (l : FLink) (e : LEnd)
  | heartbeatReceived (l : FLink) (e : LEnd) (cycle : Half) (st : Byte) (rxerr : Byte)
  | heartbeatMissed (l : FLink) (e : LEnd)
  | linkLost (l : FLink) (e : LEnd)
  | linkStartTimeout (l : FLink) (e : LEnd)
  | responseReceived (l : FLink) (e : LEnd) (seq : Byte) (payload : List Byte)
  | commandRetryTimeout (l : FLink) (seq : Byte)
  | alarmRepeatInsertion (d : Die)
  | alarmFrameReceived (d : Die) (seq : Byte) (record : AlarmRecord)
  | levelLinkSilent (l : LLink)
  | grantTaken (d : Die) (words : List (BitVec 12))
  | withdrawnTaken (d : Die) (words : List (BitVec 12))
  | killAssertedTaken (d : Die) (words : List (BitVec 12))
  | killReleasedTaken (d : Die) (words : List (BitVec 12))
  | driveStateTaken (d : Die) (driving : Bool) (words : List (BitVec 12))
  | timeLinkDelayMeasure (d : Die)
  | timeLinkSend (d : Die)
  | lampTimeFrameReceived (d : Die) (tt : TrainTime) (echoReq stepped : Bool) (turn : Word)
  -- line lanes (chapter 03)
  | laneSignalChange (p : Port) (los : Bool) (detector : Bool)
  | detectComplete (p : Port)
  | trainingFrameReceived (p : Port) (ui : List Bool) (adapted : Bool)
  | acquireTimeout (p : Port)
  | trainComplete (p : Port)
  | trainTimeout (p : Port)
  | trialEnd (p : Port)
  | verdictComplete (p : Port)
  | verdictTimeout (p : Port)
  | backoffEnd (p : Port)
  | cdrLockLost (p : Port)
  | fastRelock (p : Port)
  | blinkTimeout (p : Port)
  | laneParamRefresh (p : Port) (params : LaneParams)
  | eyeScanDone (counts : List Word)
  -- codewords, frames, forwarding, train time (chapter 04)
  | codewordReceived (p : Port) (symbols : List (BitVec 10))
  | lineAlarmReceived (p : Port) (h : LineHdr) (a : AlarmP)
  | lineTimeReceived (p : Port) (h : LineHdr) (t : TimeP) (since : Nat)
  | creditReceived (p : Port) (h : LineHdr) (c : CreditP)
  | beaconReceived (p : Port) (h : LineHdr) (b : BeaconP)
  | carriedReceived (p : Port) (h : LineHdr) (c : CarriedP) (whole : Bool)
  | mgmtRequestReceived (p : Port) (h : LineHdr) (m : MgmtP) (whole : Bool)
  | floodKeyAged
  | alarmSlotInsert (p : Port)
  | frameTransmitStart (p : Port)
  | alarmRepeat
  | creditSend (p : Port)
  | portCycleEnd (p : Port)
  | localFrameReceived (i : LocalIf) (frame : List Byte) (fcsOk : Bool)
  | macEntryAged (mac : NodeId)
  | timeSend
  | timeEchoRequest (p : Port)
  | trainTimeStep
  | holdoverEnter
  -- inauguration (chapter 05)
  | vinputSample (cabAct cplFore cplAft aux1 aux2 : Int)
  | vinputSend
  | vinputReceived (payload : List Byte)
  | vinputStale
  | joiningTimeout (e : VEnd)
  | holdingTimeout (e : VEnd)
  | fencedBrokenTimeout (e : VEnd)
  | beaconSend
  | beaconEntryAged (id : NodeId)
  | inaugurationCall
  | callReceived (p : Port) (h : LineHdr) (f : FrontP)
  | deferredLaunch
  | frontReceived (p : Port) (h : LineHdr) (f : FrontP)
  | cutReceived (p : Port) (h : LineHdr) (f : FrontP)
  | commitPhase0Received (p : Port) (h : LineHdr) (c : CommitP)
  | phase1Send
  | commitPhase1Received (p : Port) (h : LineHdr) (c : CommitP)
  | commitApply
  | calledTimeout
  | roundTimeout
  | ghostUpdate (p : Position)
  -- lamp channels and patterns (chapter 06)
  | lampIdentity (d : Die) (seq : Byte) (id : NodeId)
  | mapWrite (d : Die) (seq : Byte) (channel : Byte) (effect : Word) (entry : MapEntry)
  | mapRead (d : Die) (seq : Byte) (channel : Byte)
  | slotWrite (d : Die) (seq : Byte) (slot count : Byte) (effect : Word) (steps : List Half)
  | slotRead (d : Die) (seq : Byte) (slot : Byte)
  | stateCmd (d : Die) (seq : Byte) (reqLit : ChMask) (effect : Word) (epoch : Half)
  | scene (d : Die) (seq : Byte) (scene : Byte) (effect : Word)
  | lampBurst (d : Die) (seq : Byte) (slot : BitVec 4) (burstCycle : Word) (mask : ChMask)
  | status (d : Die) (seq : Byte)
  | commandEffectApply (d : Die)
  | lampCycleBoundary (d : Die) (m : StoreSample) (ready : Bool)
  | overcurrentCut (d : Die) (c : Chan) (senseUv heldNs : Nat)
  | lampSyncSend
  | lampSyncReceived (p : Port) (h : LineHdr) (l : LampSyncP)
  | burstStart (d : Die)
  | burstEnd (d : Die)
  -- proof of light (chapter 07)
  | currentSample (d : Die) (senseUv : List Nat)
  | lightWindowClose (d : Die) (photo : List (List Int))
  | lightViewDisagrees (d : Die) (c : Chan)
  | provingReportSend (d : Die)
  | provingReportReceived (d : Die) (seq : Byte) (payload : List Byte)
  | lightMarginLow (d : Die)
  | alarmEntryStale (id : NodeId)
  -- the referee (chapter 08)
  | refReset
  | refStartDecision
  | dieBootEnd (d : Die) (clockBad supplyBad frontBad : Bool) (badWords : ChMask) (badHold : Bool)
  | noGrantTimeout
  | noGrantRetry
  | dieHealthSend (d : Die)
  | dieHealthReceived (d : Die) (atRef : Bool) (seq : Byte) (payload : List Byte)
  | clearTimeout
  | killSettled
  | driveStartTimeout
  | mirrorSend
  | mirrorReceived (d : Die) (m : MirrorP)
  | mirrorFrameMissed (d : Die)
  | mirrorDisagrees (d : Die)
  | holdExpiry (d : Die)
  | fallbackEntry (d : Die)
  | orphanTakeover (d : Die)
  | refConfig (seq : Byte) (policy : Byte)
  | refStatus (seq : Byte)
  | switch (seq : Byte) (die : Byte)
  | refKillRelease (seq : Byte) (die : Byte)
  | refKillTest (seq : Byte) (die : Byte)
  | killTestEnd
  | refPathClear (seq : Byte) (die : Byte) (mask : ChMask)
  | switchReportReceived (seq : Byte) (payload : List Byte)
  | killTestReportReceived (seq : Byte) (payload : List Byte)
  -- the energy store (chapter 09)
  | storeChargeControl (d : Die) (storeMv : Nat)
  | storeMeasureDone (d : Die) (chargeUc startMv endMv esrStepUv : Nat)
  | storeBleedDone (d : Die)
  | storeOverdrawn (d : Die)
  | feedLost (d : Die) (feedDv heldNs : Nat)
  | feedDip (d : Die) (feedDv heldNs : Nat)
  | feedPresent (d : Die) (feedDv heldNs : Nat)
  | rideEnd (d : Die)
  | lastLightEntry (d : Die)
  | shutdownTimeout (d : Die)
  | finalRecordWritten (d : Die)
  | lastWordEntry (vinMv heldNs : Nat)
  | lastWordReturn (vinMv heldNs : Nat)
  -- power states (chapter 10)
  | powerStateFollow
  | wakeTargetTimeout
  | sleepAnswer
  | drainComplete
  | calmEntry
  | gustRecognised (p : Port) (segments : List (Bool × Nat)) (others : List (List (Bool × Nat)))
  | hostWake (cmd : Byte) (f : HostFrame)
  | gustBurstStart
  | gustBurstEnd
  | probeBurst (e : VEnd)
  | powerWordAck
  | failsafeToCalm
  -- reset, options and Frost (chapter 11)
  | por (vinMv : Nat) (regulatorBad : Bool) (fuses : List Byte) (cut : Bool)
  | brownoutReset (vinMv heldNs : Nat) (cut : Bool)
  | rstNReset (heldNs : Nat)
  | rstNRelease
  | watchdogExpiry
  | thermalTrip (sensorsC : List Int) (heldNs : Nat)
  | thermalHoldRelease (sensorsC : List Int)
  | firmwareFaultReset
  | hvLinkLossReset (d : HvDie)
  | resetPendingRetry (clocksUp : Bool)
  | hostPortResetComplete
  | blockReset (b : Block) (cut : Bool)
  | blockReady (b : Block)
  | startBegin (badFw badFault badHost : Bool)
  | firmwareSelect
  | startComplete (programOk : Bool)
  | dieAbsentTimeout (d : HvDie)
  | frostSetEntry (d : Die)
  -- the host port and the bridge (chapter 12)
  | nop (f : HostFrame)
  | read (f : HostFrame)
  | write (f : HostFrame)
  | lockedRmw (f : HostFrame)
  | farRead (f : HostFrame)
  | farWrite (f : HostFrame)
  | attnAck (value : Word)
  | mbxSubmit (w : Writer) (slots : BitVec 4)
  | mbxRelease (w : Writer) (slots : BitVec 4)
  | mbxSlotWrite (w : Writer) (address : Word) (data : List Byte)
  | registerWrite (w : Writer) (address : Word) (data : Word)
  | mgmtResponseReceived (p : Port) (h : LineHdr) (m : MgmtP) (whole : Bool)
  | tagTimeout (tag : Fin 8)
  | tagHoldExpiry (tag : Fin 8)
  | mgmtRequestServe
  | hostAbsent
  | regRead (d : HvDie) (seq : Byte) (count : Byte) (address : Word)
  | regWrite (d : HvDie) (seq : Byte) (count : Byte) (address : Word) (data : List Byte)
  -- the books (chapters 15 and 16)
  | faultReportReceived (d : HvDie) (seq : Byte) (payload : List Byte)
  | faultSummaryWrite
  | logOverflowWrite
  | linkErrorsClear (l : FLink)
  | ledgerSample (junctionC : Int)
  | ledgerWrite
  | retentionRewrite (area : Nat)
  -- rows added at the table's end
  | lampDieResetRelease (d : Die) (storeMv : Nat)
  | lampDieSelfCheckFailed (d : Die) (clockBad supplyBad frontBad : Bool)
  | timeLinkEchoReceived (d : Die) (turn : Word) (elapsed : Word)
  | islandRelease (clocksUp : Bool)
  | reservedCmdFrame (cmd : Byte) (f : HostFrame)
  | badOpcodeRequest
  | linkFrameDiscarded (l : FLink) (e : LEnd) (positive : Bool) (codes : List (BitVec 10))
  -- the mailbox (chapters 13 and 14): each serves the oldest BUSY slot, whose OPCODE is this command's
  | slotFillTimeout (slot : Fin 4)
  | slotDoneExpiry (slot : Fin 4)
  | mailboxDeadlineMissed (slot : Fin 4)
  | identity
  | optRead
  | optBegin
  | optStage
  | optCommit (readBackOk : Bool)
  | optErase (readBackOk : Bool)
  | mapSet
  | mapGet
  | slotSet
  | slotGet
  | sceneSet
  | lampHost
  | roleGet
  | inaugSet
  | inaugGet
  | linkSet
  | linkGet
  | permitSet
  | permitGet
  | powerPolicySet
  | powerPolicyGet
  | gpioSet
  | gpioGet
  | lampState
  | burst
  | redundSwitch
  | killTest
  | killRelease
  | pathClear
  | redundStatus
  | powerSet
  | counterRead
  | eyeScanStart
  | eyeScanResult
  | eyeScanPoints
  | faultRead
  | ledgerRead
  | retainedRead
  | retainedWrite
  | fullReset
  | fullResetTimeout
  | fwBegin
  | fwWrite
  | fwVerify
  | fwVerifyDone
  | fwStatus
  | fwActivate
  deriving DecidableEq, Repr

end Sys2Proof
end

