-- ==== Sys2Proof/Machine/Symbols.lean ====
section
/-! DEFINITION. The 8b/10b coding of the framed isolated links (R42): symbols, their ten-bit codes at either running
disparity, and the reading of a code. The manual names the coding without its tables; they are the coding's own
(PRESUMED, log entry 61). -/

namespace Sys2Proof.Machine

/-- A ten-bit code as it goes over the line, bit a in the high place. -/
abbrev Code := BitVec 10

/-- A symbol: a control symbol K or a data symbol D of one byte. -/
structure Sym where
  control : Bool
  byte : Byte
  deriving DecidableEq, Repr

def symD (b : Byte) : Sym := ⟨false, b⟩

/-- The comma K28.5 of the idle pair, the insertion mark K23.7, SOF K27.7 and EOF K29.7 (R42, R43, R47). -/
def symComma : Sym := ⟨true, 0xBC⟩
def symMark : Sym := ⟨true, 0xF7⟩
def symSof : Sym := ⟨true, 0xFB⟩
def symEof : Sym := ⟨true, 0xFD⟩

/-- The idle pair K28.5 D21.5. -/
def idlePair : List Sym := [symComma, symD 0xB5]

/-- The six-bit codes abcdei of D0.y to D31.y at negative running disparity. -/
def sixTable : List (BitVec 6) :=
  [0b100111, 0b011101, 0b101101, 0b110001, 0b110101, 0b101001, 0b011001, 0b111000,
   0b111001, 0b100101, 0b010101, 0b110100, 0b001101, 0b101100, 0b011100, 0b010111,
   0b011011, 0b100011, 0b010011, 0b110010, 0b001011, 0b101010, 0b011010, 0b111010,
   0b110011, 0b100110, 0b010110, 0b110110, 0b001110, 0b101110, 0b011110, 0b101011]

/-- The four-bit codes fghj of Dx.0 to Dx.7 at negative running disparity, and the alternate of Dx.7. -/
def fourTable : List (BitVec 4) := [0b1011, 0b1001, 0b0101, 0b1100, 0b1101, 0b1010, 0b0110, 0b1110]

def fourAlternate : BitVec 4 := 0b0111

def onesIn {w : Nat} (v : BitVec w) : Nat := (List.range w).foldl (fun a i => if v.getLsbD i then a + 1 else a) 0

/-- A code of a pair goes out inverted at positive disparity: one with unequal ones and zeros, and the neutral D7 and Dx.3. -/
def sixCode (x : Nat) (positive : Bool) : BitVec 6 :=
  let c := sixTable.getD x 0
  if positive && (onesIn c ≠ 3 || x = 7) then ~~~ c else c

/-- Dx.7 takes its alternate where the primary would make a run of five: x 17, 18, 20 at negative disparity, 11, 13, 14 at
positive. -/
def usesAlternate (x : Nat) (positive : Bool) : Bool :=
  if positive then x = 11 || x = 13 || x = 14 else x = 17 || x = 18 || x = 20

def fourCode (x y : Nat) (positive : Bool) : BitVec 4 :=
  let c := if y = 7 && usesAlternate x positive then fourAlternate else fourTable.getD y 0
  if positive && (onesIn c ≠ 2 || y = 3) then ~~~ c else c

/-- The running disparity after a block of a code: positive after more ones, negative after more zeros. -/
def disparityAfter {w : Nat} (v : BitVec w) (positive : Bool) : Bool :=
  if w < 2 * onesIn v then true else if 2 * onesIn v < w then false else positive

def controlCode (b : Byte) : Code :=
  if b = symComma.byte then 0b0011111010 else if b = symMark.byte then 0b1110101000
  else if b = symSof.byte then 0b1101101000 else 0b1011101000

/-- The code of a symbol at a running disparity. -/
def Sym.code (s : Sym) (positive : Bool) : Code :=
  if s.control then (if positive then ~~~ controlCode s.byte else controlCode s.byte)
  else
    let six := sixCode (s.byte.toNat % 32) positive
    six ++ fourCode (s.byte.toNat % 32) (s.byte.toNat / 32) (disparityAfter six positive)

/-- The codes of a run of symbols from a running disparity. -/
def codesOf (positive : Bool) : List Sym → List Code
  | [] => []
  | x :: r => x.code positive :: codesOf (disparityAfter (x.code positive) positive) r

/-- The running disparity after a run of symbols. -/
def disparityOf (positive : Bool) : List Sym → Bool
  | [] => positive
  | x :: r => disparityOf (disparityAfter (x.code positive) positive) r

/-- The symbol a code stands for at a running disparity; none for a code violation and for a disparity error (R45). -/
def symOf (c : Code) (positive : Bool) : Option Sym :=
  match [symComma, symMark, symSof, symEof].find? fun k => k.code positive = c with
  | some k => some k
  | none =>
    match (List.range 32).find? fun x => sixCode x positive = c.extractLsb' 4 6 with
    | some x =>
      match (List.range 8).find? fun y => (symD (BitVec.ofNat 8 (32 * y + x))).code positive = c with
      | some y => some (symD (BitVec.ofNat 8 (32 * y + x)))
      | none => none
    | none => none

/-- The symbols of a run of codes; none when any of them shows a code violation or a disparity error. -/
def symsOf (positive : Bool) : List Code → Option (List Sym)
  | [] => some []
  | c :: r =>
    match symOf c positive with
    | some x => (symsOf (disparityAfter c positive) r).map (x :: ·)
    | none => none

end Sys2Proof.Machine
end

