-- ==== Sys2Proof/Machine/State.lean ====
section
/-! DEFINITION. The state of one BX-856 node: the five dies, their links and the queue of waiting commands.
Every field is plain data. Times are nanoseconds of `State.now`, the model's own elapsed time (log entry 2). -/

namespace Sys2Proof.Machine

/-! ### Addressed memory (R294, R298, R348, R379, Table 13.1) -/

/-- A byte memory as rising (address, byte) pairs that list no byte equal to the memory's default
(0xFF for erased NVM and the staging buffer, 0x00 for cleared RAM). -/
structure Mem where
  cells : List Host.Cell
  deriving DecidableEq, Repr

/-! ### Records shared by several dies -/

/-- A fault record (Table 15.1) without its CRC, which is computed from the rest. -/
structure FaultRec where
  seq : Word
  code : Half
  event : BitVec 2
  sev : BitVec 2
  subject : Byte
  tt : TrainTime
  epoch : Half
  position : Position
  source : Byte
  rep : Half
  data : List Byte
  deriving DecidableEq, Repr

/-- One location of the fault log's ring (R375, R393). -/
inductive LogLoc | valid (r : FaultRec) | torn
  deriving DecidableEq, Repr

/-- A fault report waiting in a die or in the LD for the CD (R392). `linkSeq` is the SEQ it was sent with. -/
structure DieReport where
  linkSeq : Byte
  code : Half
  event : BitVec 2
  sev : BitVec 2
  subject : Byte
  rep : Half
  data : List Byte
  tt : TrainTime
  deriving DecidableEq, Repr

/-- A frame on a framed isolated link (Table 2.4, Table 2.5). -/
inductive LinkBody
  | heartbeat (cycle : Half) (st : Byte) (rxerr : Byte)
  | command (payload : List Byte)
  | response (payload : List Byte)
  | report (payload : List Byte)
  | alarm (r : AlarmRecord)
  | mirror (m : MirrorP)
  | time (tt : TrainTime) (echoReq echo holdover stepped : Bool) (turn : Word)
  | vinput (payload : List Byte)
  deriving DecidableEq, Repr

/-- Transmit taps in steps of 0.025 (Table 3.5): c(−2) from 0 to 4, −c(−1) from 0 to 12, −c(+1) from 0 to 10. -/
structure Taps where
  cm2 : Nat
  cm1 : Nat
  cp1 : Nat
  deriving DecidableEq, Repr

/-- Something that left the node or one of its dies: what the manual says is sent. A Gust goes with its taps, the levels of its on
segments' clock pattern, and its segments (R57, R267); a codeword with its start in units of 1/225 ns. -/
inductive Emission
  | link (l : FLink) (fromEnd : LEnd) (seq : Byte) (body : LinkBody)
  | alarmInsertion (d : Die) (seq : Byte) (r : AlarmRecord)
  | line (p : Port) (f : LineFrame)
  | stomp (p : Port)
  | training (p : Port) (control status : Half) (ui : List Bool)
  | codeword (p : Port) (at_ : Nat) (symbols : List (BitVec 10))
  | gust (p : Port) (code : GustCode) (taps : Taps) (clock : List Int) (segments : List (Bool × Nat))
  | local_ (i : LocalIf) (frame : List Byte)
  | miso (bytes : List Byte)
  deriving DecidableEq, Repr

/-! ### Isolated links (chapter 02) -/

/-- The function that issued a COMMAND and learns of its answer (R46). -/
inductive Issuer
  | mailbox (d : HvDie)      -- the mailbox request being served
  | bridge (tag : Fin 8)     -- a far request to this node's own die (R326)
  | responder (d : HvDie)    -- a MGMT request being served (R329)
  | config (d : HvDie)       -- configuration of a die under R300
  | commit                   -- a STATE command of R172
  | ledger (d : Die)         -- the final record, for the ledger (R428)
  | plain                    -- scene, burst, identity and the like
  deriving DecidableEq, Repr

/-- A COMMAND that has no RESPONSE yet (R46). -/
structure OpenCommand where
  seq : Byte
  payload : List Byte
  tries : Nat
  sentAt : Nat
  issuer : Issuer
  deriving DecidableEq, Repr

/-- A COMMAND that has been executed: its SEQ, the answer given, and when (R46). -/
structure Served where
  seq : Byte
  answer : List Byte
  at_ : Nat
  deriving DecidableEq, Repr

/-- One end of a framed link (R44 to R50, R279, R395). `tx` are the symbols this end has sent or will send without a gap
from `txAt`, in quarters of a nanosecond, at running disparity `txPositive`; an insertion of R47 in progress ends at
`insertEnd`. -/
structure LinkEnd where
  running : Bool
  lost : Bool
  hbRun : Nat
  hbSeen : Bool
  upSinceStart : Bool
  startChecked : Bool
  lastValidAt : Nat
  releasedAt : Nat
  lostAt : Nat
  cycle : Half
  txSeq : Byte
  rxerr : Byte
  peerState : Byte
  peerRxerr : Byte
  missed : Nat
  opened : List OpenCommand
  served : List Served
  alarmSeqSeen : Option Byte
  raised : Bool
  txAt : Nat
  txPositive : Bool
  tx : List Sym
  insertEnd : Nat
  deriving DecidableEq, Repr

/-- RXERR rises of one framed link as its ends report them (R395). -/
structure LinkErrors where
  rises : List (Nat × Nat)
  lastRiseAt : Nat
  raised : Bool
  byFirst : Bool
  deriving DecidableEq, Repr

/-- A level link (R49): the STATE its source repeats (none: the source is silent), the state the receiver last took,
whether and since when the receiver finds the link silent, whether it has raised the fault for it, the STATE of the last
word where that word was valid, and when the last valid word came. -/
structure LevelLink where
  sent : Option Bool
  taken : Bool
  silent : Bool
  silentAt : Nat
  raised : Bool
  last : Option Bool
  wordAt : Nat
  deriving DecidableEq, Repr

/-- A logic-side crossing (R38 to R41): REQ, ACK, the bundled data the sender holds stable, the data last latched, the
transfers that wait for SCLK, oldest first, the SCLK edges seen since REQ rose, how many transfers completed, and the slot
of a lane crossing's rotation (R40). -/
structure Crossed where
  req : Bool
  ack : Bool
  bundle : List Byte
  latched : List Byte
  waiting : List (List Byte)
  edges : Nat
  transfers : Nat
  slot : Nat
  deriving DecidableEq, Repr

/-! ### Lamp dies (chapters 06 to 09) -/

/-- Proof states of a channel (Table 7.1). -/
inductive Proof | offDuty | qualifying | proven | dark
  deriving DecidableEq, Repr

/-- The kind of a standing declaration (Tables 7.6 and 8.8). -/
inductive DarkKind | none | current | light | pattern
  deriving DecidableEq, Repr

/-- A stored light reference (R190): amplitude in pA, the target and pilot depth it was measured at, and the CRC over
the entry it belongs to. -/
structure LightRef where
  aPa : Nat
  tCal : Nat
  dCal : Nat
  crc : Half
  deriving DecidableEq, Repr

/-- A valid light window that has closed (R186): A ÷ E in units of 1/1,024, and whether A lies below 60% or at or above
70% of E. -/
structure WindowRec where
  ratio : Nat
  low : Bool
  ok : Bool
  deriving DecidableEq, Repr

/-- A light window; none when it was invalid. -/
abbrev Window := Option WindowRec

/-- A calibration in progress at one target: the sum of A over its valid windows, and how many they are (R191). -/
structure CalRun where
  target : Nat
  sum : Nat
  count : Nat
  deriving DecidableEq, Repr

/-- One lamp channel as one lamp die holds it. `edgeAt` is the boundary or first gate edge at which the step it shows began to
be driven (R154, R220); `wheel` marks a BUCK stage whose low-side gate conducts until its current is zero (R154). -/
structure Channel where
  proof : Proof
  kind : DarkKind
  step : Nat
  target : Nat
  setpoint : Nat
  inBurst : Bool
  curBlankUntil : Nat
  lightBlankUntil : Nat
  cutNow : Bool
  cuts : Nat
  latched : Bool
  lowRun : Nat
  okRun : Nat
  curProven : Bool
  lightProven : Bool
  litRun : Nat
  litRaised : Bool
  win1 : Window
  win2 : Window
  own : Option LightRef
  cross : Option LightRef
  cal : List CalRun
  calFailedAt : Option Nat
  viewProven : Bool
  viewDark : Bool
  viewDarkAt : Nat
  viewDiffer : Nat
  viewAgree : Nat
  ratios : List Nat
  edgeAt : Nat
  wheel : Bool
  deriving DecidableEq, Repr

/-- The lamp fuse field of one channel (Table 11.4). -/
structure LampFuse where
  fmode : BitVec 2
  fem : Bool
  fend : Bool
  fsig : BitVec 3
  fset : BitVec 8
  fsw : BitVec 8
  fdead : BitVec 4
  fpilot : BitVec 4
  deriving DecidableEq, Repr

/-- A burst that waits or runs on a die (R170, R171); `steps` is the slot as it stood when the burst began (R163);
`cutDue` marks a burst that ends at the next boundary (R245). -/
structure Burst where
  slot : BitVec 4
  mask : ChMask
  start : Word
  running : Bool
  steps : Slot
  cutDue : Bool
  deriving DecidableEq, Repr

/-- An accepted command held for its effect boundary (R178). -/
inductive HeldOp
  | map (c : Chan) (e : MapEntry)
  | slot (s : Fin 16) (v : Slot)
  | scene (b : Byte)
  | state (m : ChMask) (epoch : Half)
  deriving DecidableEq, Repr

/-- `effect` none means the first boundary after acceptance (R174); `seq` is the SEQ of its COMMAND (R178). -/
structure Held where
  seq : Byte
  effect : Option Word
  order : Nat
  op : HeldOp
  deriving DecidableEq, Repr

/-- Where a lamp die has its train time from (R37). -/
inductive ClockSource | freeRunning | mirror | timeLink
  deriving DecidableEq, Repr

/-- The cycle grid of a lamp die (R37, R164, R166): train time of its latest boundary and when that boundary was. -/
structure DieClock where
  boundaryTT : TrainTime
  boundaryAt : Nat
  source : ClockSource
  halfTrip : Nat
  slewNs : Int
  stepTo : Option Int
  steppedCycle : Bool
  deriving DecidableEq, Repr

/-- The store policy block (Table 9.2). `p` holds P_n in mW, channel 0 first. -/
structure StorePolicy where
  rideMs : Nat
  lastLight : Nat
  floorV : Nat
  chgLimit : Nat
  llLow : Bool
  rIch : Nat
  rIst : Nat
  p : List Nat
  deriving DecidableEq, Repr

/-- A final record (Table 9.6) without its CRC. -/
structure FinalRecord where
  version : Byte
  cause : Byte
  count : Half
  tt : TrainTime
  cMeas : Half
  esr : Half
  cInitial : Half
  esrInitial : Half
  k : Half
  lastMs : Half
  darkMask : ChMask
  dips : Half
  crcOk : Bool
  deriving DecidableEq, Repr

/-- Store phases (Table 9.4); `off` is a die that has stopped. -/
inductive StorePhase | fed | ride | last | finish | off
  deriving DecidableEq, Repr

/-- The store, its energy model and its records (chapter 09). Energies are in µJ, K in units of 1/1,024. `railUa` is the rail
draw of R235 in the cycle just ended and `dischargeUa` the current drawn from the store; `kWindow` holds the rail energy and the
predicted lamp energy at K = 1, in nJ, of the most recent cycles, newest first (R241); `underSince` is the moment from which
the store has stood below 70.0 V with the feed present and no burst running (R237). -/
structure Store where
  phase : StorePhase
  feedOk : Bool
  ready : Bool
  feedDv : Nat
  storeMv : Nat
  railUa : Nat
  dischargeUa : Nat
  underSince : Option Nat
  charging : Bool
  bleeding : Bool
  cMeas : Option Nat
  cFresh : Bool
  esr : Option Nat
  cInitial : Option Nat
  esrInitial : Option Nat
  k : Nat
  kWindow : List (Nat × Nat)
  eAvail : Nat
  eCommit : Nat
  eRes : Nat
  policy : StorePolicy
  nextPolicy : Option StorePolicy
  phaseAt : Nat
  lastAt : Nat
  spentAt : Option Nat
  spentCause : Byte
  writing : Option FinalRecord
  finalA : Option FinalRecord
  finalB : Option FinalRecord
  dips : Nat
  deriving DecidableEq, Repr

/-- Loss of the control die at a lamp die (R226 to R228, R304). -/
structure CdWatch where
  lost : Bool
  holding : Bool
  holdUntil : Nat
  fallbackDue : Bool
  fallback : Bool
  frostDue : Bool
  frost : Bool
  frostLeft : Bool
  leaveFrom : Nat
  deriving DecidableEq, Repr

/-- The mirror link as a die sees it (R223, R224). `differ` counts consecutive frames whose MAP_CRC or
SLOT_CRC is not the die's own; `agrees` is what the comparison at the die's latest boundary found. -/
structure MirrorBox where
  sent : Option MirrorP
  complete : Option MirrorP
  completeAt : Nat
  differ : Nat
  agrees : Bool
  deriving DecidableEq, Repr

/-- What a proving REPORT goes out for at once when it changes (R199): whether the die drives, and the channels it holds or
sees proven, holds or sees dark, and holds qualifying. -/
structure ProofKey where
  driver : Bool
  proven : ChMask
  dark : ChMask
  qualifying : ChMask
  deriving DecidableEq, Repr

/-- A lamp die. `bootDone` false is BOOT (R210); `gate` is the gate enable DRIVE reports (R209); `clockBad` and `supplyBad`
say what a failed self-check found (R210, R213); `settling` marks a die whose kill has just ended (R218), `gapBlank` the gap of a
switch-over (R193); `healthSent` and `healthAt` are the STATE byte and DARK mask last reported, `healthLast` the payload sent then, and when (R213), `provingSent` and `provingAt` the same for the proving REPORT. -/
structure LampDie where
  powered : Bool
  bootDone : Bool
  failed : Bool
  clockBad : Bool
  supplyBad : Bool
  settling : Bool
  gapBlank : Bool
  healthSent : Option (Byte × ChMask)
  healthLast : List Byte
  healthAt : Nat
  shutdown : Bool
  killed : Bool
  gateSupply : Bool
  grant : Bool
  gate : Bool
  orphan : Bool
  clock : DieClock
  identity : Option NodeId
  map : Vector (Option MapEntry) 12
  fuses : Vector LampFuse 12
  fuseBad : ChMask
  holdUnits : Nat
  holdBad : Bool
  slots : Vector Slot 16
  held : List Held
  heldCount : Nat
  reqLit : ChMask
  epoch : Half
  scene : Byte
  burst : Option Burst
  chans : Vector Channel 12
  alarmSeq : Half
  unacked : Option (AlarmRecord × Byte)
  insertedAt : Nat
  invalidWords : Half
  plClosed : Bool
  cd : CdWatch
  mirror : MirrorBox
  store : Store
  reports : List DieReport
  conds : List (Half × Byte)
  sampleAt : Nat
  marginLow : Nat
  busyCount : Nat
  gapViewProven : ChMask
  provingSent : Option ProofKey
  provingAt : Nat
  deriving DecidableEq, Repr

/-! ### The referee (chapter 08) and the vehicle inputs (chapter 05) -/

/-- REF's grant state register (R207). No value encodes two grants. In `withdrawing` the GRANT link of `x` carries
Withdrawn and REF waits until `x` is clear; in `granting` `y` has been sent Granted and has not yet read Driving. -/
inductive GrantState
  | boot
  | noGrant
  | granted (d : Die)
  | withdrawing (x : Die) (y : Option Die) (cause : Byte) (killUsed : Bool) (notReady : Bool)
  | granting (x : Option Die) (y : Die) (cause : Byte) (killUsed : Bool) (notReady : Bool)
  deriving DecidableEq, Repr

/-- The class of one vehicle-input sample (R121). -/
inductive InputClass | active | inactive | out
  deriving DecidableEq, Repr

/-- A filtered input state, coded as in Table 5.1: 0 INACTIVE, 1 ACTIVE, 2 INDETERMINATE. -/
abbrev Filtered := BitVec 2

/-- The filter of one vehicle input (R121). -/
structure InputFilter where
  state : Filtered
  cls : InputClass
  run : Nat
  sinceSteady : Nat
  deriving DecidableEq, Repr

/-- What REF knows of one lamp die: its last health, and the runs of R222. -/
structure RefView where
  seen : Bool
  state : Byte
  dark : ChMask
  orphan : Bool
  darkRuns : List Nat
  darkSince : List Nat
  readySince : Option Nat
  deriving DecidableEq, Repr

/-- The referee. `lastResort` is the die that R229 lets REF grant next; `resortA` and `resortB` say whose kill it has already
released under that rule. -/
structure Ref where
  grant : GrantState
  bootAt : Nat
  stepAt : Nat
  cycle : Word
  prefB : Bool
  darkSwitch : Bool
  pathBadA : ChMask
  pathBadB : ChMask
  killA : Bool
  killB : Bool
  killTest : Option Die
  killTestAt : Nat
  killTestSeen : Bool
  lastResort : Option Die
  resortA : Bool
  resortB : Bool
  switchovers : Word
  lastCause : Byte
  lastSwitchCycle : Word
  viewA : RefView
  viewB : RefView
  invalidWords : Half
  cab : InputFilter
  cplFore : InputFilter
  cplAft : InputFilter
  aux1 : InputFilter
  aux2 : InputFilter
  vcount : Half
  ageForeAt : Nat
  ageAftAt : Nat
  vinput : List Byte
  vinputAt : Nat
  noDriver : Bool
  lostA : Bool
  lostB : Bool
  reports : List DieReport
  deriving DecidableEq, Repr

/-! ### The line die (chapters 03, 04, 05, 10) -/

/-- Lane states (Table 3.9). -/
inductive LaneState | off | detect | acquire | train | trial | verdict | up | blink | failed
  deriving DecidableEq, Repr

/-- One line lane (chapter 03). `params` and `storedTaps` are its stored parameters (R62), refreshed at `paramsAt`; `prbs` is the
pattern generator of its training frames (R63); `alignRun` counts the good codewords in a row from which alignment is gained
(R85), `trialBad` and `trialCorrected` what TRIAL has measured (R69). -/
structure Lane where
  st : LaneState
  nrz : Bool
  nrzLimit : Bool
  los : Bool
  detector : Bool
  present : Bool
  presentAt : Nat
  enteredAt : Nat
  lockRun : Nat
  missRun : Nat
  frameLock : Bool
  inverted : Bool
  ctlSeen : Half
  ctlRun : Nat
  staSeen : Half
  staRun : Nat
  farControl : Half
  farStatus : Half
  miswired : Bool
  taps : Taps
  answer : BitVec 5
  request : BitVec 6
  rxReady : Bool
  farRxReady : Bool
  trialOk : Bool
  farConf : Bool
  farOk : Bool
  failures : Nat
  failRaised : Bool
  blinkAt : Nat
  backAt : Nat
  absentNs : Nat
  absentAt : Nat
  begins : List Nat
  params : LaneParams
  storedTaps : Taps
  paramsAt : Nat
  prbs : BitVec 13
  alignRun : Nat
  trialBad : Nat
  trialCorrected : Nat
  markers : Nat
  badCodewords : Nat
  aligned : Bool
  beaconSeen : Bool
  returned : Bool
  deriving DecidableEq, Repr

/-- The drop and lane counters of a line port, in the order of Table 14.3. -/
structure PortCounters where
  hdrErr : Word
  fcsErr : Word
  stomped : Word
  cwUncorr : Word
  ttlDrop : Word
  epochDrop : Word
  noRoute : Word
  fencedDrop : Word
  alarmMerged : Word
  cwReceived : Word
  cwCorrected : Word
  symCorrected : Word
  blinks : Word
  longestBlink : Word
  deriving DecidableEq, Repr

/-- Credit counts of one pool on one port (R100, R101). -/
structure Credit where
  sent : Half
  farFree : Half
  acc : Half
  freed : Half
  deriving DecidableEq, Repr

/-- What a port knows of the far port on its lane, from that node's own BEACON (R107). -/
structure FarPort where
  known : Bool
  fenced : Bool
  nodeId : NodeId
  deriving DecidableEq, Repr

/-- The sending side of a port's codeword stream (R83, R84): the scrambler; the start of the codeword being filled, in units of
1/225 ns; whether its insertion is decided, what it holds so far, INS and FPTR; and of the frame in progress the bytes placed, the bytes
still to come, and the ingress port and body of a transit frame whose units are freed when its last byte is placed (R100). -/
structure TxLine where
  scr : BitVec 58
  at_ : Nat
  begun : Bool
  cur : List Byte
  ins : Bool
  fptr : Option Nat
  placed : List Byte
  rest : List Byte
  frees : Option (Port × LineBody)
  deriving DecidableEq, Repr

/-- A frame of a credit class whose header has been acted on while its last byte is still to come (R95): whether this node itself
frees its units, and whether it takes the frame when it is whole. -/
structure Ingress where
  frame : LineFrame
  held : Bool
  taken : Bool
  deriving DecidableEq, Repr

/-- The receiving side (R83, R84, R88): the descrambler, the bytes of a frame that is not whole, whether bytes are discarded up
to the next FPTR, the frame whose header has been acted on before its last byte came (R95), and the whole frames of its codewords
whose rows have not run yet, oldest first. -/
structure RxLine where
  dscr : BitVec 58
  bytes : List Byte
  skip : Bool
  inCut : Option Ingress
  arrived : List LineFrame
  deriving DecidableEq, Repr

/-- A transit frame at its egress port: the port it came in on, whether the units it holds there are freed when it has left
(R100), whether its last byte has come (R95), and the frame. -/
structure Transit where
  src : Port
  frees : Bool
  whole : Bool
  frame : LineFrame
  deriving DecidableEq, Repr

/-- One line port (chapter 04). Queues are oldest first. `cutThrough` is the ingress port of the frame in progress while its last
byte has not come. `cycSym` and `cycCorr` count the symbols and the corrected symbols of the port cycle (R105); `creditSent`,
`creditAt` and `creditCw` are the counts last sent, when, and the codeword in which they went (R100); `echoAt` is when the next
request of R116 is due. -/
structure PortState where
  errcnt : Nat
  errRose : Bool
  wholeUp : Bool
  cleanRun : Nat
  requalRun : Nat
  warned : Bool
  fenced : Bool
  fencedAt : Nat
  cycleAt : Nat
  far : FarPort
  counters : PortCounters
  alarmSlot : Option LineFrame
  alarmCopies : Nat
  control : List LineFrame
  transitMgmt : List Transit
  transitCarried : List Transit
  localMgmt : List LineFrame
  localCarried : List LineFrame
  cutThrough : Option Port
  mgmt : Credit
  carried : Credit
  creditSeen : Bool
  seqTime : Half
  seqCredit : Half
  seqFront : Half
  seqCommit : Half
  lastSteps : Option (BitVec 6)
  lastTimeEpoch : Half
  laneDelay : Nat
  echoOut : Option (Half × Word)
  echoOwed : Option (Half × Word)
  echoDue : Bool
  echoAt : Nat
  cycSym : Nat
  cycCorr : Nat
  creditSent : CreditP
  creditAt : Nat
  creditCw : Option Nat
  tx : TxLine
  rx : RxLine
  deriving DecidableEq, Repr

/-- A key of the flood table (R90): class, identity part and SEQ. -/
structure FloodKey where
  cls : BitVec 4
  ident : Nat
  seq : Half
  at_ : Nat
  deriving DecidableEq, Repr

/-- End verdicts, coded as in Table 13.7. -/
inductive Verdict | linked | bridged | joining | open_ | holding | broken | cut | doubt
  deriving DecidableEq, Repr

/-- Standings of an end (Table 5.6). -/
inductive Standing | leading | trailing | free | notFree
  deriving DecidableEq, Repr

/-- A lane loss as the engine is told of it: the lane, when the interruption began and when it was declared lost (R77). -/
structure LaneLoss where
  port : Port
  began : Nat
  at_ : Nat
  deriving DecidableEq, Repr

/-- One end as the inauguration engine holds it (R125 to R127). `rowTimer` is the row of Table 5.2 whose timer runs. -/
structure EndState where
  verdict : Verdict
  committed : Verdict
  standing : Standing
  remembered : Option Standing
  cut : Bool
  row : Nat
  rowAt : Nat
  rowExpired : Bool
  fencedLong : Bool
  fencedAt : Option Nat
  disagreeRaised : Bool
  lost : Option LaneLoss
  deriving DecidableEq, Repr

/-- Round states (Table 5.4). -/
inductive Round | idle | called | launched | held | tailed | switching
  deriving DecidableEq, Repr

/-- The set a commit puts in force (R138). -/
structure Commit where
  epoch : Half
  leadId : NodeId
  lastPos : Position
  position : Position
  reversed : Bool
  flags : RoundFlags
  tailId : NodeId
  ghosts : GhostSet
  deriving DecidableEq, Repr

/-- A prepared switch (R137, R138): the set, the verdicts it was formed from, and the boundary it waits for. -/
structure Switch where
  set : Commit
  fore : Verdict
  aft : Verdict
  boundary : TrainTime
  outside : Bool
  headPort : Option Port
  mask : Option ChMask
  deriving DecidableEq, Repr

/-- The round a node holds (R133, R136). -/
structure HeldRound where
  leadId : NodeId
  epoch : Half
  position : Position
  reversed : Bool
  ghosts : GhostSet
  flags : RoundFlags
  headPort : Option Port
  tailPort : Option Port
  deriving DecidableEq, Repr

/-- An entry of the BEACON table (R128). -/
structure BeaconEntry where
  beacon : BeaconP
  at_ : Nat
  port : Port
  deriving DecidableEq, Repr

/-- The inauguration engine (chapter 05). -/
structure Engine where
  fore : EndState
  aft : EndState
  round : Round
  heldRound : Option HeldRound
  roundAt : Nat
  own : Bool
  lastLaunchAt : Option Nat
  lastLaunchEpoch : Half
  launchDeferred : Bool
  waitingFront : Option (Port × LineHdr × FrontP)
  phase0 : Option (CommitP × Nat)
  switch : Option Switch
  commit : Option Commit
  committedCab : Bool
  callInterval : Nat
  lastCallAt : Option Nat
  numberedSinceCall : Bool
  cabRaisedFore : Bool
  cabRaisedAft : Bool
  beacons : List BeaconEntry
  holders : List (Position × NodeId)
  commitAt : Nat
  options : Byte
  inputs : List Byte
  inputsAt : Nat
  inputsStale : Bool
  frontsRejected : Word
  ghostSwitch : Option (GhostSet × Word)
  notNumberedRaised : Bool
  deriving DecidableEq, Repr

/-- An entry of the train alarm table (R204). -/
structure AlarmEntry where
  srcId : NodeId
  record : AlarmRecord
  at_ : Nat
  repeatAt : Nat
  stale : Bool
  deriving DecidableEq, Repr

/-- Train time at the LD (R113 to R118): `base` is its value at `baseAt`, `rate` its rate against the node's own counter in parts
per 10^9 (R117), and `heard` the last TIME of the source lane with the moment of its stamp. -/
structure TrainClock where
  base : TrainTime
  baseAt : Nat
  rate : Int
  heard : Option (TrainTime × Nat)
  followed : Bool
  slewNs : Int
  stepBy : Option Int
  steppedAt : Option Nat
  raisedPort : Option Port
  holdover : Bool
  sourcePort : Option Port
  sourceAt : Nat
  steps : BitVec 6
  lastSendAt : Nat
  deriving DecidableEq, Repr

/-- A time link at the LD (R51, R120): the round trip last measured, when the open measurement's SOF left, and the moments
at which the next measurement and the next TIME frame are due. -/
structure TimeLink where
  running : Bool
  roundTrip : Option Word
  askedAt : Option Nat
  measureAt : Nat
  sendAt : Nat
  deriving DecidableEq, Repr

/-- Power states (Table 10.1), with Frost kept apart (R255). -/
inductive PowerState | off | calm | waking | draining | lull | active
  deriving DecidableEq, Repr

/-- A learned MAC address (R111). -/
inductive MacWhere | iface (i : LocalIf) | position (p : Position)
  deriving DecidableEq, Repr

/-- A MAC table entry. -/
structure MacEntry where
  mac : NodeId
  at_ : Nat
  loc : MacWhere
  deriving DecidableEq, Repr

/-- Counters of a local interface (Table 14.3). -/
structure LocalCounters where
  linDrop : Word
  linOversize : Word
  linFcs : Word
  linPause : Word
  loutDrop : Word
  accepted : Word
  delivered : Word
  deriving DecidableEq, Repr

/-- One local interface (R109 to R112); `due` lists, oldest first and in hundredths of a nanosecond, when each frame of its egress
buffer will have left (Table 4.7), and `restarts` counts the restarts of its link (R109, R359). -/
structure LocalPort where
  counters : LocalCounters
  due : List Nat
  restarts : Nat
  deriving DecidableEq, Repr

/-- The eye scan of R79 to R81. State coded as in R373. -/
structure EyeScan where
  st : Nat
  lane : Port
  nrz : Bool
  dwell : Nat
  ber : Nat
  counts : List Word
  measured : Nat
  deriving DecidableEq, Repr

/-- The line die. `requestAt` and `ownAt` are the cycle boundaries at which a state request and the host's own command act (R258,
R370); `gustAt` is the start of the burst in progress; `probingFore` and `probingAft` mark the ends that send a probe, which began at
`probeAtFore` and `probeAtAft` (R271). -/
structure LineDie where
  inReset : Bool
  power : PowerState
  powerAt : Nat
  request : Option PowerState
  requestFrom : Option NodeId
  requestAt : TrainTime
  ownTarget : Option PowerState
  ownAt : TrainTime
  wakeTarget : Option GustCode
  wokenByGust : Bool
  gustDue : Option GustCode
  gustBusy : Bool
  gustAt : Nat
  probingFore : Bool
  probingAft : Bool
  probeAtFore : Option Nat
  probeAtAft : Option Nat
  numberedAt : Nat
  wakeArmed : Bool
  hlpFore : Bool
  hlpAft : Bool
  sleepAsked : Option Nat
  sleepAnswered : Bool
  powerAckAt : Nat
  drainStartAt : Nat
  laneFN : Lane
  laneFS : Lane
  laneAN : Lane
  laneAS : Lane
  portFN : PortState
  portFS : PortState
  portAN : PortState
  portAS : PortState
  flood : List FloodKey
  engine : Engine
  clock : TrainClock
  timeLa : TimeLink
  timeLb : TimeLink
  seqAlarm : Half
  seqBeacon : Half
  seqLampSync : Half
  seqCommitFlood : Half
  seqMgmt : Half
  seqCarriedA : Half
  seqCarriedF : Half
  ownRecord : Option AlarmRecord
  alarmAt : Nat
  alarms : List AlarmEntry
  alarmGen : Word
  beaconLast : Option BeaconP
  beaconAt : Nat
  scene : Byte
  sceneHost : Option Byte
  sceneSent : Byte
  sceneAt : Nat
  mgmtQueue : List (Port × LineHdr × MgmtP)
  mgmtqDrop : Word
  mac : List MacEntry
  macRefused : Word
  eth : LocalPort
  twin : LocalPort
  localCfg : List Byte
  eye : EyeScan
  reports : List DieReport
  deriving DecidableEq, Repr

/-! ### The control die (chapters 11 to 15) -/

/-- Bridge tags (Table 12.9). `request` is the request part of the frame that took the tag, without its CRC. -/
inductive TagState | free | fetching | held
  deriving DecidableEq, Repr

/-- A bridge tag. `parts` are the pieces of a far request to an own die that are still to be sent (R326). -/
structure Tag where
  st : TagState
  cmd : Byte
  frame : HostFrame
  isWrite : Bool
  at_ : Nat
  rcode : Byte
  data : List Byte
  parts : List (Word × Nat)
  deriving DecidableEq, Repr

/-- Mailbox slot states (Table 13.2). -/
inductive MbxState | free | filling | busy | done
  deriving DecidableEq, Repr

/-- A mailbox slot: the 256 bytes its owners wrote, the response shown while DONE (R336), and who owns it (R335). -/
structure MbxSlot where
  st : MbxState
  owner : Option Writer
  bytes : Mem
  resp : List Byte
  at_ : Nat
  submitAt : Nat
  missed : Bool
  orphaned : Bool
  deriving DecidableEq, Repr

/-- A mailbox request that waits for answers of dies (R353, R354, R361, R365, R367 to R369): which die answered what.
`none` in an answer list position means the die has not answered; `some []` means it was not reached. -/
structure Serving where
  slot : Fin 4
  opcode : Half
  la : Option (List Byte)
  lb : Option (List Byte)
  ref : Option (List Byte)
  info : List Byte
  deriving DecidableEq, Repr

/-- A MGMT request for a die of this node that waits for its link commands (R329). -/
structure Responding where
  src : Position
  req : MgmtP
  die : HvDie
  parts : List (Word × Nat)
  data : List Byte
  deriving DecidableEq, Repr

/-- The values of the option records in force (Table 11.13, R343). -/
structure Shadow where
  inaug : Byte
  lanes : Byte
  localPort : List Byte
  permit : GhostSet
  power : Byte
  gpio : List Byte
  map : Vector MapEntry 12
  slots : Vector Slot 16
  store : StorePolicy
  ref : Byte
  deriving DecidableEq, Repr

/-- The boot record (R382). -/
structure BootRecord where
  primaryB : Bool
  trial : Option Bool
  tried : Bool
  seq : Half
  crcOk : Bool
  deriving DecidableEq, Repr

/-- Update states of a firmware load (R386). -/
inductive FwState | idle | loading | verifying | verified | failed | activated
  deriving DecidableEq, Repr

/-- The firmware update in progress (R385 to R387). -/
structure FwUpdate where
  st : FwState
  bankB : Bool
  check : Byte
  owner : Option Writer
  written : Word
  verifiedInfo : Option (List Byte)
  deriving DecidableEq, Repr

/-- The counts of the endurance ledger (R428): powered minutes; thousandths of an equivalent minute at 105 °C of the line
and local SerDes; minutes LA and LB drove; MARGIN of each die by minute; and CONSUMED of every item (10^8 is 100%) at
earlier minutes, newest first. -/
structure LedgerBook where
  minutes : Nat
  line : Nat
  loc : Nat
  driveA : Nat
  driveB : Nat
  marginA : List (Nat × Nat)
  marginB : List (Nat × Nat)
  history : List (Nat × List Nat)
  deriving DecidableEq, Repr

/-- The ledger as the CD counts it, and its two NVM slots with their sequence numbers (R430). -/
structure Ledger where
  book : LedgerBook
  writtenAt : Nat
  slotA : Option (Half × LedgerBook)
  slotB : Option (Half × LedgerBook)
  deriving DecidableEq, Repr

/-- The nonvolatile memory of the CD (chapters 11, 14, 15, 16). `writes` and `retention` have one entry for each area, in
the order option, bank A, bank B, boot slots A and B, log, start counter, ledger slots A and B: how often it was written,
and the retention used since, in thousandths of an equivalent minute at 85 °C (R428, R431); `lastArea` is the area written
last. -/
structure Nvm where
  inReset : Bool
  option : Mem
  bankA : Mem
  bankB : Mem
  counter : Vector Word 64
  bootA : Option BootRecord
  bootB : Option BootRecord
  log : List LogLoc
  topSeq : Word
  ledger : Ledger
  writes : List Nat
  retention : List Nat
  lastArea : Option Nat
  deriving DecidableEq, Repr

/-- Fault bookkeeping of the CD (R389 to R391). `recent` holds code, subject and time of last records. -/
structure FaultBook where
  opened : List FaultRec
  extra : List (Half × Byte)
  summaries : List (FaultRec × Nat)
  recent : List ((Half × Byte) × Nat)
  written : List (Nat × Bool)
  dropped : Nat
  deriving DecidableEq, Repr

/-- The host port (chapter 12). `edges` are the SCLK edges its pending reset has seen, and `triedAt` is when that reset was last tried
(R285, R286). -/
structure HostPort where
  prev : BitVec 2
  lastCmd : Byte
  lastRcode : Byte
  lastApplied : Bool
  heartbeatAt : Nat
  absent : Bool
  events : Half
  mask : Half
  pendingReset : Bool
  edges : Nat
  triedAt : Nat
  deriving DecidableEq, Repr

/-- Retained SRAM (Table 11.10): the firmware's words, the open faults in `FaultBook`, and the host region. -/
structure Retained where
  lastEpoch : Half
  wakeDefault : Bool
  optionCrc : Word
  host : Mem
  deriving DecidableEq, Repr

/-- The control die. -/
structure ControlDie where
  running : Bool
  frost : Bool
  milestone : Byte
  stone2At : Nat
  stone6At : Nat
  startAt : Nat
  runningBank : Option Bool
  lastVerified : Option Bool
  optState : Byte
  lastWord : Bool
  goingDark : Bool
  port : HostPort
  tags : Vector Tag 8
  bridgeTimeouts : Byte
  bridgeExpired : Byte
  bridgeLate : Byte
  bridgeBusy : Byte
  bridgeInReset : Bool
  slots : Vector MbxSlot 4
  order : List (Fin 4)
  serving : Option Serving
  mbxExpiries : Word
  responding : Option Responding
  shadow : Shadow
  hostOn : ChMask
  reqLit : ChMask
  staging : Option (Mem × Writer)
  fw : FwUpdate
  nvm : Nvm
  retained : Retained
  faults : FaultBook
  swReport : List Byte
  ktReport : List Byte
  healthA : List Byte
  healthB : List Byte
  provingA : List Byte
  provingB : List Byte
  finalA : List Byte
  finalB : List Byte
  absentDies : BitVec 3
  configured : BitVec 3
  cfgLa : List (List Byte)
  cfgLb : List (List Byte)
  cfgRef : List (List Byte)
  resetDue : Option Nat
  fullReset : Option (Fin 4 × Nat)
  gpio : List Byte
  deriving DecidableEq, Repr

/-! ### The always-on island (chapter 11) -/

/-- Why and how far the logic side is held in reset (R274 to R287). -/
structure ResetState where
  active : Bool
  level : Nat
  source : Byte
  at_ : Nat
  holdRst : Bool
  holdThermal : Bool
  pendingClocks : Bool
  deriving DecidableEq, Repr

/-- The reset controller, the fuse shadow and the backup registers. -/
structure AlwaysOn where
  reset : ResetState
  fuses : List Byte
  fuseOk : Bool
  fuseBadRaised : Bool
  bkp0 : Word
  bkp1 : Word
  bkp2 : Word
  bkp3 : Word
  bkp4 : Word
  bkp5 : Word
  bkp6 : Word
  bkp7 : Word
  thermalSeen : Bool
  deriving DecidableEq, Repr

/-- Reasons a step stops the machine. -/
inductive Fault
  /-- Raised by FIRMWARE_SELECT when the bank that would run carries a release other than 4.1: R2 and R379 say the
  manual then does not decide the node's behaviour. Safe: nothing is claimed of such a node. -/
  | outsideManual
  deriving DecidableEq, Repr

/-- Reasons a step has no meaning. -/
inductive Refusal
  /-- Answered by `exec` for a row whose meaning has not been written. Safe: nothing is claimed of that row. -/
  | notModelled (mnemonic : String)
  deriving DecidableEq, Repr

/-- The sixteen framed-link ends, by link and end. -/
structure LinkEnds where
  cdLa1 : LinkEnd
  cdLa2 : LinkEnd
  cdLb1 : LinkEnd
  cdLb2 : LinkEnd
  cdRef1 : LinkEnd
  cdRef2 : LinkEnd
  ldLa1 : LinkEnd
  ldLa2 : LinkEnd
  ldLb1 : LinkEnd
  ldLb2 : LinkEnd
  refLa1 : LinkEnd
  refLa2 : LinkEnd
  refLb1 : LinkEnd
  refLb2 : LinkEnd
  mirror1 : LinkEnd
  mirror2 : LinkEnd
  deriving DecidableEq, Repr

/-- The error books of the eight framed links (R395). -/
structure LinkErrs where
  cdLa : LinkErrors
  cdLb : LinkErrors
  cdRef : LinkErrors
  ldLa : LinkErrors
  ldLb : LinkErrors
  refLa : LinkErrors
  refLb : LinkErrors
  mirror : LinkErrors
  deriving DecidableEq, Repr

/-- The six level links. -/
structure LevelLinks where
  grantA : LevelLink
  grantB : LevelLink
  driveA : LevelLink
  driveB : LevelLink
  killA : LevelLink
  killB : LevelLink
  deriving DecidableEq, Repr

/-- The state of the node. `pending` is the queue of commands that wait, first in, first out; `now`, `freeCount` and
`wire` are the model's own: elapsed time, the number of free values read, and everything sent, newest first. -/
structure State where
  pending : List Instr
  now : Nat
  freeCount : Nat
  wire : List Emission
  ao : AlwaysOn
  cd : ControlDie
  ld : LineDie
  la : LampDie
  lb : LampDie
  ref : Ref
  ends : LinkEnds
  errs : LinkErrs
  level : LevelLinks
  crossings : List (Crossing × Crossed)
  fences : List Block
  deriving DecidableEq, Repr

/-! ### The machine right after reset

At power-on reset of the logic side (source 0x0, level 0) with every supply present: the logic side is held in reset, the
fuse array is not yet sensed, NVM is erased, and each lamp die and REF stand at the release of their own reset (log
entries 5 to 9 name the values the manual does not give). -/

/-- The default slots of Table 6.5; slots 7 to 15 hold the contents of slot 0 (R162). -/
def defaultSlots : Vector Slot 16 :=
  let f : Slot := ⟨1, [0x4001, 0, 0, 0, 0, 0, 0, 0]⟩
  ⟨#[f, ⟨2, [0x4960, 0x15E0, 0, 0, 0, 0, 0, 0]⟩, ⟨2, [0x4640, 0x0960, 0, 0, 0, 0, 0, 0]⟩,
     ⟨3, [0x4FA0, 0x2710, 0x2710, 0, 0, 0, 0, 0]⟩, ⟨5, [0x7E80, 0x3E80, 0x3E80, 0x3E80, 0x3E80, 0, 0, 0]⟩,
     ⟨2, [0x5F40, 0x1F40, 0, 0, 0, 0, 0, 0]⟩, ⟨3, [0x6EE0, 0x6EE0, 0x1F40, 0, 0, 0, 0, 0]⟩,
     f, f, f, f, f, f, f, f, f], rfl⟩

/-- The defaults of Table 9.2. -/
def StorePolicy.standard : StorePolicy := ⟨10, 10, 30, 5, false, 20, 20, List.replicate 12 0⟩

/-- An entry of all 0: MODE UNUSED. -/
def entryUnused : MapEntry :=
  { mode := 0, enable := false, endAft := false, role := 0, slot := 0, burstEn := false, dimEn := false, doorSrc := 0,
    setpoint := 0, setpointLow := 0, pilotDepth := 0, signature := 0, offset := 0, fswDiv := 0, deadTime := 0 }

/-- A framed-link end: running or stopped, lost until it is restored (R50). -/
def LinkEnd.fresh (running : Bool) (now : Nat) : LinkEnd :=
  { running := running, lost := true, hbRun := 0, hbSeen := false, upSinceStart := false, startChecked := false,
    lastValidAt := now, releasedAt := now, lostAt := now, cycle := 0, txSeq := 0, rxerr := 0, peerState := 0,
    peerRxerr := 0, missed := 0, opened := [], served := [], alarmSeqSeen := none, raised := false,
    txAt := 4 * now, txPositive := false, tx := [], insertEnd := 0 }

/-- A level link as its receiver finds it before the first valid word. -/
def LevelLink.fresh (sent : Option Bool) : LevelLink := ⟨sent, false, true, 0, false, none, 0⟩

def LinkErrors.fresh : LinkErrors := ⟨[], 0, false, false⟩

def Channel.fresh : Channel :=
  { proof := .offDuty, kind := .none, step := 0, target := 0, setpoint := 0, inBurst := false,
    curBlankUntil := 0, lightBlankUntil := 0, cutNow := false, cuts := 0, latched := false, lowRun := 0, okRun := 0,
    curProven := false, lightProven := false, litRun := 0, litRaised := false, win1 := none, win2 := none, own := none,
    cross := none, cal := [], calFailedAt := none, viewProven := false,
    viewDark := false, viewDarkAt := 0, viewDiffer := 0, viewAgree := 0, ratios := [], edgeAt := 0, wheel := false }

def LampFuse.blank : LampFuse := ⟨0, false, false, 0, 0, 0, 0, 0⟩

def Store.fresh : Store :=
  { phase := .fed, feedOk := true, ready := false, feedDv := 0, storeMv := 0, railUa := 0, dischargeUa := 0,
    underSince := none, charging := true,
    bleeding := false, cMeas := none, cFresh := false, esr := none, cInitial := none, esrInitial := none, k := 1280,
    kWindow := [], eAvail := 0, eCommit := 0, eRes := 0, policy := .standard,
    nextPolicy := none, phaseAt := 0, lastAt := 0, spentAt := none, spentCause := 0, writing := none, finalA := none,
    finalB := none, dips := 0 }

def CdWatch.fresh : CdWatch :=
  { lost := true, holding := false, holdUntil := 0, fallbackDue := false, fallback := true, frostDue := false,
    frost := false, frostLeft := false, leaveFrom := 0 }

def LampDie.fresh : LampDie :=
  { powered := true, bootDone := false, failed := false, clockBad := false, supplyBad := false, settling := false,
    gapBlank := false, healthSent := none, healthLast := [], healthAt := 0, shutdown := false, killed := false, gateSupply := true,
    grant := false, gate := false, orphan := false,
    clock := { boundaryTT := 0, boundaryAt := 0, source := .freeRunning, halfTrip := 0, slewNs := 0, stepTo := none,
               steppedCycle := false },
    identity := none, map := Vector.replicate 12 none, fuses := Vector.replicate 12 .blank, fuseBad := 0, holdUnits := 0,
    holdBad := false, slots := defaultSlots, held := [], heldCount := 0, reqLit := 0, epoch := 0, scene := 0,
    burst := none, chans := Vector.replicate 12 .fresh, alarmSeq := 0, unacked := none, insertedAt := 0, invalidWords := 0,
    plClosed := false, cd := .fresh,
    mirror := ⟨none, none, 0, 0, false⟩, store := .fresh, reports := [], conds := [], sampleAt := 0, marginLow := 0, busyCount := 0,
    gapViewProven := 0, provingSent := none, provingAt := 0 }

/-- Each input is INDETERMINATE until its first filtered state (R121). -/
def InputFilter.fresh : InputFilter := ⟨2, .out, 0, 0⟩

def RefView.fresh : RefView := ⟨false, 0, 0, false, List.replicate 12 0, List.replicate 12 0, none⟩

/-- REF at the release of its reset: no grant, PREF LA, DARK_SWITCH on, both masks clear (R214, R215, R221, R222). -/
def Ref.fresh (now : Nat) : Ref :=
  { grant := .boot, bootAt := now, stepAt := now, cycle := 0, prefB := false, darkSwitch := true, pathBadA := 0,
    pathBadB := 0, killA := false, killB := false, killTest := none, killTestAt := 0,
    killTestSeen := false, lastResort := none, resortA := false, resortB := false, switchovers := 0, lastCause := 0, lastSwitchCycle := 0, viewA := .fresh,
    viewB := .fresh, invalidWords := 0, cab := .fresh, cplFore := .fresh, cplAft := .fresh, aux1 := .fresh,
    aux2 := .fresh, vcount := 0, ageForeAt := now, ageAftAt := now, vinput := [], vinputAt := now, noDriver := false,
    lostA := false, lostB := false, reports := [] }

def Lane.fresh (nrzLimit : Bool) : Lane :=
  { st := .off, nrz := nrzLimit, nrzLimit := nrzLimit, los := true, detector := false, present := false, presentAt := 0,
    enteredAt := 0, lockRun := 0, missRun := 0, frameLock := false, inverted := false, ctlSeen := 0, ctlRun := 0,
    staSeen := 0, staRun := 0, farControl := 0, farStatus := 0, miswired := false, taps := ⟨0, 4, 4⟩, answer := 0,
    request := 0, rxReady := false, farRxReady := false, trialOk := false, farConf := false, farOk := false,
    failures := 0, failRaised := false, blinkAt := 0, backAt := 0, absentNs := 0, absentAt := 0, begins := [],
    params := ⟨9, [0, 0, 0, 256, 0, 0, 0, 0, 0, 0, 0, 0], 0, [0, 0, 0], 0⟩, storedTaps := ⟨0, 4, 4⟩, paramsAt := 0, prbs := 0x1FFF,
    alignRun := 0, trialBad := 0, trialCorrected := 0, markers := 0, badCodewords := 0, aligned := false, beaconSeen := false,
    returned := false }

def PortCounters.zero : PortCounters := ⟨0, 0, 0, 0, 0, 0, 0, 0, 0, 0, 0, 0, 0, 0⟩

def TxLine.fresh (now : Nat) : TxLine :=
  { scr := 0, at_ := now * 225, begun := false, cur := [], ins := false, fptr := none, placed := [], rest := [], frees := none }

def RxLine.fresh : RxLine := { dscr := 0, bytes := [], skip := true, inCut := none, arrived := [] }

def PortState.fresh (now : Nat) : PortState :=
  { errcnt := 0, errRose := false, wholeUp := false, cleanRun := 0, requalRun := 0, warned := false, fenced := false,
    fencedAt := 0, cycleAt := now, far := ⟨false, false, 0⟩, counters := .zero, alarmSlot := none, alarmCopies := 0,
    control := [], transitMgmt := [], transitCarried := [], localMgmt := [], localCarried := [], cutThrough := none,
    mgmt := ⟨0, 0, 0, 0⟩, carried := ⟨0, 0, 0, 0⟩, creditSeen := false,
    seqTime := 0, seqCredit := 0, seqFront := 0, seqCommit := 0, lastSteps := none, lastTimeEpoch := 0,
    laneDelay := 0, echoOut := none, echoOwed := none, echoDue := false, echoAt := now, cycSym := 0, cycCorr := 0,
    creditSent := ⟨0, 0, 0, 0⟩, creditAt := now, creditCw := none, tx := .fresh now, rx := .fresh }

/-- An end of an unnumbered node: OPEN stands for the commit it does not hold (R125, R144). -/
def EndState.fresh (now : Nat) : EndState :=
  { verdict := .holding, committed := .open_, standing := .free, remembered := none, cut := false, row := 9,
    rowAt := now, rowExpired := false, fencedLong := false, fencedAt := none, disagreeRaised := false, lost := none }

def Engine.fresh (now : Nat) (options : Byte) : Engine :=
  { fore := .fresh now, aft := .fresh now, round := .idle, heldRound := none, roundAt := now, own := false,
    lastLaunchAt := none, lastLaunchEpoch := 0, launchDeferred := false, waitingFront := none, phase0 := none,
    switch := none, commit := none, committedCab := false, callInterval := 10000000, lastCallAt := none,
    numberedSinceCall := false, cabRaisedFore := false, cabRaisedAft := false, beacons := [], holders := [], commitAt := now, options := options,
    inputs := [], inputsAt := now, inputsStale := true, frontsRejected := 0, ghostSwitch := none,
    notNumberedRaised := false }

/-- Train time restarts at 0 (R113, R274). -/
def TrainClock.fresh (now : Nat) : TrainClock :=
  { base := 0, baseAt := now, rate := 0, heard := none, followed := false, slewNs := 0, stepBy := none, steppedAt := none, raisedPort := none,
    holdover := false, sourcePort := none, sourceAt := now, steps := 0, lastSendAt := now }

def LocalPort.fresh : LocalPort := ⟨⟨0, 0, 0, 0, 0, 0, 0⟩, [], 0⟩

/-- The line die after a reset at level 0 or 1: lanes OFF, unnumbered, train time at 0 (Table 11.1). -/
def LineDie.fresh (now : Nat) (options lanes : Byte) (localCfg : List Byte) (reports : List DieReport) : LineDie :=
  { inReset := true, power := .off, powerAt := now, request := none, requestFrom := none, requestAt := 0, ownTarget := none, ownAt := 0,
    wakeTarget := none, wokenByGust := false, gustDue := none, gustBusy := false, gustAt := now, probingFore := false,
    probingAft := false, probeAtFore := none,
    probeAtAft := none, numberedAt := now, wakeArmed := false, hlpFore := false, hlpAft := false, sleepAsked := none,
    sleepAnswered := false, powerAckAt := now, drainStartAt := now,
    laneFN := .fresh (lanes.getLsbD 7), laneFS := .fresh (lanes.getLsbD 6), laneAN := .fresh (lanes.getLsbD 5),
    laneAS := .fresh (lanes.getLsbD 4), portFN := .fresh now, portFS := .fresh now, portAN := .fresh now,
    portAS := .fresh now, flood := [], engine := .fresh now options, clock := .fresh now,
    timeLa := ⟨false, none, none, now, now⟩, timeLb := ⟨false, none, none, now, now⟩, seqAlarm := 0, seqBeacon := 0, seqLampSync := 0,
    seqCommitFlood := 0, seqMgmt := 0, seqCarriedA := 0, seqCarriedF := 0, ownRecord := none,
    alarmAt := now, alarms := [], alarmGen := 0, beaconLast := none, beaconAt := now, scene := 0, sceneHost := none,
    sceneSent := 0, sceneAt := now, mgmtQueue := [], mgmtqDrop := 0, mac := [], macRefused := 0, eth := .fresh,
    twin := .fresh, localCfg := localCfg,
    eye := ⟨0, .foreNear, false, 0, 0, [], 0⟩, reports := reports }

def Tag.free : Tag := ⟨.free, 0, ⟨0, 0, 0, 0, 0, [], 0, 0⟩, false, 0, 0, [], []⟩

def MbxSlot.free : MbxSlot := ⟨.free, none, ⟨[]⟩, [], 0, 0, false, false⟩

/-- The defaults of every option record (R299, Table 13.6); GPIO of a blank fuse image is Hi-Z. -/
def Shadow.standard : Shadow :=
  { inaug := 0, lanes := 0, localPort := [0x8F, 0], permit := 0, power := 0, gpio := List.replicate 8 0,
    map := Vector.replicate 12 entryUnused, slots := defaultSlots, store := .standard, ref := 0x40 }

def LedgerBook.blank : LedgerBook := ⟨0, 0, 0, 0, 0, [], [], []⟩

def Ledger.blank : Ledger := ⟨.blank, 0, none, none⟩

/-- Erased NVM: every byte 0xFF, an empty log, a blank ledger. -/
def Nvm.blank : Nvm :=
  { inReset := false, option := ⟨[]⟩, bankA := ⟨[]⟩, bankB := ⟨[]⟩, counter := Vector.replicate 64 0xFFFFFFFF,
    bootA := none, bootB := none, log := [], topSeq := 0, ledger := .blank, writes := List.replicate 9 0, retention := List.replicate 9 0,
    lastArea := none }

def FaultBook.empty : FaultBook := ⟨[], [], [], [], [], 0⟩

/-- The host-port framer after its reset: PREV is REJECTED, HP_LAST holds NOT_EXECUTED (Table 12.4). -/
def HostPort.fresh (now : Nat) : HostPort :=
  { prev := 2, lastCmd := 0, lastRcode := 0x0A, lastApplied := false, heartbeatAt := now,
    absent := false, events := 0, mask := 0, pendingReset := true, edges := 0, triedAt := now }

def Retained.blank : Retained := ⟨0, false, 0, ⟨[]⟩⟩

def ControlDie.fresh : ControlDie :=
  { running := false, frost := false, milestone := 0, stone2At := 0, stone6At := 0, startAt := 0, runningBank := none,
    lastVerified := none, optState := 0, lastWord := false, goingDark := false, port := .fresh 0,
    tags := Vector.replicate 8 .free, bridgeTimeouts := 0, bridgeExpired := 0, bridgeLate := 0, bridgeBusy := 0,
    bridgeInReset := false, slots := Vector.replicate 4 .free, order := [], serving := none, mbxExpiries := 0,
    responding := none, shadow := .standard, hostOn := 0, reqLit := 0, staging := none,
    fw := ⟨.idle, false, 0, none, 0, none⟩, nvm := .blank, retained := .blank, faults := .empty, swReport := [],
    ktReport := [], healthA := [], healthB := [], provingA := [], provingB := [], finalA := [], finalB := [],
    absentDies := 0, configured := 0, cfgLa := [], cfgLb := [], cfgRef := [], resetDue := none, fullReset := none,
    gpio := List.replicate 8 0 }

/-- The logic side is held in reset by POR, at level 0 (Table 11.2). -/
def AlwaysOn.fresh : AlwaysOn :=
  { reset := ⟨true, 0, 0, 0, false, false, false⟩, fuses := [], fuseOk := true, fuseBadRaised := false, bkp0 := 0,
    bkp1 := 0, bkp2 := 0, bkp3 := 0, bkp4 := 0, bkp5 := 0, bkp6 := 0, bkp7 := 0, thermalSeen := false }

/-- The machine right after reset; its queue is empty. -/
def State.reset : State :=
  { pending := [], now := 0, freeCount := 0, wire := [], ao := .fresh, cd := .fresh,
    ld := .fresh 0 0 0 [0x8F, 0] [], la := .fresh, lb := .fresh, ref := .fresh 0,
    ends :=
      { cdLa1 := .fresh false 0, cdLa2 := .fresh true 0, cdLb1 := .fresh false 0, cdLb2 := .fresh true 0,
        cdRef1 := .fresh false 0, cdRef2 := .fresh true 0, ldLa1 := .fresh false 0, ldLa2 := .fresh true 0,
        ldLb1 := .fresh false 0, ldLb2 := .fresh true 0, refLa1 := .fresh true 0, refLa2 := .fresh true 0,
        refLb1 := .fresh true 0, refLb2 := .fresh true 0, mirror1 := .fresh true 0, mirror2 := .fresh true 0 },
    errs := ⟨.fresh, .fresh, .fresh, .fresh, .fresh, .fresh, .fresh, .fresh⟩,
    level := ⟨.fresh none, .fresh none, .fresh (some false), .fresh (some false), .fresh none, .fresh none⟩,
    crossings := [], fences := [] }

end Sys2Proof.Machine
end

