-- ==== Sys2Proof/Machine/Gust.lean ====
section
/-! DEFINITION. The Gust: the segments a burst sends (Table 10.3, R57, R268) and the detector that recognises one (R269). A segment is
its level, on or off, and its length in nanoseconds. -/

namespace Sys2Proof.Machine

abbrev Segment := Bool × Nat

/-- S1 to S4 of a period of 500 µs. -/
def gustPeriod : GustCode → List Segment
  | .active => [(true, 250000), (false, 62500), (true, 62500), (false, 125000)]
  | .lull => [(true, 250000), (false, 62500), (true, 125000), (false, 62500)]

/-- A burst of exactly 16 periods. -/
def gustBurst (c : GustCode) : List Segment := (List.replicate 16 (gustPeriod c)).flatten

def burstNs (l : List Segment) : Nat := l.foldl (fun n g => n + g.2) 0

/-- In an on segment: a clock pattern of 8 UI between the outer levels, with the transmit filter at c(0) = 1.000 (R57). -/
def gustClock : List Int := [3, 3, 3, 3, -3, -3, -3, -3]

def gustTaps : Taps := ⟨0, 0, 0⟩

def gustEmission (p : Port) (c : GustCode) : Emission := .gust p c gustTaps gustClock (gustBurst c)

/-! ### The wake detector (R269) -/

/-- A measured length within ±12% of a nominal one. -/
def near12 (nominal len : Nat) : Bool := nominal * 88 ≤ len * 100 && len * 100 ≤ nominal * 112

def Segment.fits (g nominal : Segment) : Bool := g.1 = nominal.1 && near12 nominal.2 g.2

/-- The segments matched so far, the last four periods of them counted, and the code of the periods once an S3 has shown it. -/
structure GustRun where
  matched : Nat
  code : Option GustCode
  deriving DecidableEq, Repr

def gustStart : GustRun := ⟨0, none⟩

/-- The codes the next segment may still show. -/
def GustRun.codes (r : GustRun) : List GustCode := match r.code with | some c => [c] | none => [.active, .lull]

def Segment.isS1 (g : Segment) : Bool := Segment.fits g (true, 250000)

/-- One segment: it matches its place in a period of one of the codes, or the count restarts, at an S1 where it is one. -/
def GustRun.step (r : GustRun) (g : Segment) : GustRun :=
  let place := r.matched % 4
  match r.codes.find? fun c => Segment.fits g ((gustPeriod c).getD place (false, 0)) with
  | some c => ⟨(if r.matched = 16 then 12 else r.matched) + 1, if place = 2 then some c else r.code⟩
  | none => if Segment.isS1 g then ⟨1, none⟩ else gustStart

/-- The code that a run of segments shows, recognised at the edge that ends the last: four whole periods of one code. -/
def gustOf (l : List Segment) : Option GustCode :=
  let r := l.foldl GustRun.step gustStart
  if r.matched = 16 then r.code else none

end Sys2Proof.Machine
end

