-- ==== Sys2Proof/Config.lean ====
section
/-! DEFINITION. What the manual leaves open. Every constant here has no body, so no statement can rest on a value
of it (notes/assumptions 4). Free values are applied to `State.freeCount`, which the step that reads one advances. -/

namespace Sys2Proof.Config

/-- The n-th fresh 32-bit value the manual leaves open: a reserved field on reading (R306), ATTN_ACK on reading
(Table 12.10), the rest of a mailbox response (Table 13.1), a value the reset of a block leaves undefined. -/
opaque freeWord : Nat → Word

/-- The n-th fresh choice between two outcomes that the manual both allows (the guard bands of Table 16.10). -/
opaque freeBool : Nat → Bool

/-- The n-th fresh count that the manual bounds but does not fix (points measured before an eye scan aborts, R81). -/
opaque freeNat : Nat → Nat

/-- The sharpness of the receiver's own adaptation: the tap it next asks the far transmitter to move (R61, R65),
as TAP and REQ of Table 3.7, for the n-th decision. The manual gives the handshake, not the adaptation. -/
opaque tapRequest : Nat → BitVec 5

/-- SHA-256 of a byte string (R379, R380; the manual cites FIPS 186-4 and states no value). -/
opaque sha256 : List Byte → List Byte

/-- ECDSA P-256 verification (R380): public key, digest, r, s. -/
opaque ecdsaVerify : List Byte → List Byte → List Byte → List Byte → Bool

/-- Where in its band of 40 ns ± 25 ns a gate edge lies after its boundary (R154); the band itself is kept by its user. -/
opaque edgeNs : Nat → Nat

/-- Where the switching grid of channel 0 lies, for a FSW_DIV, in eighths of a nanosecond (R149 gives the other grids from it). -/
opaque gridOrigin : Nat → Nat

/-- Which of the abilities it advertises the local port comes to run, by Clause 73, at the n-th restart since the port was turned on at
a moment: the far end, which the manual does not give, has a say in it (R109). -/
opaque anChoice : Nat → Nat → Nat

/-- The version number of the recovery ROM (Table 13.5; the manual gives no number). -/
opaque romVersion : Half


end Sys2Proof.Config
end

