-- ==== Sys2Proof/Machine/Names.lean ====
section
/-! DEFINITION. How the parts of the node relate, and their codes: dies, links, ports and ends. -/

namespace Sys2Proof

/-! ### Names of parts and their codes -/

def Die.other : Die → Die | .la => .lb | .lb => .la

def Die.hv : Die → HvDie | .la => .la | .lb => .lb

/-- 0x00 for LA and 0x01 for LB (Table 8.2, R368). -/
def Die.code : Die → Byte | .la => 0 | .lb => 1

/-- SUBJECT and TARGET code of a lamp die (Table 15.2). -/
def Die.subject : Die → Byte | .la => 0x40 | .lb => 0x41

def HvDie.subject : HvDie → Byte | .la => 0x40 | .lb => 0x41 | .ref => 0x42

def LEnd.other : LEnd → LEnd | .first => .second | .second => .first

/-- The CD link, the time link and the REF link of a lamp die, and which end of the mirror link it is. -/
def Die.cdLink : Die → FLink | .la => .cdLa | .lb => .cdLb

def Die.timeLink : Die → FLink | .la => .ldLa | .lb => .ldLb

def Die.refLink : Die → FLink | .la => .refLa | .lb => .refLb

def Die.mirrorEnd : Die → LEnd | .la => .first | .lb => .second

def HvDie.cdLink : HvDie → FLink | .la => .cdLa | .lb => .cdLb | .ref => .cdRef

/-- SUBJECT of a framed link (Table 15.2). -/
def FLink.subject : FLink → Byte
  | .cdLa => 0x61 | .cdLb => 0x62 | .cdRef => 0x63 | .ldLa => 0x64 | .ldLb => 0x65
  | .refLa => 0x66 | .refLb => 0x67 | .mirror => 0x68

/-- The high-voltage die at the far end of a CD link; LA stands in for a link that is none (never used so). -/
def FLink.hv : FLink → HvDie | .cdLb => .lb | .cdRef => .ref | _ => .la

def Die.grantLink : Die → LLink | .la => .grantA | .lb => .grantB

def Die.driveLink : Die → LLink | .la => .driveA | .lb => .driveB

def Die.killLink : Die → LLink | .la => .killA | .lb => .killB

def LLink.subject : LLink → Byte
  | .grantA => 0x70 | .grantB => 0x71 | .driveA => 0x72 | .driveB => 0x73 | .killA => 0x74 | .killB => 0x75

def Port.code : Port → Byte | .foreNear => 0 | .foreSkip => 1 | .aftNear => 2 | .aftSkip => 3

def Port.all : List Port := [.foreNear, .foreSkip, .aftNear, .aftSkip]

def Port.vend : Port → VEnd | .foreNear => .fore | .foreSkip => .fore | .aftNear => .aft | .aftSkip => .aft

def Port.isSkip : Port → Bool | .foreNear => false | .foreSkip => true | .aftNear => false | .aftSkip => true

def VEnd.other : VEnd → VEnd | .fore => .aft | .aft => .fore

def VEnd.near : VEnd → Port | .fore => .foreNear | .aft => .aftNear

def VEnd.skip : VEnd → Port | .fore => .foreSkip | .aft => .aftSkip

def VEnd.subject : VEnd → Byte | .fore => 8 | .aft => 9

def VEnd.ports (e : VEnd) : List Port := [e.near, e.skip]

end Sys2Proof
end

