-- ==== Sys2Proof/Machine/Bits.lean ====
section
/-! DEFINITION. Byte order (R10), the two check codes of the manual (R43, R86), masks, saturating counts, serial
comparison of numbers that wrap (R140), and the canonical byte memory. -/

namespace Sys2Proof.Machine

/-! ### Bytes, most significant first (R10) -/

def be16 (h : Half) : List Byte := [h.extractLsb' 8 8, h.extractLsb' 0 8]

def be32 (w : Word) : List Byte :=
  [w.extractLsb' 24 8, w.extractLsb' 16 8, w.extractLsb' 8 8, w.extractLsb' 0 8]

def be48 (w : NodeId) : List Byte :=
  [w.extractLsb' 40 8, w.extractLsb' 32 8, w.extractLsb' 24 8, w.extractLsb' 16 8, w.extractLsb' 8 8, w.extractLsb' 0 8]

def be64 (w : BitVec 64) : List Byte := be32 (w.extractLsb' 32 32) ++ be32 (w.extractLsb' 0 32)

/-- Byte n of a payload; 0 beyond its end. -/
def byteAt (l : List Byte) (n : Nat) : Byte := l.getD n 0

def half (l : List Byte) (n : Nat) : Half := byteAt l n ++ byteAt l (n + 1)

def word (l : List Byte) (n : Nat) : Word := half l n ++ half l (n + 2)

def id48 (l : List Byte) (n : Nat) : NodeId := word l n ++ half l (n + 4)

def long (l : List Byte) (n : Nat) : BitVec 64 := word l n ++ word l (n + 4)

/-- A bit of a byte as a truth value. -/
def bitOf (b : Byte) (n : Nat) : Bool := b.getLsbD n

/-- A truth value as a bit at a place of a byte. -/
def flag (b : Bool) (n : Nat) : Byte := if b then (1 : Byte) <<< n else 0

def flagW (b : Bool) (n : Nat) : Word := if b then (1 : Word) <<< n else 0

def ones (n : Nat) : List Byte := List.replicate n 0xFF

def zeros (n : Nat) : List Byte := List.replicate n 0

/-- n bytes of a list from an offset, 0 beyond its end. -/
def slice (l : List Byte) (off n : Nat) : List Byte := (List.range n).map fun i => byteAt l (off + i)

/-- A list padded with 0 or cut to n bytes. -/
def fit (l : List Byte) (n : Nat) : List Byte := slice l 0 n

/-- Big-endian value of up to n bytes as a number. -/
def natOf (l : List Byte) : Nat := l.foldl (fun a b => a * 256 + b.toNat) 0

/-! ### Check codes -/

def crc16Bit (c : Half) : Half := if c.getLsbD 15 then (c <<< 1) ^^^ 0x1021 else c <<< 1

def crc16Byte (c : Half) (b : Byte) : Half :=
  let x := c ^^^ (b.zeroExtend 16 <<< 8)
  crc16Bit (crc16Bit (crc16Bit (crc16Bit (crc16Bit (crc16Bit (crc16Bit (crc16Bit x)))))))

/-- CRC-16 of R86 and R312: polynomial 0x1021, initial value 0xFFFF, no reflection, no final XOR. -/
def crc16 (l : List Byte) : Half := l.foldl crc16Byte 0xFFFF

def crc32Bit (c : Word) : Word := if c.getLsbD 0 then (c >>> 1) ^^^ 0x82F63B78 else c >>> 1

def crc32Byte (c : Word) (b : Byte) : Word :=
  let x := c ^^^ b.zeroExtend 32
  crc32Bit (crc32Bit (crc32Bit (crc32Bit (crc32Bit (crc32Bit (crc32Bit (crc32Bit x)))))))

/-- CRC-32C of R43: polynomial 0x1EDC_6F41 reflected, initial value and final XOR 0xFFFF_FFFF. -/
def crc32c (l : List Byte) : Word := (l.foldl crc32Byte 0xFFFFFFFF) ^^^ 0xFFFFFFFF

/-- CRC-4 of a level-link word's STATE (R49): polynomial x^4 + x + 1, initial value 0. -/
def crc4 (st : BitVec 4) : BitVec 4 :=
  let bit (c : BitVec 4) (b : Bool) : BitVec 4 :=
    let top := xor (c.getLsbD 3) b
    let sh := c <<< 1
    if top then sh ^^^ 0x3 else sh
  bit (bit (bit (bit 0 (st.getLsbD 3)) (st.getLsbD 2)) (st.getLsbD 1)) (st.getLsbD 0)

/-- The word a level link repeats for a state (R49, Table 2.6). -/
def levelWord (on : Bool) : BitVec 12 :=
  let st : BitVec 4 := if on then 0b1001 else 0b0110
  (0b1100 : BitVec 4) ++ st ++ crc4 st

/-! ### Counts and serial numbers -/

/-- A 32-bit saturating count (R104, R371). -/
def satAdd (w : Word) (n : Nat) : Word := if w.toNat + n < 4294967295 then BitVec.ofNat 32 (w.toNat + n) else 0xFFFFFFFF

def satByte (b : Byte) : Byte := if b = 0xFF then b else b + 1

def satHalf (h : Half) : Half := if h = 0xFFFF then h else h + 1

/-- Epoch a is newer than epoch b (R140); ALARM_SEQ and COUNT are compared in the same way (R201, R251). -/
def newer16 (a b : Half) : Bool := 1 ≤ (a - b).toNat && (a - b).toNat ≤ 32767

/-- Where neither of two epochs is newer the first one named is taken; 0 is never committed (R140). -/
def newerOf (a b : Half) : Half := if newer16 b a then b else a

def epochAfter (e : Half) : Half := if e + 1 = 0 then 1 else e + 1

/-- The difference a − b of two 32-bit cycle numbers lies in 1 to 2^31 − 1 (R169, R170, R224). -/
def ahead32 (a b : Word) : Bool := 1 ≤ (a - b).toNat && (a - b).toNat < 2147483648

/-- No boundary whose low 32 bits are 0 is ever named; the following one is (R175). -/
def skipZero (w : Word) : Word := if w = 0 then 1 else w

/-! ### Channel masks -/

def chMaskOf (f : Chan → Bool) : ChMask :=
  (List.finRange 12).foldl (fun m c => if f c then m ||| ((1 : ChMask) <<< c.val) else m) 0

def inMask (m : ChMask) (c : Chan) : Bool := m.getLsbD c.val

def maskHalf (m : ChMask) : Half := m.zeroExtend 16

/-- A twelve-fold register built channel by channel. -/
def ch12 {α : Type} (f : Chan → α) : Vector α 12 :=
  ⟨#[f 0, f 1, f 2, f 3, f 4, f 5, f 6, f 7, f 8, f 9, f 10, f 11], rfl⟩

def ghostBit (p : Position) : GhostSet := (1 : GhostSet) <<< p.toNat

def isGhost (g : GhostSet) (p : Position) : Bool := g.getLsbD p.toNat

/-! ### The byte memory -/

def cellsGet (dflt : Byte) : List Host.Cell → Nat → Byte
  | [], _ => dflt
  | (k, b) :: r, a => if k = a then b else cellsGet dflt r a

def cellsSet (dflt : Byte) : List Host.Cell → Nat → Byte → List Host.Cell
  | [], a, b => if b = dflt then [] else [(a, b)]
  | (k, c) :: r, a, b =>
    if a < k then (if b = dflt then (k, c) :: r else (a, b) :: (k, c) :: r)
    else if a = k then (if b = dflt then r else (a, b) :: r)
    else (k, c) :: cellsSet dflt r a b

/-- The addresses rise strictly from a bound, and no byte listed equals the default. -/
def cellsWf (dflt : Byte) : Nat → List Host.Cell → Bool
  | _, [] => true
  | lo, (k, b) :: r => decide (lo ≤ k) && decide (b ≠ dflt) && cellsWf dflt (k + 1) r

/-- The canonical form of a memory whose unlisted bytes read `dflt`. -/
def Mem.wf (dflt : Byte) (m : Mem) : Bool := cellsWf dflt 0 m.cells

def Mem.blank : Mem := ⟨[]⟩

def Mem.get (dflt : Byte) (m : Mem) (a : Nat) : Byte := cellsGet dflt m.cells a

def Mem.put (dflt : Byte) (m : Mem) (a : Nat) (b : Byte) : Mem := ⟨cellsSet dflt m.cells a b⟩

/-- Bytes a to a + n − 1. -/
def Mem.bytes (dflt : Byte) (m : Mem) (a n : Nat) : List Byte := (List.range n).map fun i => m.get dflt (a + i)

/-- Writes a run of bytes from an address. -/
def Mem.fill (dflt : Byte) (m : Mem) (a : Nat) : List Byte → Mem
  | [] => m
  | b :: r => (m.put dflt a b).fill dflt (a + 1) r

end Sys2Proof.Machine
end

