-- ==== Sys2Proof/Machine/Operands.lean ====
section
/-! DEFINITION. The operand forms: records and payloads as bytes (R10), reading them back, and the checks a record
must pass. Reserved fields are written as 0 and not acted on (R306). -/

namespace Sys2Proof.Machine

/-! ### The lamp map (Table 6.3, R152, R177) -/

def entryBytes (e : MapEntry) : List Byte :=
  [e.mode ++ (if e.enable then 1#1 else 0#1) ++ (if e.endAft then 1#1 else 0#1) ++ e.role,
   e.slot ++ (if e.burstEn then 1#1 else 0#1) ++ (if e.dimEn then 1#1 else 0#1) ++ e.doorSrc]
  ++ be16 (e.setpoint.zeroExtend 16) ++ be16 (e.setpointLow.zeroExtend 16)
  ++ [e.pilotDepth.zeroExtend 8, e.signature.zeroExtend 8]
  ++ be16 (e.offset.zeroExtend 16) ++ be16 (e.fswDiv.zeroExtend 16) ++ [e.deadTime.zeroExtend 8, 0, 0, 0]

def entryOf (l : List Byte) : MapEntry :=
  { mode := (byteAt l 0).extractLsb' 6 2, enable := bitOf (byteAt l 0) 5, endAft := bitOf (byteAt l 0) 4,
    role := (byteAt l 0).extractLsb' 0 4, slot := (byteAt l 1).extractLsb' 4 4, burstEn := bitOf (byteAt l 1) 3,
    dimEn := bitOf (byteAt l 1) 2, doorSrc := (byteAt l 1).extractLsb' 0 2,
    setpoint := (half l 2).extractLsb' 0 12, setpointLow := (half l 4).extractLsb' 0 12,
    pilotDepth := (byteAt l 6).extractLsb' 0 6, signature := (byteAt l 7).extractLsb' 0 3,
    offset := (half l 8).extractLsb' 0 14, fswDiv := (half l 10).extractLsb' 0 9,
    deadTime := (byteAt l 12).extractLsb' 0 4 }

def entryLights (e : MapEntry) : Bool := e.enable ∧ (e.mode = 1 ∨ e.mode = 2)

/-- SETPOINT and SETPOINT_LOW: 205 to 4,095, and 0 too in an entry that cannot light (R152). -/
def setpointOk (light : Bool) (v : BitVec 12) : Bool := 205 ≤ v.toNat ∨ (!light ∧ v = 0)

/-- The checks of R177 on a map entry. -/
def entryOk (e : MapEntry) : Bool :=
  e.mode ≠ 3 ∧ e.role.toNat ≤ 7 ∧ e.doorSrc ≠ 3
    ∧ setpointOk (entryLights e) e.setpoint ∧ setpointOk (entryLights e) e.setpointLow
    ∧ ((4 ≤ e.pilotDepth.toNat ∧ e.pilotDepth.toNat ≤ 32) ∨ (!entryLights e ∧ e.pilotDepth = 0))
    ∧ (e.mode ≠ 1 ∨ (64 ≤ e.fswDiv.toNat ∧ e.fswDiv.toNat ≤ 256))

/-! ### Pattern slots (R161, R162) -/

def stepKind (w : Half) : BitVec 2 := w.extractLsb' 14 2

def stepDur (w : Half) : Nat := (w.extractLsb' 0 14).toNat

def stepOk (w : Half) : Bool := stepKind w ≠ 3 ∧ 1 ≤ stepDur w

/-- The checks of R161 on COUNT and the first COUNT step words. -/
def slotOk (count : Nat) (steps : List Half) : Bool :=
  1 ≤ count ∧ count ≤ 8 ∧ (steps.take count).all stepOk ∧ count ≤ steps.length

/-- A slot as it is stored: every word after the first COUNT is 0x0000. -/
def slotStored (count : Nat) (steps : List Half) : Slot :=
  { count := count, steps := (List.range 8).map fun i => if i < count then steps.getD i 0 else 0 }

/-- COUNT and the eight step words, 17 bytes. -/
def slotBytes (v : Slot) : List Byte :=
  BitVec.ofNat 8 v.count :: (List.range 8).flatMap fun i => be16 (v.steps.getD i 0)

def stepsOf (l : List Byte) (off : Nat) : List Half := (List.range 8).map fun i => half l (off + 2 * i)

def on (d : Nat) : Half := 0x4000 ||| BitVec.ofNat 16 d

def off (d : Nat) : Half := BitVec.ofNat 16 d

/-- Slot 0: one step, on at SETPOINT for 1 cycle. -/
def slotSteady : Slot := slotStored 1 [on 1]

/-! ### Map and slots of a die (R223, R284) -/

def LampFuse.mode (f : LampFuse) : BitVec 2 := if f.fmode = 3 then 0 else f.fmode

/-- SETPOINT of a fuse field: FSET × 16, with 0 to 12 read as 13. -/
def LampFuse.setpoint (f : LampFuse) : BitVec 12 :=
  BitVec.ofNat 12 ((if f.fset.toNat ≤ 12 then 13 else f.fset.toNat) * 16)

def LampFuse.fswDiv (f : LampFuse) : BitVec 9 := BitVec.ofNat 9 (64 + min f.fsw.toNat 192)

def LampFuse.depth (f : LampFuse) : BitVec 6 := BitVec.ofNat 6 (4 + 2 * min f.fpilot.toNat 14)

/-! ### The alarm record (Table 7.5) -/

def alarmBytes (r : AlarmRecord) : List Byte :=
  [r.kind ++ r.channel,
   (if r.dieB then 1#1 else 0#1) ++ (if r.endAft then 1#1 else 0#1) ++ (if r.late then 1#1 else 0#1)
     ++ (if r.noReq then 1#1 else 0#1) ++ r.role]
  ++ be16 r.seq ++ be16 r.epoch ++ be16 (maskHalf r.darkMask) ++ be64 r.tt

def alarmOf (l : List Byte) : AlarmRecord :=
  { kind := (byteAt l 0).extractLsb' 4 4, channel := (byteAt l 0).extractLsb' 0 4,
    dieB := bitOf (byteAt l 1) 7, endAft := bitOf (byteAt l 1) 6, late := bitOf (byteAt l 1) 5,
    noReq := bitOf (byteAt l 1) 4, role := (byteAt l 1).extractLsb' 0 4, seq := half l 2, epoch := half l 4,
    darkMask := (half l 6).extractLsb' 0 12, tt := long l 8 }

/-! ### The fault record (Table 15.1) -/

def faultBody (r : FaultRec) : List Byte :=
  be32 r.seq ++ be16 r.code ++ [r.event ++ r.sev ++ 0#4, r.subject] ++ be64 r.tt ++ be16 r.epoch
    ++ [r.position.zeroExtend 8, r.source] ++ be16 r.rep ++ fit r.data 6

def faultBytes (r : FaultRec) : List Byte := faultBody r ++ be32 (crc32c (faultBody r))

/-! ### The store policy block and the final record (Tables 9.2 and 9.6) -/

def policyBytes (p : StorePolicy) : List Byte :=
  be16 (BitVec.ofNat 16 p.rideMs) ++ be16 (BitVec.ofNat 16 p.lastLight)
    ++ [BitVec.ofNat 8 p.floorV, BitVec.ofNat 8 p.chgLimit, flag p.llLow 7, 0]
    ++ be16 (BitVec.ofNat 16 p.rIch) ++ be16 (BitVec.ofNat 16 p.rIst)
    ++ (List.range 12).flatMap (fun i => be16 (BitVec.ofNat 16 (p.p.getD i 0))) ++ zeros 12

def policyOf (l : List Byte) : StorePolicy :=
  { rideMs := (half l 0).toNat, lastLight := (half l 2).toNat, floorV := (byteAt l 4).toNat,
    chgLimit := (byteAt l 5).toNat, llLow := bitOf (byteAt l 6) 7, rIch := (half l 8).toNat, rIst := (half l 10).toNat,
    p := (List.range 12).map fun i => (half l (12 + 2 * i)).toNat }

def StorePolicy.ok (p : StorePolicy) : Bool :=
  p.rideMs ≤ 50 ∧ 5 ≤ p.lastLight ∧ p.lastLight ≤ 600 ∧ 20 ≤ p.floorV ∧ p.floorV ≤ 60 ∧ 1 ≤ p.chgLimit
    ∧ p.chgLimit ≤ 20 ∧ 1 ≤ p.rIch ∧ p.rIch ≤ 1000 ∧ 1 ≤ p.rIst ∧ p.rIst ≤ 1000

def finalBody (r : FinalRecord) : List Byte :=
  [r.version, r.cause] ++ be16 r.count ++ be64 r.tt ++ be16 r.cMeas ++ be16 r.esr ++ be16 r.cInitial
    ++ be16 r.esrInitial ++ be16 r.k ++ be16 r.lastMs ++ be16 (maskHalf r.darkMask) ++ be16 r.dips

/-- A final record with its CRC; a torn one reads as erased bytes (log entry 21). -/
def finalBytes (r : FinalRecord) : List Byte :=
  finalBody r ++ be32 (if r.crcOk then crc32c (finalBody r) else ~~~ crc32c (finalBody r))

/-! ### CRCs over the map and the slots (Table 8.8) -/

def mapCrc (f : Chan → MapEntry) : Word := crc32c ((List.finRange 12).flatMap fun c => entryBytes (f c))

def slotCrc (v : Vector Slot 16) : Word := crc32c ((v.toList.drop 1).flatMap slotBytes)

/-! ### REPORTs of chapter 8 (Table 8.2) -/

def switchBytes (cause src dst : Byte) (cycle : Word) (badA badB : ChMask) (kill notReady : Bool) : List Byte :=
  [0x20, cause, src, dst] ++ be32 cycle ++ be16 (maskHalf badA) ++ be16 (maskHalf badB)
    ++ [flag kill 7 ||| flag notReady 6, 0, 0, 0]

def healthBytes (st : Byte) (feedDv : Nat) (dark req : ChMask) (supply clockOk timeLink orphan : Bool) (cycle : Word) :
    List Byte :=
  [0x21, st] ++ be16 (BitVec.ofNat 16 feedDv) ++ be16 (maskHalf dark) ++ be16 (maskHalf req)
    ++ [flag supply 7 ||| flag clockOk 6 ||| flag timeLink 5, flag orphan 7, 0, 0] ++ be32 cycle

def killTestBytes (d : Die) (fail : Bool) : List Byte := [0x22, d.code, if fail then 1 else 0] ++ zeros 13

/-! ### COMMANDs to the lamp dies and REF (Tables 6.6, 8.5, 12.13) -/

def cmdIdentity (id : NodeId) : List Byte := [0x01, 0] ++ be48 id

def cmdMapWrite (c : Nat) (effect : Word) (e : MapEntry) : List Byte :=
  [0x10, 0, BitVec.ofNat 8 c, 0] ++ be32 effect ++ entryBytes e

def cmdMapRead (c : Nat) : List Byte := [0x11, 0, BitVec.ofNat 8 c]

def cmdSlotWrite (n : Nat) (effect : Word) (v : Slot) : List Byte :=
  [0x20, 0, BitVec.ofNat 8 n, BitVec.ofNat 8 v.count] ++ be32 effect ++ (slotBytes v).drop 1

def cmdSlotRead (n : Nat) : List Byte := [0x21, 0, BitVec.ofNat 8 n]

def cmdState (m : ChMask) (effect : Word) (epoch : Half) : List Byte :=
  [0x30, 0] ++ be16 (maskHalf m) ++ be32 effect ++ be16 epoch

def cmdScene (sc : Byte) (effect : Word) : List Byte := [0x31, 0, sc, 0] ++ be32 effect

def cmdBurst (slot : BitVec 4) (start : Word) (m : ChMask) : List Byte :=
  [0x32, 0, slot.zeroExtend 8, 0] ++ be32 start ++ be16 (maskHalf m)

def cmdStatus : List Byte := [0x40, 0]

def cmdRefConfig (policy : Byte) : List Byte := [0x50, 0, policy &&& 0xC0]

def cmdRefStatus : List Byte := [0x51, 0]

def cmdDie (opcode : Byte) (die : Byte) : List Byte := [opcode, 0, die]

def cmdPathClear (die : Byte) (m : ChMask) : List Byte := [0x55, 0, die, 0] ++ be16 (maskHalf m)

/-! ### The mirror frame (Table 8.8) -/

def mirrorBytes (m : MirrorP) : List Byte :=
  [m.version, m.driverState, 0, 0] ++ be32 m.cycle ++ be64 m.tt ++ be16 (maskHalf m.reqLit) ++ be16 m.epoch
    ++ [m.scene, flag m.burstRunning 7 ||| flag m.burstWaiting 6 ||| m.burstSlot.zeroExtend 8]
    ++ be16 (maskHalf m.burstMask) ++ be32 m.burstCycle ++ be16 m.alarmSeq ++ be16 (maskHalf m.darkMask)
    ++ be16 (maskHalf m.provenMask) ++ be16 (maskHalf m.qualMask) ++ fit m.ch 12 ++ be32 m.mapCrc ++ be32 m.slotCrc
    ++ be16 m.pendingCount ++ [flag m.cdLost 7 ||| flag m.holding 6 ||| flag m.fallback 5, 0] ++ be16 m.holdLeft
    ++ [0, 0] ++ be16 m.vStore ++ be16 m.cStore ++ be32 m.eAvail ++ be32 m.eCommit ++ zeros 180

/-! ### Line frames (Tables 4.3, 4.5): the parts other payloads name -/

def roundFlagsByte (f : RoundFlags) : Byte :=
  flag f.broken 7 ||| flag f.noCab 6 ||| flag f.dualCab 5 ||| flag f.doubt 4

end Sys2Proof.Machine
end

