-- ==== Sys2Proof/Machine/LinkFrames.lean ====
section
/-! DEFINITION. Frames of the framed isolated links: their bytes and symbols (Tables 2.3 to 2.5, R43 to R45), what a
receiver takes, how long symbols last, and the line of one transmitter with its idle pairs and alarm insertions (R42, R47). -/

namespace Sys2Proof.Machine

/-! ### Types, lengths and payloads (Tables 2.3 and 2.5) -/

/-- TYPE of a frame (Table 2.5). -/
def LinkBody.type : LinkBody → Byte
  | .heartbeat _ _ _ => 0x01 | .command _ => 0x02 | .response _ => 0x03 | .report _ => 0x04
  | .alarm _ => 0x05 | .mirror _ => 0x06 | .time _ _ _ _ _ _ => 0x07 | .vinput _ => 0x08

/-- The 16-byte TIME payload of a time link (R120). -/
def lampTimeBytes (tt : TrainTime) (echoReq echo holdover stepped : Bool) (turn : Word) : List Byte :=
  be64 tt ++ [flag echoReq 7 ||| flag echo 6 ||| flag holdover 5 ||| flag stepped 4, 0, 0, 0] ++ be32 turn

/-- PAYLOAD of a frame, by TYPE. -/
def LinkBody.payload : LinkBody → List Byte
  | .heartbeat cycle st rxerr => be16 cycle ++ [st, rxerr]
  | .command p => p
  | .response p => p
  | .report p => p
  | .alarm r => alarmBytes r
  | .mirror m => mirrorBytes m
  | .time tt a b c d turn => lampTimeBytes tt a b c d turn
  | .vinput p => p

/-- The frame types a link carries (Table 2.3). -/
def linkTypes : FLink → List Byte
  | .cdLa => [0x01, 0x02, 0x03, 0x04, 0x05] | .cdLb => [0x01, 0x02, 0x03, 0x04, 0x05]
  | .cdRef => [0x01, 0x02, 0x03, 0x04, 0x08]
  | .ldLa => [0x01, 0x07] | .ldLb => [0x01, 0x07]
  | .refLa => [0x01, 0x04] | .refLb => [0x01, 0x04]
  | .mirror => [0x01, 0x06]

/-- The exact LEN of the types that have one: HEARTBEAT 4 (R44), REPORT 16 (R179), ALARM 16, MIRROR 256 (Table 2.5), TIME 16
(R120), VINPUT 8 (R122). -/
def exactLen (type : Byte) : Option Nat :=
  match type.toNat with
  | 1 => some 4 | 4 => some 16 | 5 => some 16 | 6 => some 256 | 7 => some 16 | 8 => some 8
  | _ => none

/-- A receiver takes a frame only with a TYPE that Table 2.3 lists for the link and a LEN that Table 2.5 allows it (R43). -/
def linkTakes (l : FLink) (type : Byte) (len : Nat) : Bool :=
  (linkTypes l).contains type && len ≤ 256 && (match exactLen type with | some n => len = n | none => true)

/-! ### Symbols of a frame (Table 2.4) -/

/-- What the CRC covers: TYPE, SEQ, LEN and PAYLOAD. -/
def linkBytes (type seq : Byte) (payload : List Byte) : List Byte :=
  [type, seq] ++ be16 (BitVec.ofNat 16 payload.length) ++ payload

def linkSymbols (type seq : Byte) (payload : List Byte) : List Sym :=
  let b := linkBytes type seq payload
  symSof :: (b ++ be32 (crc32c b)).map symD ++ [symEof]

def LinkBody.symbols (seq : Byte) (b : LinkBody) : List Sym := linkSymbols b.type seq b.payload

/-- A frame as its receiver has checked it. -/
structure LinkFrame where
  type : Byte
  seq : Byte
  payload : List Byte
  deriving DecidableEq, Repr

/-- The frame that symbols SOF to EOF carry, when LEN and CRC agree with it and the link takes its TYPE and LEN (R43, R45). -/
def frameOfSymbols (l : FLink) (syms : List Sym) : Option LinkFrame :=
  match syms with
  | sof :: rest =>
    let body := rest.dropLast
    let b := body.map Sym.byte
    let n := b.length - 8
    let p := slice b 4 n
    if sof = symSof && rest.getLast? = some symEof && body.all (fun x => !x.control) && 8 ≤ b.length
        && (half b 2).toNat = n && word b (4 + n) = crc32c (slice b 0 (4 + n)) && linkTakes l (byteAt b 0) n
    then some ⟨byteAt b 0, byteAt b 1, p⟩
    else none
  | [] => none

/-- The frame a receiver at a running disparity reads from codes; none when it discards them (R43, R45). -/
def frameOfCodes (l : FLink) (positive : Bool) (codes : List Code) : Option LinkFrame :=
  match symsOf positive codes with
  | some syms => frameOfSymbols l syms
  | none => none

/-! ### Time on a link (Table 2.3) -/

/-- One symbol of ten bits, in quarters of a nanosecond: at 200, 64 and 40 MBd. -/
def symbolTime : FLink → Nat
  | .cdLa => 200 | .cdLb => 200 | .ldLa => 200 | .ldLb => 200
  | .cdRef => 625 | .refLa => 625 | .refLb => 625
  | .mirror => 1000

/-- From SOF to EOF of a frame, in nanoseconds, rounded up. -/
def frameNs (l : FLink) (len : Nat) : Nat := (symbolTime l * (10 + len) + 3) / 4

/-- The end of the last symbol sent, in quarters of a nanosecond. -/
def LinkEnd.txEnd (l : FLink) (x : LinkEnd) : Nat := x.txAt + symbolTime l * x.tx.length

/-- A frame follows what is being sent, or the idle pairs sent since (R42). It begins with the next pair. -/
def LinkEnd.transmit (l : FLink) (now : Nat) (f : List Sym) (x : LinkEnd) : LinkEnd :=
  let e := x.txEnd l
  if 4 * now < e then { x with tx := x.tx ++ f }
  else
    let pair := 2 * symbolTime l
    let pairs := (4 * now - e + pair - 1) / pair
    { x with txAt := e + pair * pairs, txPositive := xor (disparityOf x.txPositive x.tx) (pairs % 2 = 1), tx := f }

/-- When the first symbol of a frame handed over now leaves, in nanoseconds. -/
def LinkEnd.sofAt (l : FLink) (now : Nat) (x : LinkEnd) : Nat :=
  let e := x.txEnd l
  let pair := 2 * symbolTime l
  (e + pair * ((4 * now - e + pair - 1) / pair) + 3) / 4

/-- The moment the last symbol handed over has left, in nanoseconds. -/
def LinkEnd.eofAt (l : FLink) (x : LinkEnd) : Nat := (x.txEnd l + 3) / 4

/-- The insertion of an ALARM: the mark and two copies of the frame (R47). -/
def insertionOf (copy : List Sym) : List Sym := symMark :: (copy ++ copy)

/-- An insertion begins at the next symbol boundary after the insertion in progress; what it interrupts goes on after it. -/
def LinkEnd.insert (l : FLink) (now : Nat) (copy : List Sym) (x : LinkEnd) : LinkEnd :=
  let t := symbolTime l
  let from_ := max (4 * now) x.insertEnd
  let at_ := (from_ - x.txAt + t - 1) / t
  let ins := insertionOf copy
  if at_ < x.tx.length then
    { x with tx := x.tx.take at_ ++ ins ++ x.tx.drop at_, insertEnd := x.txAt + t * (at_ + ins.length) }
  else
    let idles := at_ - x.tx.length
    let start := x.txAt + t * at_
    { x with txAt := start, txPositive := xor (disparityOf x.txPositive x.tx) (((idles + 1) / 2) % 2 = 1), tx := ins,
             insertEnd := start + t * ins.length }

/-- The codes on the line from `txAt` on. -/
def LinkEnd.line (x : LinkEnd) : List Code := codesOf x.txPositive x.tx

end Sys2Proof.Machine
end

