-- ==== Sys2Proof/Machine/Ops.lean ====
section
/-! DEFINITION. The named operations over the state: reading and changing one die, link end, lane, port or slot,
sending a frame, letting time pass, and taking a free value. Each meaning is a chain of them. -/

namespace Sys2Proof.Machine

/-! ### Time, free values, what is sent -/

/-- Time passes to a moment; it never runs back (log entry 2). -/
def State.until (t : Nat) (s : State) : State := { s with now := max s.now t }

def State.tick (n : Nat) (s : State) : State := { s with now := s.now + n }

/-- A free value has been read, so the next one is another (log entry 4). -/
def State.drawFree (s : State) : State := { s with freeCount := s.freeCount + 1 }

def State.emit (e : Emission) (s : State) : State := { s with wire := e :: s.wire }

def State.emits (es : List Emission) (s : State) : State := { s with wire := es.reverse ++ s.wire }

def us (n : Nat) : Nat := n * 1000

def ms (n : Nat) : Nat := n * 1000000

/-- The train cycle, 125 µs (R8). -/
def cycleNs : Nat := 125000

/-! ### Dies -/

def dieOfCode (b : Byte) : Option Die := if b = 0 then some .la else if b = 1 then some .lb else none

def State.die (s : State) : Die → LampDie | .la => s.la | .lb => s.lb

def State.setDie (d : Die) (v : LampDie) (s : State) : State :=
  match d with
  | .la => { s with la := v }
  | .lb => { s with lb := v }

def State.modDie (d : Die) (f : LampDie → LampDie) (s : State) : State := s.setDie d (f (s.die d))

def State.modRef (f : Ref → Ref) (s : State) : State := { s with ref := f s.ref }

def State.modLd (f : LineDie → LineDie) (s : State) : State := { s with ld := f s.ld }

def State.modCd (f : ControlDie → ControlDie) (s : State) : State := { s with cd := f s.cd }

def State.modAo (f : AlwaysOn → AlwaysOn) (s : State) : State := { s with ao := f s.ao }

def State.modEng (f : Engine → Engine) (s : State) : State := s.modLd fun l => { l with engine := f l.engine }

def State.modPortH (f : HostPort → HostPort) (s : State) : State := s.modCd fun c => { c with port := f c.port }

/-- A write to the NVM while its controller is fenced has no effect (R290). -/
def State.modNvm (f : Nvm → Nvm) (s : State) : State :=
  if s.cd.nvm.inReset then s else s.modCd fun c => { c with nvm := f c.nvm }

/-- The NVM as reads find it: all ones while its controller is fenced (R290, Table 11.7). -/
def State.nvmSeen (s : State) : Nvm :=
  let n := s.cd.nvm
  if n.inReset then
    { n with option := ⟨[]⟩, bankA := ⟨[]⟩, bankB := ⟨[]⟩, counter := Vector.replicate 64 0xFFFFFFFF, bootA := none,
             bootB := none, log := n.log.map fun _ => LogLoc.torn }
  else n

def State.modStore (d : Die) (f : Store → Store) (s : State) : State :=
  s.modDie d fun x => { x with store := f x.store }

def LampDie.chan (x : LampDie) (c : Chan) : Channel := x.chans[c.val]

def LampDie.modChan (c : Chan) (f : Channel → Channel) (x : LampDie) : LampDie :=
  { x with chans := x.chans.set c.val (f (x.chan c)) }

def LampDie.mapChans (f : Chan → Channel → Channel) (x : LampDie) : LampDie :=
  { x with chans := ch12 fun c => f c (x.chan c) }

/-! ### Framed links -/

def LinkEnds.get (v : LinkEnds) : FLink → LEnd → LinkEnd
  | .cdLa, .first => v.cdLa1 | .cdLa, .second => v.cdLa2
  | .cdLb, .first => v.cdLb1 | .cdLb, .second => v.cdLb2
  | .cdRef, .first => v.cdRef1 | .cdRef, .second => v.cdRef2
  | .ldLa, .first => v.ldLa1 | .ldLa, .second => v.ldLa2
  | .ldLb, .first => v.ldLb1 | .ldLb, .second => v.ldLb2
  | .refLa, .first => v.refLa1 | .refLa, .second => v.refLa2
  | .refLb, .first => v.refLb1 | .refLb, .second => v.refLb2
  | .mirror, .first => v.mirror1 | .mirror, .second => v.mirror2

def LinkEnds.set (l : FLink) (e : LEnd) (x : LinkEnd) (v : LinkEnds) : LinkEnds :=
  match l, e with
  | .cdLa, .first => { v with cdLa1 := x } | .cdLa, .second => { v with cdLa2 := x }
  | .cdLb, .first => { v with cdLb1 := x } | .cdLb, .second => { v with cdLb2 := x }
  | .cdRef, .first => { v with cdRef1 := x } | .cdRef, .second => { v with cdRef2 := x }
  | .ldLa, .first => { v with ldLa1 := x } | .ldLa, .second => { v with ldLa2 := x }
  | .ldLb, .first => { v with ldLb1 := x } | .ldLb, .second => { v with ldLb2 := x }
  | .refLa, .first => { v with refLa1 := x } | .refLa, .second => { v with refLa2 := x }
  | .refLb, .first => { v with refLb1 := x } | .refLb, .second => { v with refLb2 := x }
  | .mirror, .first => { v with mirror1 := x } | .mirror, .second => { v with mirror2 := x }

def State.lend (s : State) (l : FLink) (e : LEnd) : LinkEnd := s.ends.get l e

def State.modEnd (l : FLink) (e : LEnd) (f : LinkEnd → LinkEnd) (s : State) : State :=
  { s with ends := s.ends.set l e (f (s.ends.get l e)) }

def LinkErrs.get (v : LinkErrs) : FLink → LinkErrors
  | .cdLa => v.cdLa | .cdLb => v.cdLb | .cdRef => v.cdRef | .ldLa => v.ldLa
  | .ldLb => v.ldLb | .refLa => v.refLa | .refLb => v.refLb | .mirror => v.mirror

def LinkErrs.set (l : FLink) (x : LinkErrors) (v : LinkErrs) : LinkErrs :=
  match l with
  | .cdLa => { v with cdLa := x } | .cdLb => { v with cdLb := x } | .cdRef => { v with cdRef := x }
  | .ldLa => { v with ldLa := x } | .ldLb => { v with ldLb := x } | .refLa => { v with refLa := x }
  | .refLb => { v with refLb := x } | .mirror => { v with mirror := x }

def State.modErr (l : FLink) (f : LinkErrors → LinkErrors) (s : State) : State :=
  { s with errs := s.errs.set l (f (s.errs.get l)) }

/-- The die that stands at an end of a framed link: CD, LD, a lamp die or REF. -/
inductive Station | cd | ld | lamp (d : Die) | ref
  deriving DecidableEq, Repr

def station : FLink → LEnd → Station
  | .cdLa, .first => .cd | .cdLa, .second => .lamp .la
  | .cdLb, .first => .cd | .cdLb, .second => .lamp .lb
  | .cdRef, .first => .cd | .cdRef, .second => .ref
  | .ldLa, .first => .ld | .ldLa, .second => .lamp .la
  | .ldLb, .first => .ld | .ldLb, .second => .lamp .lb
  | .refLa, .first => .ref | .refLa, .second => .lamp .la
  | .refLb, .first => .ref | .refLb, .second => .lamp .lb
  | .mirror, .first => .lamp .la | .mirror, .second => .lamp .lb

/-- A frame leaves an end of a link with a SEQ: what is sent, and its symbols on the line (R42, R43). -/
def State.putLink (l : FLink) (e : LEnd) (seq : Byte) (b : LinkBody) (s : State) : State :=
  (s.emit (.link l e seq b)).modEnd l e (LinkEnd.transmit l s.now (b.symbols seq))

/-- A new frame takes the next SEQ of its link and direction (R45). -/
def State.sendLink (l : FLink) (e : LEnd) (b : LinkBody) (s : State) : State :=
  (s.putLink l e ((s.lend l e).txSeq + 1) b).modEnd l e fun x => { x with txSeq := x.txSeq + 1 }

/-- The insertion of an ALARM on the CD link of a lamp die: the mark and two copies of its frame (R47). -/
def State.insertAlarm (d : Die) (seq : Byte) (r : AlarmRecord) (s : State) : State :=
  ((s.emit (.alarmInsertion d seq r)).modEnd d.cdLink .second
    (LinkEnd.insert d.cdLink s.now ((LinkBody.alarm r).symbols seq))).modDie d fun x => { x with insertedAt := s.now }

/-- An answer carries the SEQ of the frame it answers (R46, R48, R392); it takes no SEQ of its own. -/
def State.answerLink (l : FLink) (e : LEnd) (seq : Byte) (payload : List Byte) (s : State) : State :=
  s.putLink l e seq (.response payload)

/-- A COMMAND is sent with a new SEQ and stays open until its RESPONSE; the 100 µs run from its EOF (R46). -/
def State.sendCommand (l : FLink) (i : Issuer) (payload : List Byte) (s : State) : State :=
  (s.sendLink l .first (.command payload)).modEnd l .first fun x =>
    { x with opened := x.opened ++ [⟨x.txSeq, payload, 1, x.eofAt l, i⟩] }

/-- How long a receiver keeps the answer of a COMMAND it has executed: SEQ comes round after 256 frames, and the last copy
of a COMMAND leaves 200 µs after the first (DESIGN CHOICE, log entry 62). -/
def servedNs : Nat := 1000000

/-- The answer an end keeps for a SEQ. -/
def LinkEnd.answerTo (now : Nat) (seq : Byte) (x : LinkEnd) : Option (List Byte) :=
  (x.served.find? fun v => v.seq = seq && now ≤ v.at_ + servedNs).map Served.answer

def LinkEnd.keepAnswer (now : Nat) (seq : Byte) (a : List Byte) (x : LinkEnd) : LinkEnd :=
  { x with served := ⟨seq, a, now⟩ :: x.served.filter fun v => v.seq ≠ seq && now ≤ v.at_ + servedNs }

/-- A receiver that gets the same SEQ twice executes the COMMAND once and answers each copy (R46): `run` gives the
state after execution and the answer. -/
def State.serveCommand (l : FLink) (seq : Byte) (run : State → State × List Byte) (s : State) : State :=
  match (s.lend l .second).answerTo s.now seq with
  | some a => s.answerLink l .second seq a
  | none =>
    let (t, b) := run s
    (t.answerLink l .second seq b).modEnd l .second (LinkEnd.keepAnswer s.now seq b)

/-! ### Level links -/

def LevelLinks.get (v : LevelLinks) : LLink → LevelLink
  | .grantA => v.grantA | .grantB => v.grantB | .driveA => v.driveA
  | .driveB => v.driveB | .killA => v.killA | .killB => v.killB

def LevelLinks.set (l : LLink) (x : LevelLink) (v : LevelLinks) : LevelLinks :=
  match l with
  | .grantA => { v with grantA := x } | .grantB => { v with grantB := x } | .driveA => { v with driveA := x }
  | .driveB => { v with driveB := x } | .killA => { v with killA := x } | .killB => { v with killB := x }

def State.lv (s : State) (l : LLink) : LevelLink := s.level.get l

def State.modLevel (l : LLink) (f : LevelLink → LevelLink) (s : State) : State :=
  { s with level := s.level.set l (f (s.level.get l)) }

/-- The source of a level link starts to repeat a state at its next word boundary, or falls silent (R49). -/
def State.drive (l : LLink) (v : Option Bool) (s : State) : State := s.modLevel l fun x => { x with sent := v }

/-- The STATE a word carries: 0b1001 or 0b0110 with SYNC and CRC-4 right; every other word is invalid (R49, Table 2.6). -/
def levelOf (w : BitVec 12) : Option Bool :=
  if w = levelWord true then some true else if w = levelWord false then some false else none

/-- Words one after another, from the STATE of the word before them: the STATE last taken, which two consecutive valid words
carried, the STATE of the last word, and how many words were invalid (R49). -/
def levelRun (last taken : Option Bool) (bad : Nat) : List (BitVec 12) → Option Bool × Option Bool × Nat
  | [] => (taken, last, bad)
  | w :: r =>
    match levelOf w with
    | some v => levelRun (some v) (if last = some v then some v else taken) bad r
    | none => levelRun none taken (bad + 1) r

/-- The words make the receiver of a level link take a STATE (R49). -/
def State.wordsTake (s : State) (l : LLink) (v : Bool) (words : List (BitVec 12)) : Bool :=
  (levelRun (s.lv l).last none 0 words).1 = some v

/-- The receiver has taken two valid words of one STATE (R49). -/
def State.take (l : LLink) (v : Bool) (s : State) : State := s.modLevel l fun x => { x with taken := v, silent := false }

/-- The die at which a level link ends (R49). -/
def levelEnd : LLink → Station
  | .grantA => .lamp .la | .killA => .lamp .la | .grantB => .lamp .lb | .killB => .lamp .lb
  | .driveA => .ref | .driveB => .ref

/-! ### Lanes and ports -/

def LineDie.lane (l : LineDie) : Port → Lane
  | .foreNear => l.laneFN | .foreSkip => l.laneFS | .aftNear => l.laneAN | .aftSkip => l.laneAS

def LineDie.setLane (p : Port) (x : Lane) (l : LineDie) : LineDie :=
  match p with
  | .foreNear => { l with laneFN := x } | .foreSkip => { l with laneFS := x }
  | .aftNear => { l with laneAN := x } | .aftSkip => { l with laneAS := x }

def LineDie.port (l : LineDie) : Port → PortState
  | .foreNear => l.portFN | .foreSkip => l.portFS | .aftNear => l.portAN | .aftSkip => l.portAS

def LineDie.setPort (p : Port) (x : PortState) (l : LineDie) : LineDie :=
  match p with
  | .foreNear => { l with portFN := x } | .foreSkip => { l with portFS := x }
  | .aftNear => { l with portAN := x } | .aftSkip => { l with portAS := x }

def State.lane (s : State) (p : Port) : Lane := s.ld.lane p

def State.port (s : State) (p : Port) : PortState := s.ld.port p

def State.modLane (p : Port) (f : Lane → Lane) (s : State) : State := s.modLd fun l => l.setLane p (f (l.lane p))

def State.modPort (p : Port) (f : PortState → PortState) (s : State) : State :=
  s.modLd fun l => l.setPort p (f (l.port p))

def State.modCounters (p : Port) (f : PortCounters → PortCounters) (s : State) : State :=
  s.modPort p fun x => { x with counters := f x.counters }

def State.forPorts (ps : List Port) (f : Port → State → State) (s : State) : State := ps.foldl (fun t p => f p t) s

def Engine.vend (g : Engine) : VEnd → EndState | .fore => g.fore | .aft => g.aft

def Engine.setVend (e : VEnd) (x : EndState) (g : Engine) : Engine :=
  match e with
  | .fore => { g with fore := x }
  | .aft => { g with aft := x }

def LineDie.probeAt (l : LineDie) : VEnd → Option Nat | .fore => l.probeAtFore | .aft => l.probeAtAft

def LineDie.setProbeAt (e : VEnd) (t : Option Nat) (l : LineDie) : LineDie :=
  match e with
  | .fore => { l with probeAtFore := t }
  | .aft => { l with probeAtAft := t }

def LineDie.probing (l : LineDie) : VEnd → Bool | .fore => l.probingFore | .aft => l.probingAft

def State.vend (s : State) (e : VEnd) : EndState := s.ld.engine.vend e

def State.modVend (e : VEnd) (f : EndState → EndState) (s : State) : State :=
  s.modEng fun g => g.setVend e (f (g.vend e))

def LineDie.loc (l : LineDie) : LocalIf → LocalPort | .eth => l.eth | .twin => l.twin

def State.modLocal (i : LocalIf) (f : LocalPort → LocalPort) (s : State) : State :=
  s.modLd fun l => match i with
    | .eth => { l with eth := f l.eth }
    | .twin => { l with twin := f l.twin }

def LineDie.timeLink (l : LineDie) : Die → TimeLink | .la => l.timeLa | .lb => l.timeLb

def State.modTime (d : Die) (f : TimeLink → TimeLink) (s : State) : State :=
  s.modLd fun l => match d with
    | .la => { l with timeLa := f l.timeLa }
    | .lb => { l with timeLb := f l.timeLb }

/-! ### The referee -/

def Ref.view (r : Ref) : Die → RefView | .la => r.viewA | .lb => r.viewB

def Ref.setView (d : Die) (v : RefView) (r : Ref) : Ref :=
  match d with
  | .la => { r with viewA := v }
  | .lb => { r with viewB := v }

def State.modView (d : Die) (f : RefView → RefView) (s : State) : State :=
  s.modRef fun r => r.setView d (f (r.view d))

def Ref.kill (r : Ref) : Die → Bool | .la => r.killA | .lb => r.killB

def Ref.setKill (d : Die) (v : Bool) (r : Ref) : Ref :=
  match d with
  | .la => { r with killA := v }
  | .lb => { r with killB := v }

def Ref.pathBad (r : Ref) : Die → ChMask | .la => r.pathBadA | .lb => r.pathBadB

def Ref.setPathBad (d : Die) (m : ChMask) (r : Ref) : Ref :=
  match d with
  | .la => { r with pathBadA := m }
  | .lb => { r with pathBadB := m }

/-- The die that REF sends Granted to, if any (R207): the outputs follow from the one register. -/
def GrantState.grantee : GrantState → Option Die
  | .boot => none
  | .noGrant => none
  | .granted d => some d
  | .withdrawing _ _ _ _ _ => none
  | .granting _ y _ _ _ => some y

/-! ### Train time and cycles (R113, R164) -/

/-- The steps of 0.8 ns that the LD's counter makes in a time (R113). -/
def counterSteps (ns : Nat) : Nat := 5 * ns / 4

/-- The rate of train time: so many parts of 10^9 for each part of the counter (R117). -/
def TrainClock.parts (c : TrainClock) : Nat := (1000000000 + c.rate).toNat

/-- The LD's train time at a moment since it was last set. -/
def State.trainTimeAt (s : State) (m : Nat) : TrainTime :=
  s.ld.clock.base + BitVec.ofNat 64 (4 * counterSteps (m - s.ld.clock.baseAt) * s.ld.clock.parts / 5000000000)

/-- The LD's train time now. -/
def State.trainTime (s : State) : TrainTime := s.trainTimeAt s.now

def cycleOf (tt : TrainTime) : Nat := tt.toNat / cycleNs

def State.cycle (s : State) : Nat := cycleOf s.trainTime

def State.cycle32 (s : State) : Word := BitVec.ofNat 32 s.cycle

/-- Train time at the start of the cycle after the present one. -/
def State.nextBoundary (s : State) : TrainTime := BitVec.ofNat 64 ((s.cycle + 1) * cycleNs)

/-- The moment at which train time reaches a value, if it has not yet. -/
def State.momentOf (tt : TrainTime) (s : State) : Nat :=
  let c := s.ld.clock
  let steps := (5000000000 * (tt.toNat - c.base.toNat) + 4 * c.parts - 1) / (4 * c.parts)
  max s.now (c.baseAt + (4 * steps + 4) / 5)

/-- The LD's train time takes a new value at this moment (R117, R274). -/
def State.setTrainTime (tt : TrainTime) (s : State) : State :=
  s.modLd fun l => { l with clock := { l.clock with base := tt, baseAt := s.now } }

/-- Train time goes on from its present value at another rate, within ±100 ppm (R117). -/
def State.setRate (ppb : Int) (s : State) : State :=
  (s.setTrainTime s.trainTime).modLd fun l => { l with clock := { l.clock with rate := max (-100000) (min 100000 ppb) } }

/-- A lamp die's own cycle number, at its latest boundary (R164). -/
def DieClock.cycle (c : DieClock) : Nat := cycleOf c.boundaryTT

def DieClock.cycle32 (c : DieClock) : Word := BitVec.ofNat 32 c.cycle

/-- Train time as a lamp die holds it now. -/
def State.dieTime (s : State) (d : Die) : TrainTime :=
  (s.die d).clock.boundaryTT + BitVec.ofNat 64 (s.now - (s.die d).clock.boundaryAt)

/-! ### Which islands run (R36, Table 10.1) -/

/-- The LD runs: out of reset and neither off nor in Calm. -/
def State.ldRuns (s : State) : Bool := !s.ld.inReset && s.ld.power ≠ .calm && s.ld.power ≠ .off

/-- The control core's clock runs: no reset of level 0 to 2 holds the CD, and the node is not in Calm. -/
def State.ctlRuns (s : State) : Bool := !(s.ao.reset.active && s.ao.reset.level ≤ 2) && s.ld.power ≠ .calm

/-! ### The committed numbering (R22, R138) -/

def State.commit? (s : State) : Option Commit := s.ld.engine.commit

def State.position (s : State) : Position := match s.commit? with | some c => c.position | none => 0

/-- The committed epoch as frames and records carry it: 0 when unnumbered (Table 4.3, Table 15.1). -/
def State.epoch (s : State) : Half := match s.commit? with | some c => c.epoch | none => 0

/-- The epoch that stands in rounds: until the first commit a woken node uses the one in retained SRAM (R265). -/
def State.roundEpoch (s : State) : Half := match s.commit? with | some c => c.epoch | none => s.cd.retained.lastEpoch

def State.ghosts (s : State) : GhostSet := match s.commit? with | some c => c.ghosts | none => 0

def State.lastPos (s : State) : Position := match s.commit? with | some c => c.lastPos | none => 0

def State.leadId (s : State) : NodeId := match s.commit? with | some c => c.leadId | none => 0

/-- The end that faces headward (R21, Table 1.1). -/
def State.headEnd (s : State) : VEnd :=
  match s.commit? with
  | some c => if c.reversed then .aft else .fore
  | none => .fore

/-! ### Fuses (Table 11.3) -/

/-- Bit n of the fuse image in the always-on island's shadow. -/
def State.fuseBit (s : State) (n : Nat) : Bool := (byteAt s.ao.fuses (n / 8)).getLsbD (n % 8)

def State.fuseNat (s : State) (lo width : Nat) : Nat :=
  (List.range width).foldl (fun a i => a + (if s.fuseBit (lo + i) then 2 ^ i else 0)) 0

def State.nodeId (s : State) : NodeId := BitVec.ofNat 48 (s.fuseNat 0 48)

/-- The level a reset source takes (Table 11.2): a fused value outside the allowed set is the lowest-numbered one. -/
def State.sourceLevel (s : State) (code : Nat) : Nat :=
  let v := s.fuseNat (48 + 2 * code) 2
  match code with
  | 0 => 0
  | 1 => if v ≤ 1 then v else 0
  | 2 => if v ≤ 1 then v else 0
  | 3 => if v = 1 ∨ v = 2 then v else 1
  | 4 => if v ≤ 1 then v else 0
  | 5 => if v ≤ 1 then v else 0
  | 6 => if v = 1 ∨ v = 2 then v else 1
  | 7 => if 2 ≤ v then v else 2
  | _ => 1

/-- PIN_RESET state of a pin; reserved codes read as Hi-Z (Table 11.6). -/
def State.pinReset (s : State) (n : Nat) : Byte :=
  let v := s.fuseNat (72 + 3 * n) 3
  if v ≤ 4 then BitVec.ofNat 8 v else 0

/-! ### Lists of fixed length used as registers -/

/-- Removes the first entry that satisfies a test. -/
def dropFirst {α : Type} (f : α → Bool) : List α → List α
  | [] => []
  | x :: r => if f x then r else x :: dropFirst f r

end Sys2Proof.Machine
end

