-- ==== Sys2Proof/Machine/Crossings.lean ====
section
/-! DEFINITION. The logic-side crossings: the four-phase handshake with bundled data (R38 to R41, Table 2.2), which islands
run, and what the isolation wrappers do at a reset (R290). -/

namespace Sys2Proof.Machine

/-! ### Logic-side crossings (R38 to R41) -/

def crossedNew : Crossed := ⟨false, false, [], [], [], 0, 0, 0⟩

def State.crossed (s : State) (x : Crossing) : Crossed :=
  match s.crossings.find? fun e => e.1 = x with
  | some e => e.2
  | none => crossedNew

def State.setCrossed (x : Crossing) (v : Crossed) (s : State) : State :=
  { s with crossings := (x, v) :: s.crossings.filter fun e => e.1 ≠ x }

/-- Bytes of one transfer (Table 2.2). -/
def unitBytes : Crossing → Nat
  | .laneIn _ => 80 | .laneOut _ => 80 | .localIn _ => 80 | .localOut _ => 80
  | .coreToCtl => 32 | .ctlToCore => 32 | .hostToCtl => 1 | .ctlToHost => 1
  | .aoToCtl => 4 | .aoToCore => 4 | .ctlToAo => 4 | .coreToAo => 4

/-- A lane crossing runs 4 handshake slots in rotation (R40). -/
def isLaneCrossing : Crossing → Bool
  | .laneIn _ => true | .laneOut _ => true | .localIn _ => true | .localOut _ => true
  | _ => false

/-- A crossing at the edge of a fenced block is at rest (R290). -/
def State.crossingFenced (s : State) (x : Crossing) : Bool :=
  match x with
  | .laneIn p => s.fences.contains (.lane p)
  | .laneOut p => s.fences.contains (.lane p)
  | .localIn b => s.fences.contains (.localLane b)
  | .localOut b => s.fences.contains (.localLane b)
  | _ => false

/-- Step 1: the sender sets the data, holds them stable, and raises REQ. -/
def Crossed.launch (data : List Byte) (v : Crossed) : Crossed := { v with req := true, bundle := data }

/-- Step 2: the receiver latches the data and raises ACK. -/
def Crossed.accept (v : Crossed) : Crossed := { v with ack := true, latched := v.bundle }

/-- Step 3: the sender has seen ACK and lowers REQ. -/
def Crossed.lower (v : Crossed) : Crossed := { v with req := false }

/-- Step 4: the receiver lowers ACK, and the crossing is at rest. -/
def Crossed.rest (x : Crossing) (v : Crossed) : Crossed :=
  { v with ack := false, edges := 0, transfers := v.transfers + 1,
           slot := if isLaneCrossing x then (v.slot + 1) % 4 else v.slot }

/-- The four steps of one transfer of a whole unit (R38, Table 2.2). -/
def Crossed.transfer (x : Crossing) (data : List Byte) (v : Crossed) : Crossed :=
  (((v.launch (fit data (unitBytes x))).accept).lower).rest x

/-- One rising edge of SCLK: the oldest waiting byte is launched, and three edges complete it (R41, Table 2.2). -/
def Crossed.edge (v : Crossed) : Crossed :=
  if v.req then (if 2 ≤ v.edges then (v.accept.lower).rest .ctlToHost else { v with edges := v.edges + 1 })
  else match v.waiting with
    | d :: r => { v.launch d with waiting := r, edges := 1 }
    | [] => v

def Crossed.clocked : Nat → Crossed → Crossed
  | 0, v => v
  | n + 1, v => clocked n v.edge

/-- Does the clock of the island at the receiving end run (R36, R41)? The always-on island always does. -/
def State.receiverRuns (s : State) : Crossing → Bool
  | .laneIn _ => s.ldRuns | .laneOut p => s.ldRuns && (s.lane p).st ≠ .off | .localIn _ => s.ldRuns | .localOut _ => s.ldRuns
  | .ctlToCore => s.ldRuns | .aoToCore => s.ldRuns
  | .coreToCtl => s.ctlRuns | .hostToCtl => s.ctlRuns | .aoToCtl => s.ctlRuns
  | .ctlToAo => true | .coreToAo => true
  | .ctlToHost => false

/-- A transfer that one command causes between two running islands completes within that command (log entry 63). -/
def State.carry (x : Crossing) (data : List Byte) (s : State) : State := s.setCrossed x ((s.crossed x).transfer x data)

/-- The wrapper completes an outstanding transfer with an error response, all ones, and brings the crossing to rest (R290). -/
def Crossed.fence (x : Crossing) (v : Crossed) : Crossed :=
  { v with req := false, ack := false, edges := 0, waiting := [],
           latched := if v.req || !v.waiting.isEmpty then ones (unitBytes x) else v.latched }

def State.fenceCrossings (f : Crossing → Bool) (s : State) : State :=
  { s with crossings := s.crossings.map fun e => if f e.1 then (e.1, e.2.fence e.1) else e }

/-- REQ and ACK low at every crossing: only then may an island stop its clock (R41). -/
def State.crossingsRest (s : State) : Bool := s.crossings.all fun e => !e.2.req && !e.2.ack

end Sys2Proof.Machine
end

