-- ==== Sys2Proof/Machine/Faults.lean ====
section
/-! DEFINITION. The fault catalogue (Table 15.3) and the bookkeeping of fault records: raising, clearing and merging
at the CD (R388 to R391), and the report queues of the other dies (R392). The deadlines of
Table 15.4 raise their faults through them (R396). -/

namespace Sys2Proof.Machine

/-- A row of Table 15.3: CODE, whether it is a condition, and SEV. -/
structure FaultDef where
  code : Half
  cond : Bool
  sev : BitVec 2
  deriving DecidableEq, Repr

def fLaneMiswired : FaultDef := ⟨0x0101, false, 2⟩
def fLaneBringUp : FaultDef := ⟨0x0102, true, 2⟩
def fLaneFlapping : FaultDef := ⟨0x0103, false, 1⟩
def fPortWarning : FaultDef := ⟨0x0104, false, 1⟩
def fPortFenced : FaultDef := ⟨0x0105, true, 2⟩
def fTrainSync : FaultDef := ⟨0x0106, true, 1⟩
def fCabInside : FaultDef := ⟨0x0201, false, 1⟩
def fCouplerDisagrees : FaultDef := ⟨0x0202, true, 1⟩
def fNotNumbered : FaultDef := ⟨0x0203, true, 2⟩
def fNoCabMismatch : FaultDef := ⟨0x0204, false, 1⟩
def fOverLength : FaultDef := ⟨0x0205, false, 2⟩
def fDualCab : FaultDef := ⟨0x0206, false, 1⟩
def fRoleLate : FaultDef := ⟨0x0207, false, 2⟩
def fRoundTimeout : FaultDef := ⟨0x0208, false, 1⟩
def fInputsStale : FaultDef := ⟨0x0209, true, 2⟩
def fLampDark : FaultDef := ⟨0x0301, true, 3⟩
def fOvercurrent : FaultDef := ⟨0x0302, true, 2⟩
def fLitWhileDark : FaultDef := ⟨0x0303, false, 3⟩
def fUncalibrated : FaultDef := ⟨0x0304, true, 1⟩
def fCalFailed : FaultDef := ⟨0x0305, false, 1⟩
def fLightView : FaultDef := ⟨0x0306, true, 1⟩
def fMarginLow : FaultDef := ⟨0x0307, true, 1⟩
def fAlarmLate : FaultDef := ⟨0x0308, false, 2⟩
def fAlarmFull : FaultDef := ⟨0x0309, false, 1⟩
def fLampCycle : FaultDef := ⟨0x030A, false, 2⟩
def fHbMissed : FaultDef := ⟨0x0401, false, 0⟩
def fLinkLost : FaultDef := ⟨0x0402, true, 2⟩
def fLevelSilent : FaultDef := ⟨0x0403, true, 2⟩
def fMirrorLost : FaultDef := ⟨0x0404, true, 2⟩
def fMirrorMissed : FaultDef := ⟨0x0405, false, 1⟩
def fMirrorDisagrees : FaultDef := ⟨0x0406, true, 2⟩
def fControlLost : FaultDef := ⟨0x0407, true, 2⟩
def fTimeLinkLost : FaultDef := ⟨0x0408, true, 1⟩
def fLinkErrors : FaultDef := ⟨0x0409, true, 1⟩
def fSwitchOver : FaultDef := ⟨0x0410, false, 1⟩
def fDriverStuck : FaultDef := ⟨0x0411, false, 3⟩
def fDieFailed : FaultDef := ⟨0x0412, true, 3⟩
def fDieLost : FaultDef := ⟨0x0413, true, 2⟩
def fStandby : FaultDef := ⟨0x0414, true, 1⟩
def fRefLost : FaultDef := ⟨0x0415, true, 3⟩
def fRefReset : FaultDef := ⟨0x0416, false, 1⟩
def fKillTest : FaultDef := ⟨0x0417, false, 3⟩
def fNoMirrorTake : FaultDef := ⟨0x0418, false, 2⟩
def fNoDriver : FaultDef := ⟨0x0419, true, 3⟩
def fBurstSwitch : FaultDef := ⟨0x041A, false, 0⟩
def fFeedLost : FaultDef := ⟨0x0501, true, 2⟩
def fFeedInterrupted : FaultDef := ⟨0x0502, false, 1⟩
def fLastLight : FaultDef := ⟨0x0503, false, 2⟩
def fOverdrawn : FaultDef := ⟨0x0504, true, 1⟩
def fStoreRange : FaultDef := ⟨0x0505, false, 2⟩
def fStoreLow : FaultDef := ⟨0x0506, true, 1⟩
def fEsrHigh : FaultDef := ⟨0x0507, true, 1⟩
def fPowerUnder : FaultDef := ⟨0x0508, true, 1⟩
def fStoreSmall : FaultDef := ⟨0x0509, true, 2⟩
def fBurstEnergy : FaultDef := ⟨0x050A, false, 0⟩
def fBurstFeed : FaultDef := ⟨0x050B, false, 0⟩
def fGoingDark : FaultDef := ⟨0x050C, false, 2⟩
def fFailsafe : FaultDef := ⟨0x0601, false, 2⟩
def fThermal : FaultDef := ⟨0x0602, false, 2⟩
def fFuseBad : FaultDef := ⟨0x0603, false, 3⟩
def fResetPending : FaultDef := ⟨0x0604, false, 2⟩
def fDieAbsent : FaultDef := ⟨0x0605, false, 2⟩
def fNoFirmware : FaultDef := ⟨0x0606, false, 3⟩
def fRetainedLost : FaultDef := ⟨0x0607, false, 1⟩
def fOptionInvalid : FaultDef := ⟨0x0608, false, 2⟩
def fOptionDefault : FaultDef := ⟨0x0609, false, 0⟩
def fFrost : FaultDef := ⟨0x060A, false, 3⟩
def fNodeStarted : FaultDef := ⟨0x060B, false, 0⟩
def fHostAbsent : FaultDef := ⟨0x0701, true, 1⟩
def fMbxDeadline : FaultDef := ⟨0x0702, false, 1⟩
def fFarTimeout : FaultDef := ⟨0x0703, false, 1⟩
def fTrialFailed : FaultDef := ⟨0x0704, false, 2⟩
def fBankInvalid : FaultDef := ⟨0x0705, false, 2⟩
def fRollback : FaultDef := ⟨0x0706, false, 2⟩
def fLogOverflow : FaultDef := ⟨0x0707, false, 1⟩
def fOpenFull : FaultDef := ⟨0x0708, false, 1⟩

/-- SUBJECT 0xFF: no subject (Table 15.2). -/
def noSubject : Byte := 0xFF

/-- SUBJECT of a lamp channel of a die (Table 15.2). -/
def chanSubject (d : Die) (c : Chan) : Byte :=
  (match d with | .la => 0x20 | .lb => 0xA0) ||| BitVec.ofNat 8 c.val

/-! ### Attention events (Table 12.5) -/

def evResetSeen : Nat := 4
def evOwnDark : Nat := 5
def evTrainAlarm : Nat := 6
def evDriveSwitched : Nat := 7
def evEpoch : Nat := 8
def evFault : Nat := 9
def evPower : Nat := 10

/-- The attention events of Table 12.5 become pending, one bit per code. -/
def State.setEvent (code : Nat) (s : State) : State :=
  s.modPortH fun p => { p with events := p.events ||| ((1 : Half) <<< code) }

/-! ### The fault log (R375, R391) -/

/-- A write to an NVM area is counted, and its retention begins afresh (R428, R431). -/
def Nvm.wrote (area : Nat) (n : Nvm) : Nvm :=
  { n with writes := n.writes.set area (n.writes.getD area 0 + 1), retention := n.retention.set area 0,
           lastArea := some area }

def areaOption : Nat := 0
def areaBankA : Nat := 1
def areaBankB : Nat := 2
def areaBootA : Nat := 3
def areaBootB : Nat := 4
def areaLog : Nat := 5
def areaCounter : Nat := 6
def areaLedgerA : Nat := 7
def areaLedgerB : Nat := 8

/-- One record goes into the log if the limits of R391 leave it room: 16 in any 1.0 s, the last 4 of them for
records with SEV safety. Else it is dropped and counted. -/
def State.writeRec (r : FaultRec) (s : State) : State :=
  let recent := s.cd.faults.written.filter fun x => s.now < x.1 + ms 1000
  let safety : Bool := r.sev = 3
  if recent.length < (if safety then 16 else 12) then
    let q := s.cd.nvm.topSeq + 1
    let s := s.modNvm fun n => { n.wrote areaLog with topSeq := q, log := (LogLoc.valid { r with seq := q } :: n.log).take 1536 }
    let s := s.modCd fun c => { c with faults := { c.faults with written := (s.now, safety) :: recent } }
    s.setEvent evFault
  else s.modCd fun c => { c with faults := { c.faults with written := recent, dropped := c.faults.dropped + 1 } }

def padData (d : List Byte) : List Byte := fit d 6

/-- A record of a fault as the CD builds it now (Table 15.1). -/
def State.faultRec (s : State) (f : FaultDef) (event : BitVec 2) (subject : Byte) (src : Byte) (tt : TrainTime)
    (rep : Half) (data : List Byte) : FaultRec :=
  { seq := 0, code := f.code, event := event, sev := f.sev, subject := subject, tt := tt, epoch := s.epoch,
    position := s.position, source := src, rep := rep, data := padData data }

def State.modBook (f : FaultBook → FaultBook) (s : State) : State := s.modCd fun c => { c with faults := f c.faults }

/-- REPEAT rises, saturating at 65,535. -/
def addRep (a b : Half) : Half := if a.toNat + b.toNat < 65535 then a + b else 0xFFFF

def FaultRec.isFor (code : Half) (subject : Byte) (r : FaultRec) : Bool := r.code = code ∧ r.subject = subject

/-- A record of a pair is its last record from now on (R390). -/
def FaultBook.noteRecord (now : Nat) (r : FaultRec) (b : FaultBook) : FaultBook :=
  { b with recent := ((r.code, r.subject), now) :: b.recent.filter fun x => x.1 ≠ (r.code, r.subject) }

/-- A pending summary is written, and is the last record of its pair (R390). -/
def State.writeSummary (r : FaultRec) (s : State) : State :=
  (s.modBook (FaultBook.noteRecord s.now r)).writeRec { r with epoch := s.epoch, position := s.position }

/-- An event that repeats within 1.0 s of the last record of its pair goes into the pair's summary; the oldest
summary, the one whose last repeat lies furthest back (DEDUCED, log entry 88), is written when its entry is needed, and a summary whose
REPEAT reaches 65,535 is written (R390). -/
def State.mergeEvent (r : FaultRec) (s : State) : State :=
  match s.cd.faults.summaries.find? (fun x => x.1.isFor r.code r.subject) with
  | some (old, _) =>
    let new := { old with rep := addRep old.rep r.rep, tt := r.tt }
    let rest := s.cd.faults.summaries.filter fun x => !x.1.isFor r.code r.subject
    if new.rep = 0xFFFF then (s.modBook fun b => { b with summaries := rest }).writeSummary new
    else s.modBook fun b => { b with summaries := rest ++ [(new, s.now)] }
  | none =>
    match s.cd.faults.summaries with
    | (old, _) :: rest =>
      if 7 ≤ s.cd.faults.summaries.length then
        (s.modBook fun b => { b with summaries := rest ++ [({ r with event := 2 }, s.now)] }).writeSummary old
      else s.modBook fun b => { b with summaries := b.summaries ++ [({ r with event := 2 }, s.now)] }
    | [] => s.modBook fun b => { b with summaries := [({ r with event := 2 }, s.now)] }

/-- An event is raised at the CD (R389, R390). A dropped record counts as the last record of its pair (R391). -/
def State.recordEvent (r : FaultRec) (s : State) : State :=
  let last := s.cd.faults.recent.find? fun x => x.1 = (r.code, r.subject)
  let open_ := s.cd.faults.summaries.any fun x => x.1.isFor r.code r.subject
  let soon := match last with | some (_, t) => decide (s.now < t + ms 1000) | none => false
  if open_ || soon then s.mergeEvent r
  else (s.modBook (FaultBook.noteRecord s.now r)).writeRec r

/-- A condition is raised at the CD (R389, R390). -/
def State.recordCond (r : FaultRec) (s : State) : State :=
  let same := fun x : FaultRec => x.isFor r.code r.subject
  if s.cd.faults.opened.any same then
    s.modBook fun b => { b with
      opened := b.opened.map fun x => if same x then { x with rep := addRep x.rep r.rep } else x }
  else if s.cd.faults.extra.contains (r.code, r.subject) then s
  else if s.cd.faults.opened.length < 48 then
    (s.modBook fun b => { b with opened := b.opened ++ [r] }).writeRec r
  else
    let s := (s.modBook fun b => { b with extra := b.extra ++ [(r.code, r.subject)] }).writeRec r
    s.recordEvent (s.faultRec fOpenFull 0 noSubject 0 s.trainTime 1 (be16 r.code))

/-- The CD raises a fault, from any source die. -/
def State.cdRaiseFrom (src : Byte) (tt : TrainTime) (rep : Half) (f : FaultDef) (subject : Byte) (data : List Byte)
    (s : State) : State :=
  let r := s.faultRec f 0 subject src tt rep data
  if f.cond then s.recordCond r else s.recordEvent r

/-- The clear of a condition is recorded: with the REPEAT of its entry, or with REPEAT 0 where it was never entered
(R389). A condition that is not open is not cleared. -/
def State.cdClearFrom (src : Byte) (tt : TrainTime) (f : FaultDef) (subject : Byte) (s : State) : State :=
  let same := fun x : FaultRec => x.isFor f.code subject
  match s.cd.faults.opened.find? same with
  | some e =>
    (s.modBook fun b => { b with opened := dropFirst same b.opened }).writeRec
      (s.faultRec f 1 subject src tt e.rep e.data)
  | none =>
    if s.cd.faults.extra.contains (f.code, subject) then
      (s.modBook fun b => { b with extra := b.extra.erase (f.code, subject) }).writeRec
        (s.faultRec f 1 subject src tt 0 [])
    else s

def State.condOpen (s : State) (code : Half) (subject : Byte) : Bool :=
  s.cd.faults.opened.any (FaultRec.isFor code subject) || s.cd.faults.extra.contains (code, subject)

/-! ### Report queues (R392) -/

/-- A new report enters a queue of fixed size, by the terms of R392. -/
def pushReport (cap : Nat) (r : DieReport) (q : List DieReport) : List DieReport :=
  let same := fun x : DieReport => x.code = r.code ∧ x.subject = r.subject ∧ x.event = r.event
  let raise := fun x : DieReport => r.event = 1 ∧ x.code = r.code ∧ x.subject = r.subject ∧ x.event = 0
  if q.length < cap then q ++ [r]
  else if q.any fun x => decide (same x) then
    q.map fun x => if same x then { x with rep := addRep x.rep 1 } else x
  else if q.any fun x => decide (raise x) then
    q.map fun x => if raise x then { r with rep := x.rep } else x
  else if q.any fun x => decide (x.sev < r.sev) then (dropFirst (fun x => decide (x.sev < r.sev)) q) ++ [r]
  else q

/-- Payload of a fault REPORT, KIND 0x30 (R392). -/
def reportBytes (r : DieReport) : List Byte :=
  [0x30, (r.event ++ r.sev ++ (0 : BitVec 4))] ++ be16 r.code ++ [r.subject, 0] ++ be16 r.rep ++ padData r.data
    ++ be16 (BitVec.ofNat 16 (r.tt.toNat / 1000))

/-- The CD writes what the LD reports; while the CD does not run, the LD's queue of 16 keeps it (R392). -/
def State.ldReport (event : BitVec 2) (f : FaultDef) (subject : Byte) (data : List Byte) (s : State) : State :=
  if s.cd.running then
    if event = 1 then s.cdClearFrom 1 s.trainTime f subject
    else s.cdRaiseFrom 1 s.trainTime 1 f subject data
  else s.modLd fun l => { l with
    reports := pushReport 16 ⟨0, f.code, event, f.sev, subject, 1, padData data, s.trainTime⟩ l.reports }

def State.ldRaise (f : FaultDef) (subject : Byte) (data : List Byte) (s : State) : State :=
  s.ldReport 0 f subject data

def State.ldClear (f : FaultDef) (subject : Byte) (s : State) : State := s.ldReport 1 f subject []

/-- The CD raises or clears a fault of its own, if it runs. -/
def State.cdRaise (f : FaultDef) (subject : Byte) (data : List Byte) (s : State) : State :=
  s.cdRaiseFrom 0 s.trainTime 1 f subject data

def State.cdClear (f : FaultDef) (subject : Byte) (s : State) : State := s.cdClearFrom 0 s.trainTime f subject

/-- A die's REPORT leaves at once where its CD link stands, and waits for the link's restoration where it does not. -/
def State.sendReport (l : FLink) (r : DieReport) (s : State) : State :=
  if (s.lend l .second).lost then s else s.sendLink l .second (.report (reportBytes r))

/-- The report just queued is sent; one that found no place, or joined another that was sent before, is not. -/
def State.sendQueued (l : FLink) (seq : Byte) (q : List DieReport) (s : State) : State :=
  match q.find? fun x => x.linkSeq = seq with
  | some r => s.sendReport l r
  | none => s

/-- A lamp die reports a fault with its own train time (R392). -/
def State.dieReport (d : Die) (event : BitVec 2) (f : FaultDef) (subject : Byte) (data : List Byte) (s : State) :
    State :=
  let r : DieReport := ⟨(s.lend d.cdLink .second).txSeq + 1, f.code, event, f.sev, subject, 1, padData data, s.dieTime d⟩
  let q := pushReport 8 r (s.die d).reports
  let s := s.modDie d fun x => { x with reports := q }
  s.sendQueued d.cdLink r.linkSeq q

def State.dieRaise (d : Die) (f : FaultDef) (subject : Byte) (data : List Byte) (s : State) : State :=
  s.dieReport d 0 f subject data

def State.dieClear (d : Die) (f : FaultDef) (subject : Byte) (s : State) : State := s.dieReport d 1 f subject []

/-- A condition that a lamp die watches begins or ends: it is reported at the change only. -/
def State.dieCond (d : Die) (f : FaultDef) (subject : Byte) (data : List Byte) (holds : Bool) (s : State) : State :=
  let was := (s.die d).conds.contains (f.code, subject)
  if holds && !was then
    (s.modDie d fun x => { x with conds := (f.code, subject) :: x.conds }).dieRaise d f subject data
  else if !holds && was then
    (s.modDie d fun x => { x with conds := x.conds.erase (f.code, subject) }).dieClear d f subject
  else s

/-- REF reports a fault; its stamp is the train time of the REF cycle (log entry 12). -/
def State.refReport (event : BitVec 2) (f : FaultDef) (subject : Byte) (data : List Byte) (s : State) : State :=
  let r : DieReport := ⟨(s.lend .cdRef .second).txSeq + 1, f.code, event, f.sev, subject, 1, padData data, s.trainTime⟩
  let q := pushReport 8 r s.ref.reports
  let s := s.modRef fun x => { x with reports := q }
  s.sendQueued .cdRef r.linkSeq q

def State.refRaise (f : FaultDef) (subject : Byte) (data : List Byte) (s : State) : State := s.refReport 0 f subject data

def State.refClear (f : FaultDef) (subject : Byte) (s : State) : State := s.refReport 1 f subject []

/-- After a loss of its CD link a die sends what it holds, each report with a new SEQ (R392). -/
def State.resendDie (d : Die) (s : State) : State :=
  let held := (s.die d).reports
  held.foldl (fun t r =>
    let r' := { r with linkSeq := (t.lend d.cdLink .second).txSeq + 1 }
    (t.modDie d fun x => { x with reports := x.reports ++ [r'] }).sendReport d.cdLink r')
    (s.modDie d fun x => { x with reports := [] })

def State.resendRef (s : State) : State :=
  let held := s.ref.reports
  held.foldl (fun t r =>
    let r' := { r with linkSeq := (t.lend .cdRef .second).txSeq + 1 }
    (t.modRef fun x => { x with reports := x.reports ++ [r'] }).sendReport .cdRef r')
    (s.modRef fun x => { x with reports := [] })

/-- A fault a station of a framed link finds is recorded the way that station records faults. -/
def State.raiseAt (st : Station) (f : FaultDef) (subject : Byte) (data : List Byte) (s : State) : State :=
  match st with
  | .cd => if s.cd.running then s.cdRaise f subject data else s
  | .ld => s.ldRaise f subject data
  | .lamp d => s.dieRaise d f subject data
  | .ref => s.refRaise f subject data

def State.clearAt (st : Station) (f : FaultDef) (subject : Byte) (s : State) : State :=
  match st with
  | .cd => if s.cd.running then s.cdClear f subject else s
  | .ld => s.ldClear f subject
  | .lamp d => s.dieClear d f subject
  | .ref => s.refClear f subject

end Sys2Proof.Machine
end

