-- ==== Sys2Proof/Machine/Flags.lean ====
section
/-! DEFINITION. What is computed from the state rather than held in it: the map entries in force, readiness, the
STATE bytes of heartbeats (Table 8.1), the masks of DIE_HEALTH and of the mirror frame, and REF's verdicts. -/

namespace Sys2Proof.Machine

/-! ### The lamp map in force (R283, R284) -/

/-- A lamp fuse field as the die reads it; a word with an uncorrectable error reads as R283 says. -/
def LampDie.fuse (x : LampDie) (c : Chan) : LampFuse :=
  if inMask x.fuseBad c then ⟨2, true, false, BitVec.ofNat 3 c.val, 64, 0, 0, 0⟩ else x.fuses[c.val]

/-- HOLD_TIME in units of 125 ms; 16 where the word is bad, and never above 16 (R227, R283). -/
def LampDie.hold (x : LampDie) : Nat := if x.holdBad then 16 else min x.holdUnits 16

/-- The fuse-derived entry of R284. -/
def fuseEntry (f : LampFuse) : MapEntry :=
  { mode := f.mode, enable := f.fem, endAft := f.fend, role := if f.fend then 3 else 2, slot := 0, burstEn := false,
    dimEn := false, doorSrc := 0, setpoint := f.setpoint, setpointLow := f.setpoint, pilotDepth := f.depth,
    signature := f.fsig, offset := 0, fswDiv := f.fswDiv, deadTime := f.fdead }

/-- The entry a die holds: the last MAP_WRITE that took effect, or the fuse-derived entry. -/
def LampDie.ownEntry (x : LampDie) (c : Chan) : MapEntry := (x.map[c.val]).getD (fuseEntry (x.fuse c))

/-- The entry in force; while the die shows the Frost set it is the fuse-derived entry (R304). -/
def LampDie.entry (x : LampDie) (c : Chan) : MapEntry := if x.cd.frost then fuseEntry (x.fuse c) else x.ownEntry c

/-- A channel that can light: ENABLE 1 and MODE not UNUSED (R284). -/
def LampDie.canLight (x : LampDie) (c : Chan) : Bool := entryLights (x.entry c)

/-- Required lit by REQ_LIT, on a channel that can light (R159, R284). -/
def LampDie.required (x : LampDie) (c : Chan) : Bool := inMask x.reqLit c && x.canLight c

def LampDie.requiredMask (x : LampDie) : ChMask := chMaskOf x.required

def LampDie.darkMask (x : LampDie) : ChMask := chMaskOf fun c => (x.chan c).proof = .dark

def LampDie.maskOf (x : LampDie) (p : Proof) : ChMask := chMaskOf fun c => (x.chan c).proof = p

def LampDie.mapCrc (x : LampDie) : Word := Sys2Proof.Machine.mapCrc x.ownEntry

def LampDie.slotCrc (x : LampDie) : Word := Sys2Proof.Machine.slotCrc x.slots

/-! ### Readiness and the STATE byte of a lamp die (R210, R211) -/

/-- The complete frame describes one of the two most recent boundaries of the standby (R224). -/
def LampDie.frameFresh (x : LampDie) : Bool :=
  match x.mirror.complete with
  | some m => (x.clock.cycle32 - m.cycle).toNat ≤ 1
  | none => false

/-- MODE GOING_DARK of the CD as the die last read it (Table 8.1). -/
def goingDark (st : Byte) : Bool := st.extractLsb' 4 4 = 3

/-- The die treats the CD as lost (R226). -/
def State.cdGone (s : State) (d : Die) : Bool :=
  (s.lend d.cdLink .second).lost || goingDark (s.lend d.cdLink .second).peerState

def State.mirrorOk (s : State) (d : Die) : Bool :=
  if (s.die d).grant then !(s.lend .mirror d.mirrorEnd).lost else (s.die d).frameFresh

/-- The die's map and slots agree with its complete mirror frame (R211, R224). -/
def LampDie.agrees (x : LampDie) : Bool :=
  match x.mirror.complete with
  | some m => m.mapCrc = x.mapCrc ∧ m.slotCrc = x.slotCrc
  | none => false

/-- Ready under R211, with the comparison of its latest boundary (R224). At the release of its kill a die is not; it can be again from its next lamp-cycle boundary on (R218,
DESIGN CHOICE, log entry 65). -/
def State.dieReady (s : State) (d : Die) : Bool :=
  let x := s.die d
  x.store.feedOk && x.store.ready && x.gateSupply && !x.killed && !x.settling && s.mirrorOk d && x.mirror.agrees && x.mirror.differ < 8

/-- MODE of a lamp die (Table 8.1): 0x0 BOOT to 0x8 SHUTDOWN. -/
def State.dieMode (s : State) (d : Die) : BitVec 4 :=
  let x := s.die d
  if x.killed then 6
  else if !x.bootDone then 0
  else if x.failed then 7
  else if x.shutdown then 8
  else if x.grant then (if x.cd.fallback then 5 else if x.cd.holding then 4 else 3)
  else if s.dieReady d then 1
  else 2

def State.dieState (s : State) (d : Die) : Byte :=
  let x := s.die d
  (s.dieMode d ++ 0#4) ||| flag x.store.feedOk 3 ||| flag x.store.ready 2 ||| flag (s.mirrorOk d) 1
    ||| flag (!s.cdGone d) 0

def byteMode (st : Byte) : BitVec 4 := st.extractLsb' 4 4

/-- FEED_OK and STORE_READY of a STATE byte. -/
def byteFeed (st : Byte) : Bool := st.getLsbD 3

def byteStore (st : Byte) : Bool := st.getLsbD 2

/-- A MODE that Table 8.1 gives the sender; a receiver takes no bit of a byte with another MODE (R210). -/
def modeKnown (st : Station) (b : Byte) : Bool :=
  match st with
  | .lamp _ => (byteMode b).toNat ≤ 8
  | .ref => (byteMode b).toNat ≤ 4
  | .cd => (byteMode b).toNat ≤ 3
  | .ld => (byteMode b).toNat ≤ 2

/-! ### The STATE bytes of REF, the CD and the LD (Table 8.1) -/

def GrantState.mode : GrantState → BitVec 4
  | .boot => 0
  | .noGrant => 4
  | .granted .la => 1
  | .granted .lb => 2
  | .withdrawing _ _ _ _ _ => 3
  | .granting _ _ _ _ _ => 3

def Ref.state (r : Ref) : Byte := (r.grant.mode ++ 0#4) ||| flag r.killA 3 ||| flag r.killB 2

def ControlDie.state (c : ControlDie) : Byte :=
  if c.lastWord || c.goingDark then 0x30 else if c.frost then 0x20 else if 6 ≤ c.milestone.toNat then 0x10 else 0x00

/-- HOLDOVER under R118; SYNCED while the LD follows a source or is itself position 1; UNSYNCED before (DEDUCED, log entry 53). -/
def LineDie.state (l : LineDie) : Byte :=
  let first := match l.engine.commit with | some c => decide (c.position = 1) | none => false
  if l.clock.holdover then 0x20 else if l.clock.followed || first then 0x10 else 0x00

/-- The STATE byte a station sends in a HEARTBEAT (R210). -/
def State.stateOf (s : State) : Station → Byte
  | .cd => s.cd.state
  | .ld => s.ld.state
  | .lamp d => s.dieState d
  | .ref => s.ref.state

/-- The DIE_HEALTH payload of a die (Table 8.2). -/
def State.healthOf (s : State) (d : Die) : List Byte :=
  let x := s.die d
  healthBytes (s.dieState d) x.store.feedDv x.darkMask x.reqLit (x.gateSupply && !x.supplyBad) (!x.clockBad)
    (!(s.lend d.timeLink .second).lost) x.orphan x.clock.cycle32

/-- C_M in µF (Table 9.3): 0.97 × a measured C_MEAS, 0.90 × one that comes from the final record (R239). -/
def Store.cm (st : Store) : Nat := (st.cMeas.getD 0) * (if st.cFresh then 97 else 90) / 100

/-! ### The mirror frame of a die (Table 8.8) -/

def Proof.code : Proof → BitVec 2 | .offDuty => 0 | .qualifying => 1 | .proven => 2 | .dark => 3

def DarkKind.code : DarkKind → BitVec 2 | .none => 0 | .current => 1 | .light => 2 | .pattern => 3

def proofOf : BitVec 2 → Proof | 0 => .offDuty | 1 => .qualifying | 2 => .proven | _ => .dark

def kindOf : BitVec 2 → DarkKind | 0 => .none | 1 => .current | 2 => .light | _ => .pattern

/-- CH of one channel (Table 8.8). -/
def Channel.mirrorByte (c : Channel) : Byte :=
  c.proof.code ++ c.kind.code ++ (BitVec.ofNat 3 c.step) ++ (if c.inBurst then 1#1 else 0#1)

def State.mirrorOf (s : State) (d : Die) : MirrorP :=
  let x := s.die d
  { version := 1, driverState := s.dieState d, cycle := x.clock.cycle32, tt := x.clock.boundaryTT,
    reqLit := x.reqLit, epoch := x.epoch, scene := x.scene,
    burstRunning := match x.burst with | some b => b.running | none => false,
    burstWaiting := match x.burst with | some b => !b.running | none => false,
    burstSlot := match x.burst with | some b => b.slot | none => 0,
    burstMask := match x.burst with | some b => b.mask | none => 0,
    burstCycle := match x.burst with | some b => b.start | none => 0,
    alarmSeq := x.alarmSeq, darkMask := x.darkMask, provenMask := x.maskOf .proven, qualMask := x.maskOf .qualifying,
    ch := (List.finRange 12).map fun c => (x.chan c).mirrorByte,
    mapCrc := x.mapCrc, slotCrc := x.slotCrc, pendingCount := BitVec.ofNat 16 x.held.length,
    cdLost := x.cd.lost, holding := x.cd.holding, fallback := x.cd.fallback,
    holdLeft := if x.cd.holding then BitVec.ofNat 16 ((x.cd.holdUntil - s.now) / cycleNs) else 0,
    vStore := BitVec.ofNat 16 (x.store.storeMv / 10), cStore := BitVec.ofNat 16 x.store.cm,
    eAvail := BitVec.ofNat 32 x.store.eAvail, eCommit := BitVec.ofNat 32 x.store.eCommit }

/-! ### REF's view of a die (R215, R216) -/

/-- A standby MODE with FEED_OK = 1, as R215 asks for. -/
def RefView.grantable (v : RefView) : Bool :=
  v.seen && (byteMode v.state = 1 || byteMode v.state = 2) && byteFeed v.state

/-- Ready under R211, as the die's last STATE byte shows it. -/
def RefView.ready (v : RefView) : Bool := v.seen && byteMode v.state = 1

end Sys2Proof.Machine
end

