-- ==== Sys2Proof/Machine/Pilot.lean ====
section
/-! DEFINITION. The pilot of a lit channel (R155, R156, R166) and its recovery from the photodiode (R185): carriers, Walsh
chips, the node sign, the modulated current target, and the light amplitude of a window. -/

namespace Sys2Proof.Machine

/-- +1 or −1. -/
def sgn (plus : Bool) : Int := if plus then 1 else -1

/-- Lamp-clock cycles of one pilot period (R155). -/
def pilotClocks : Nat := 2000

/-- The carrier at a lamp-clock cycle of its period: I is +1 in the first half, Q from one quarter to three quarters. -/
def carrier (q : Bool) (clk : Nat) : Int := sgn (if q then 500 ≤ clk && clk < 1500 else clk < 1000)

/-- The chips w(0) to w(3) of a signature (Table 6.2); true is +1. -/
def chipsOf (sig : BitVec 3) : List Bool :=
  match (sig.extractLsb' 0 2 : BitVec 2) with
  | 0 => [true, true, true, true]
  | 1 => [true, false, true, false]
  | 2 => [true, true, false, false]
  | _ => [true, false, false, true]

/-- Chip of a pilot period; periods 4 and 5 of a long cycle carry the chips of 0 and 1 (R166). -/
def chip (sig : BitVec 3) (k : Nat) : Int := sgn ((chipsOf sig).getD (k % 4) true)

/-- Signatures 4 to 7 are on carrier Q. -/
def onCarrierQ (sig : BitVec 3) : Bool := sig.getLsbD 2

/-- The parity of a word is even. -/
def evenParity (w : Word) : Bool := (List.range 32).foldl (fun p i => p != w.getLsbD i) true

/-- K: the identity's bits [31:0] OR 1; 1 before the first IDENTITY since the die's reset. -/
def LampDie.pilotKey (x : LampDie) : Word :=
  match x.identity with
  | some id => id.extractLsb' 0 32 ||| 1
  | none => 1

/-- s(N). -/
def nodeSign (k n : Word) : Int := sgn (evenParity (n &&& k))

/-- p(t) in lamp cycle N, `clk` lamp-clock cycles after its boundary: s(N) × w(k) × c(t). -/
def pilot (key n : Word) (sig : BitVec 3) (clk : Nat) : Int :=
  nodeSign key n * chip sig (clk / pilotClocks) * carrier (onCarrierQ sig) (clk % pilotClocks)

/-- The modulated target of R155 in units of 1/800 of a SETPOINT step: I_t × (1 + (d ÷ 2) × p), with d = PILOT_DEPTH × 0.25%.
An off step carries no pilot. -/
def LampDie.modulated (x : LampDie) (c : Chan) (clk : Nat) : Int :=
  let e := x.entry c
  (x.chan c).target * (800 + e.pilotDepth.toNat * pilot x.pilotKey x.clock.cycle32 e.signature clk)

/-- The sixteen quarter periods of a window that closes in lamp cycle N, as cycle number and lamp-clock cycle: those of cycle N
at its end, or the last eight of the cycle before and the first eight of N at its middle (R186). -/
def windowQuarters (n : Word) (mid : Bool) : List (Word × Nat) :=
  (List.range 16).map fun q =>
    if mid then (if q < 8 then (n - 1, 4000 + 500 * q) else (n, 500 * (q - 8))) else (n, 500 * q)

/-- A = (1 ÷ T) × ∫ i(t) × r(t) dt, in pA, of the mean photocurrents of the quarter periods: r(t) is constant in each of them. An
amplitude against the pilot's sign is none (DEDUCED, log entry 68). -/
def amplitude (key n : Word) (sig : BitVec 3) (mid : Bool) (photo : List Int) : Nat :=
  (((windowQuarters n mid).zipIdx.foldl (fun a v => a + photo.getD v.2 0 * pilot key v.1.1 sig v.1.2) 0) / 16).toNat

/-- The light amplitude of a channel's window on a die. -/
def LampDie.lightOf (x : LampDie) (c : Chan) (mid : Bool) (photo : List (List Int)) : Nat :=
  amplitude x.pilotKey x.clock.cycle32 (x.entry c).signature mid (photo.getD c.val [])

end Sys2Proof.Machine
end

