-- ==== Sys2Proof/Machine/Gates.lean ====
section
/-! DEFINITION. The gate outputs x_GHn and x_GLn of every channel (Table 6.1, R148, R149, R150, R153, R154, R209): what they are at a
moment, as the state gives it. Moments are in eighths of a nanosecond, of which the lamp clock has 125. -/

namespace Sys2Proof.Machine

/-- The two gate outputs of a channel. In LINEAR mode `low` is the gate of the pass transistor, driven by the current loop. -/
structure Gates where
  high : Bool
  low : Bool
  deriving DecidableEq, Repr

def Gates.off : Gates := ⟨false, false⟩

def lampClock8 : Nat := 125

/-- A switching period of 64 MHz ÷ FSW_DIV (R149). -/
def period8 (e : MapEntry) : Nat := e.fswDiv.toNat * lampClock8

/-- The dead time (DEAD_TIME + 1) × 10 ns (R149). -/
def dead8 (e : MapEntry) : Nat := (e.deadTime.toNat + 1) * 80

/-- The delay of channel n's grid from that of channel 0: n ÷ 12 of a switching period, rounded to a lamp-clock cycle (R149). -/
def delay8 (e : MapEntry) (c : Chan) : Nat := (2 * c.val * e.fswDiv.toNat + 12) / 24 * lampClock8

/-- The gate edge that begins a change lies 40 ns ± 25 ns after the boundary (R154): where in that band it lies is left open. -/
def edge8 (n : Nat) : Nat := 8 * (15 + Config.edgeNs n % 51)

/-- The next edge of a switching grid at or after a moment. -/
def gridEdge (origin period at_ : Nat) : Nat := at_ + (period - (at_ + period - origin % period) % period) % period

/-- The gates in a switching period, `v` after its start: the high side for its on time, then the low side, with the dead time
before and after it. The on time is what the regulation of R151 makes it. -/
def buckGates (period dead onTime v : Nat) : Gates :=
  let t := min onTime (period - 2 * dead)
  ⟨v < t, t + dead ≤ v && v + dead < period⟩

/-- A BUCK channel: a switching period at its first gate edge, then the periods of its grid (R154, R220). Where channel 0's grid
lies is left open. -/
def LampDie.buckAt (x : LampDie) (c : Chan) (onTime at_ : Nat) : Gates :=
  let e := x.entry c
  let start := 8 * (x.chan c).edgeAt + edge8 (x.chan c).edgeAt
  let joined := gridEdge (Config.gridOrigin e.fswDiv.toNat + delay8 e c) (period8 e) start
  if at_ < start then .off
  else if at_ < joined then buckGates (period8 e) (dead8 e) onTime (at_ - start)
  else buckGates (period8 e) (dead8 e) onTime ((at_ - joined) % (period8 e))

/-- The channel is driven: the gates are enabled, and its step is on, neither cut nor latched off. -/
def LampDie.driven (x : LampDie) (c : Chan) : Bool :=
  x.gate && x.canLight c && (x.chan c).target ≠ 0 && !(x.chan c).cutNow && !(x.chan c).latched

/-- The gate outputs of a channel at a moment of its present cycle, with the on time of the regulation. -/
def LampDie.gatesAt (x : LampDie) (c : Chan) (onTime at_ : Nat) : Gates :=
  if x.driven c then (if (x.entry c).mode = 2 then ⟨false, true⟩ else x.buckAt c onTime at_)
  else if x.gate && (x.chan c).wheel then ⟨false, true⟩
  else .off

end Sys2Proof.Machine
end

