-- ==== Sys2Proof/Machine/LampOps.lean ====
section
/-! DEFINITION. The lamp die's operations: what a channel shows in a cycle (R164, R227, R248, R304), the energy model
(Table 9.3), declarations and alarm records (R181, R200), the proving loop (R195, R196), loss of the CD (R226) and the
shutdown of a spent store (R249). -/

namespace Sys2Proof

/-! ### Pattern slots (R161, R164) -/

def Slot.live (v : Slot) : List Half := v.steps.take v.count

end Sys2Proof

namespace Sys2Proof.Machine

def stepOn (w : Half) : Bool := stepKind w = 1 || stepKind w = 2

def slotPeriod (v : Slot) : Nat := v.live.foldl (fun a w => a + stepDur w) 0

def slotHasOn (v : Slot) : Bool := v.live.any stepOn

/-- The step in which a phase falls, counting from φ = 0: its index and its word. -/
def stepIn : List Half → Nat → Nat → Nat × Half
  | [], _, i => (i, 0)
  | w :: r, ph, i => if ph < stepDur w then (i, w) else stepIn r (ph - stepDur w) (i + 1)

def slotAt (v : Slot) (n : Nat) : Nat × Half := stepIn v.live (n % slotPeriod v) 0

/-! ### What a die shows -/

/-- The driver: it holds the grant and is not killed (R33, R218). -/
def LampDie.drives (x : LampDie) : Bool := x.grant && !x.killed

/-- Fallback or the Frost set: slot 0 at SETPOINT (R227, R304). -/
def LampDie.fixed (x : LampDie) : Bool := x.cd.fallback || x.cd.frost

/-- The last-light set (R248): required end-marker channels of the entries in force. -/
def LampDie.lastSet (x : LampDie) (c : Chan) : Bool :=
  let e := x.entry c
  x.required c && (e.role = 2 || e.role = 3 || e.role = 4)

/-- The die is in LAST or beyond. -/
def Store.inLast (st : Store) : Bool := match st.phase with | .last => true | .finish => true | .off => true | _ => false

/-- The channels a die lights: from the first boundary in LAST only the last-light set. -/
def LampDie.duty (x : LampDie) (c : Chan) : Bool :=
  if x.store.inLast && x.store.lastAt ≤ x.clock.boundaryAt then x.lastSet c else x.required c

def LampDie.slotOf (x : LampDie) (c : Chan) : Slot :=
  if x.fixed then slotSteady else x.slots[(x.entry c).slot.toNat]

/-- The target of a step word on a channel: KIND, DIM of the scene (R167), and LL_LEVEL in LAST. In fallback and in Frost a
channel shows SETPOINT, but for a burst that still runs (R227). -/
def LampDie.targetOf (x : LampDie) (c : Chan) (inBurst : Bool) (w : Half) : Nat :=
  let e := x.entry c
  if !stepOn w then 0
  else if x.store.inLast && x.store.lastAt ≤ x.clock.boundaryAt then
    (if x.store.policy.llLow then e.setpointLow.toNat else e.setpoint.toNat)
  else if x.fixed && !inBurst then e.setpoint.toNat
  else if stepKind w = 2 || (bitOf x.scene 0 && e.dimEn) then e.setpointLow.toNat
  else e.setpoint.toNat

/-- What a channel shows: index of the step, target (0 in an off step), whether it is in a burst. -/
structure Shown where
  step : Nat
  target : Nat
  inBurst : Bool
  deriving DecidableEq, Repr

def LampDie.burstOn (x : LampDie) (c : Chan) : Option Burst :=
  match x.burst with
  | some b => if b.running && inMask b.mask c then some b else none
  | none => none

/-- A burst runs on the die. -/
def LampDie.bursting (x : LampDie) : Bool := match x.burst with | some b => b.running | none => false

/-- The step and target of a channel in cycle n (R164, R170). -/
def LampDie.shown (x : LampDie) (c : Chan) (n : Nat) : Shown :=
  if !x.duty c then ⟨0, 0, false⟩
  else match x.burstOn c with
    | some b =>
      let (i, w) := slotAt b.steps ((BitVec.ofNat 32 n : Word) - b.start).toNat
      ⟨i, x.targetOf c true w, true⟩
    | none =>
      let (i, w) := slotAt (x.slotOf c) (n + (x.entry c).offset.toNat)
      ⟨i, x.targetOf c false w, false⟩

/-! ### The energy model (Table 9.3): energies in µJ unless said otherwise -/

/-- W_n of one cycle in nJ: P_n × K × (TGT ÷ SETPOINT) × 125 µs, with K in units of 1/1,024. -/
def LampDie.chanNj (x : LampDie) (c : Chan) (k target : Nat) : Nat :=
  let e := x.entry c
  if target = 0 || e.setpoint = 0 then 0
  else (x.store.policy.p.getD c.val 0) * 125 * k * target / (1024 * e.setpoint.toNat)

def sumChans (f : Chan → Nat) : Nat := (List.finRange 12).foldl (fun a c => a + f c) 0

/-- Σ W_n of cycle n in nJ. -/
def LampDie.cycleNj (x : LampDie) (k n : Nat) : Nat := sumChans fun c => x.chanNj c k (x.shown c n).target

/-- P_CHG × 125 µs in nJ: CHG_LIMIT × 50 mA × 72.0 V while the feed is present. -/
def Store.chargeNj (st : Store) : Nat := if st.feedOk then st.policy.chgLimit * 3600 * 125 else 0

/-- P_LL in mW. -/
def LampDie.pLl (x : LampDie) : Nat :=
  sumChans fun c =>
    let e := x.entry c
    let t := if x.store.policy.llLow then e.setpointLow.toNat else e.setpoint.toNat
    if x.lastSet c && e.setpoint ≠ 0 then (x.store.policy.p.getD c.val 0) * x.store.k * t / (1024 * e.setpoint.toNat) else 0

/-- E_FINAL: 15 mJ + P_LL × 0.25 ms. -/
def LampDie.eFinal (x : LampDie) : Nat := 15000 + x.pLl / 4

/-- E_RES: (P_LL + 1.00 W) × LAST_LIGHT_TIME + E_FINAL. -/
def LampDie.eRes (x : LampDie) : Nat := (x.pLl + 1000) * (x.store.policy.lastLight * 100) + x.eFinal

/-- V_OC in mV; the discharge current is 0 while the store charges. -/
def Store.voc (st : Store) : Nat :=
  st.storeMv + (if st.charging then 0 else st.dischargeUa * (st.esr.getD 0) / 1000000)

/-- 0.5 × C_M × (V² − STORE_FLOOR²) in µJ at a voltage in mV. -/
def Store.energyAt (st : Store) (mv : Nat) : Nat :=
  let floorMv := st.policy.floorV * 1000
  (st.cMeas.getD 0) * (if st.cFresh then 97 else 90) * (mv * mv - floorMv * floorMv) / 200000000

/-- The remaining energy of a burst from cycle n on, in µJ: each cycle's Σ W_n above P_CHG (R244). -/
def LampDie.burstNeed (x : LampDie) (b : Burst) (n count : Nat) : Nat :=
  let y := { x with burst := some { b with running := true } }
  ((List.range count).foldl (fun a i => a + (y.cycleNj y.store.k (n + i) - y.store.chargeNj)) 0 + 999) / 1000

/-! ### Alarm records (R200, R201) and declarations (R181) -/

def DarkKind.alarm : DarkKind → BitVec 4 | .none => 3 | .current => 1 | .light => 2 | .pattern => 4

/-- A record is built and sent by insertion with a new SEQ; it replaces an older one that still waits (R48). -/
def State.buildAlarm (d : Die) (c : Chan) (kind : BitVec 4) (noReq : Bool) (s : State) : State :=
  let x := s.die d
  let link := (s.lend d.cdLink .second).txSeq + 1
  let e := x.entry c
  let r : AlarmRecord :=
    { kind := kind, channel := BitVec.ofNat 4 c.val, dieB := d = .lb, endAft := e.endAft, late := false, noReq := noReq,
      role := e.role, seq := x.alarmSeq + 1, epoch := x.epoch, darkMask := x.darkMask, tt := s.dieTime d }
  ((s.modDie d fun x => { x with alarmSeq := x.alarmSeq + 1, unacked := some (r, link) }).insertAlarm d link r).modEnd
    d.cdLink .second fun q => { q with txSeq := link }

def State.modChan (d : Die) (c : Chan) (f : Channel → Channel) (s : State) : State := s.modDie d (LampDie.modChan c f)

/-- PL_x closes or opens as R195 and R248 decide. -/
def LampDie.loopClosed (x : LampDie) : Bool :=
  x.powered && x.drives && !x.store.inLast &&
    (List.finRange 12).all fun c => (x.chan c).proof ≠ .dark && (x.chan c).proof ≠ .qualifying

def State.updatePl (d : Die) (s : State) : State := s.modDie d fun x => { x with plClosed := x.loopClosed }

/-- What the light view held of a channel before a switch-over serves one proof of it only (R197). -/
def LampDie.spendView (c : Chan) (x : LampDie) : LampDie :=
  { x with gapViewProven := x.gapViewProven &&& ~~~ ((1 : ChMask) <<< c.val) }

/-- The driver declares a channel dark: the state, the record, the fault and the loop. -/
def State.declareDark (d : Die) (c : Chan) (k : DarkKind) (s : State) : State :=
  let s := ((s.modDie d (LampDie.spendView c)).modChan d c fun h => { h with
    proof := .dark, kind := k, curProven := false, lightProven := false }).buildAlarm d c k.alarm false
  let x := s.die d
  (s.dieRaise d fLampDark (chanSubject d c)
    ([k.alarm.zeroExtend 8] ++ be16 (maskHalf x.darkMask) ++ be16 x.alarmSeq)).updatePl d

/-- A declaration is cleared, into a proof state of the channel, with a CLEARED record. -/
def State.clearDark (d : Die) (c : Chan) (p : Proof) (noReq : Bool) (s : State) : State :=
  ((s.modChan d c fun h => { h with proof := p, kind := .none }).buildAlarm d c 3 noReq).dieClear d fLampDark
    (chanSubject d c)

/-- A channel takes on its duty: QUALIFYING, or PATTERN_DARK where its slot has no on step (R194). -/
def State.qualify (d : Die) (c : Chan) (s : State) : State :=
  if slotHasOn ((s.die d).slotOf c) then
    s.modChan d c fun h => { h with
      proof := .qualifying, kind := .none, lowRun := 0, okRun := 0, curProven := false, lightProven := false }
  else s.declareDark d c .pattern

/-- Table 7.1 at a boundary, for a channel of the driver. -/
def State.dutyStep (d : Die) (c : Chan) (s : State) : State :=
  let x := s.die d
  let p := (x.chan c).proof
  if x.duty c then (if p = .offDuty then s.qualify d c else s)
  else if p = .dark then s.clearDark d c .offDuty true
  else (s.modDie d (LampDie.spendView c)).modChan d c fun h => { h with proof := .offDuty, kind := .none }

/-- A MAP_WRITE or SLOT_WRITE takes effect on a required channel of the driver: the channel returns to QUALIFYING, and a DARK
one, PATTERN_DARK too, sends CLEARED with NOREQ = 1 (R181). R194 lets PATTERN_DARK clear with the next proof; that the record goes
out at the effect boundary, as R181 says of every DARK channel, is the model's reading (DESIGN CHOICE, log entry 69). -/
def State.requalify (d : Die) (c : Chan) (s : State) : State :=
  let x := s.die d
  if x.drives && x.duty c then
    let s := (s.modDie d (LampDie.spendView c)).modChan d c fun h => { h with win1 := none, win2 := none }
    let s := if (x.chan c).proof = .dark then s.clearDark d c .qualifying true else s
    s.qualify d c
  else s

/-! ### Light references (R190, R191) -/

/-- CRC-16 over bytes 0 to 7 of the entry in force. -/
def refCrc (e : MapEntry) : Half := crc16 ((entryBytes e).take 8)

def LampDie.refOk (x : LampDie) (c : Chan) (r : Option LightRef) : Option LightRef :=
  match r with
  | some v => if v.crc = refCrc (x.entry c) then some v else none
  | none => none

def LampDie.ownRef (x : LampDie) (c : Chan) : Option LightRef := x.refOk c (x.chan c).own

def LampDie.crossRef (x : LampDie) (c : Chan) : Option LightRef := x.refOk c (x.chan c).cross

/-- "light uncalibrated" stands while the driver proves a channel without a valid reference (R188). -/
def State.checkUncal (d : Die) (c : Chan) (s : State) : State :=
  let x := s.die d
  let open_ := x.conds.contains (fUncalibrated.code, chanSubject d c)
  let lacks := (x.ownRef c).isNone
  s.dieCond d fUncalibrated (chanSubject d c) [] (lacks && (open_ || (x.drives && x.duty c)))

/-! ### Showing a cycle -/

/-- A channel takes the step and target of the present cycle, with the blanks of Table 7.2. In BUCK mode the low-side gate of a
channel that goes off conducts until the current is zero (R154). -/
def Channel.show (t0 : Nat) (sh : Shown) (setpoint : Nat) (buck : Bool) (h : Channel) : Channel :=
  let was : Bool := h.target ≠ 0
  let is : Bool := sh.target ≠ 0
  let h' := { h with step := sh.step, target := sh.target, inBurst := sh.inBurst, setpoint := setpoint }
  if is && !was then
    { h' with edgeAt := t0, wheel := false, curBlankUntil := max h.curBlankUntil (t0 + us 20),
              lightBlankUntil := max h.lightBlankUntil (t0 + 62500), lowRun := 0, okRun := 0, curProven := false,
              lightProven := false, litRun := 0, win1 := none, win2 := none }
  else if is && h.target ≠ sh.target then
    { h' with curBlankUntil := max h.curBlankUntil (t0 + us 20), lightBlankUntil := max h.lightBlankUntil t0 }
  else if was && !is then
    { h' with lowRun := 0, okRun := 0, litRun := 0, litRaised := false, win1 := none, win2 := none,
              wheel := buck && !h.cutNow && !h.latched }
  else h'

/-- A channel that is not required lit takes no further part in a burst that waits or runs, and its mask never widens (R171). -/
def LampDie.narrowBurst (x : LampDie) : LampDie :=
  match x.burst with
  | some b => { x with burst := some { b with mask := b.mask &&& x.requiredMask } }
  | none => x

def LampDie.showAll (y : LampDie) : LampDie :=
  let x := y.narrowBurst
  x.mapChans fun c h =>
    let v := h.show x.clock.boundaryAt (x.shown c x.clock.cycle) (x.entry c).setpoint.toNat ((x.entry c).mode = 1 && x.gate)
    if x.duty c then v else { v with viewProven := false, viewDark := false }

/-- The die shows its present cycle; the driver's proof states follow its duty. -/
def State.showCycle (d : Die) (s : State) : State :=
  let s := s.modDie d LampDie.showAll
  let s := if (s.die d).drives then (List.finRange 12).foldl (fun t c => t.dutyStep d c) s else s
  ((List.finRange 12).foldl (fun t c => t.checkUncal d c) s).updatePl d

/-! ### Loss of the control die (R226 to R228) -/

/-- The die treats the CD as lost: the hold begins, unless it holds or falls back already. -/
def State.loseCd (d : Die) (s : State) : State :=
  let x := s.die d
  if x.cd.lost then s
  else s.modDie d fun x => { x with cd :=
    if x.cd.holding || x.cd.fallback then { x.cd with lost := true }
    else { x.cd with lost := true, holding := true, holdUntil := s.now + x.hold * ms 125, fallbackDue := false } }

/-- The CD is back: the first STATE command accepted from here on ends hold or fallback at its effect boundary. -/
def State.regainCd (d : Die) (s : State) : State :=
  s.modDie d fun x => { x with cd := { x.cd with lost := false, leaveFrom := x.heldCount } }

def LampDie.fallbackMask (x : LampDie) : ChMask :=
  chMaskOf fun c => (x.fuse c).fem || ((x.ownEntry c).enable && (x.ownEntry c).role = 5)

def LampDie.frostMask (x : LampDie) : ChMask := chMaskOf fun c => (x.fuse c).fem

/-- A waiting burst is dropped; a running one runs on. -/
def LampDie.dropWaiting (x : LampDie) : LampDie :=
  match x.burst with
  | some b => if b.running then x else { x with burst := none, store := { x.store with eCommit := 0 } }
  | none => x

def LampDie.takeFallback (x : LampDie) : LampDie :=
  let y := x.dropWaiting
  { y with reqLit := x.fallbackMask, scene := 0,
           cd := { x.cd with holding := false, fallbackDue := false, fallback := true, frost := false } }

def LampDie.takeFrost (x : LampDie) : LampDie :=
  let y := x.dropWaiting
  { y with reqLit := x.frostMask, scene := 0,
           cd := { x.cd with holding := false, fallbackDue := false, fallback := false, frostDue := false, frost := true,
                             frostLeft := false } }

/-! ### DIE_HEALTH (R213) -/

/-- What a DIE_HEALTH goes out for at once when it changes: the STATE byte and the DARK mask (R213). -/
def State.healthKey (s : State) (d : Die) : Byte × ChMask := (s.dieState d, (s.die d).darkMask)

/-- The REPORT goes to REF and to the CD. -/
def State.sendHealth (d : Die) (s : State) : State :=
  let p := s.healthOf d
  let k := s.healthKey d
  ((s.sendLink d.refLink .second (.report p)).sendLink d.cdLink .second (.report p)).modDie d fun x =>
    { x with healthSent := some k, healthLast := p, healthAt := s.now }

/-! ### Gates and DRIVE (R209) -/

/-- The die can open its gates: it has its gate-drive supply, has started and has not failed or shut down. -/
def LampDie.canGate (x : LampDie) : Bool := x.powered && x.gateSupply && x.bootDone && !x.failed && !x.shutdown

/-- The gap of a switch-over begins at the withdrawal of the old grant: both dies' samples and windows are blanked until
20 µs after the incoming die's first gate edge (R193, R220). -/
def State.beginGap (s : State) : State :=
  (s.modDie .la fun x => { x with gapBlank := true }).modDie .lb fun x => { x with gapBlank := true }

/-- The incoming die's first gate edge. -/
def State.endGap (s : State) : State :=
  let edge := fun x : LampDie => { x.mapChans fun _ h => { h with
    edgeAt := s.now, curBlankUntil := max h.curBlankUntil (s.now + us 20),
    lightBlankUntil := max h.lightBlankUntil (s.now + us 20) } with gapBlank := false }
  (s.modDie .la edge).modDie .lb edge

/-- The gates open, and a gap ends with the first gate edge. -/
def State.openGates (d : Die) (s : State) : State :=
  if (s.die d).canGate then ((s.modDie d fun x => { x with gate := true }).drive d.driveLink (some true)).endGap else s

def State.closeGates (d : Die) (s : State) : State :=
  (s.modDie d fun x => { x.mapChans fun _ h => { h with wheel := false } with gate := false }).drive d.driveLink (some false)

/-- A die that no longer drives keeps no proof states and no closed loop (R180). -/
def LampDie.standDown (x : LampDie) : LampDie :=
  let y := x.mapChans fun _ h => { h with proof := .offDuty, kind := .none, lowRun := 0, okRun := 0, curProven := false,
                                          lightProven := false, litRun := 0, cal := [] }
  { y with plClosed := false, gapViewProven := 0, orphan := false }

/-! ### The spent store (R249, R251) -/

/-- The final record in force: the slot whose CRC passes and whose COUNT is newer (R251). -/
def Store.finalNow (st : Store) : Option FinalRecord :=
  let good := fun r : Option FinalRecord => match r with | some v => if v.crcOk then some v else none | none => none
  match good st.finalA, good st.finalB with
  | some a, some b => if newer16 b.count a.count then some b else some a
  | some a, none => some a
  | none, some b => some b
  | none, none => none

/-- The record of Table 9.6 as the point of no return finds it. LAST ends where the store is spent (R249). An ESR not measured yet
is written as 0xFFFF, which is no valid ESR (R238; DESIGN CHOICE, log entry 70). -/
def State.finalOf (s : State) (d : Die) : FinalRecord :=
  let x := s.die d
  let st := x.store
  { version := 1, cause := st.spentCause, count := (match st.finalNow with | some r => r.count | none => 0) + 1,
    tt := s.dieTime d, cMeas := BitVec.ofNat 16 (st.cMeas.getD 0), esr := BitVec.ofNat 16 (st.esr.getD 65535),
    cInitial := BitVec.ofNat 16 (st.cInitial.getD 0), esrInitial := BitVec.ofNat 16 (st.esrInitial.getD 65535),
    k := BitVec.ofNat 16 st.k,
    lastMs := if st.spentCause = 3 then 0 else BitVec.ofNat 16 (min 65535 ((st.spentAt.getD s.now - st.lastAt) / ms 1)),
    darkMask := x.darkMask, dips := BitVec.ofNat 16 (min 65535 st.dips), crcOk := true }

/-- Steps 2 and 3: gates low, SHUTDOWN, and the record write begins. -/
def State.beginShutdown (d : Die) (s : State) : State :=
  let r := s.finalOf d
  ((s.modDie d fun x => { x with
    shutdown := true, plClosed := false, store := { x.store with writing := some r } }).closeGates d)

/-- The store is spent: STORE_READY falls and DIE_HEALTH goes out; a standby shuts down at once. -/
def State.spendStore (d : Die) (cause : Byte) (s : State) : State :=
  let x := s.die d
  match x.store.phase with
  | .finish => s
  | .off => s
  | _ =>
    let s := s.modStore d fun st => { st with
      phase := .finish, phaseAt := s.now, ready := false, spentAt := some s.now, spentCause := cause,
      lastAt := if st.phase = .last then st.lastAt else s.now }
    let s := (s.updatePl d).sendHealth d
    if x.drives then s else s.beginShutdown d

end Sys2Proof.Machine
end

