-- ==== Sys2Proof/Machine/Galois.lean ====
section
/-! DEFINITION. The RS(544,514) code of R82: the field GF(2^10), the generator polynomial, the systematic encoder, and a
decoder that corrects up to 15 symbols. A codeword is its 544 symbols in the order in which they are sent; the first is the
coefficient of x^543. -/

namespace Sys2Proof.Machine

/-- An element of GF(2^10). -/
abbrev Gf := BitVec 10

/-- Multiplication by α, a root of x^10 + x^3 + 1. -/
def gfTimesAlpha (a : Gf) : Gf := if a.getLsbD 9 then (a <<< 1) ^^^ 9 else a <<< 1

/-- a × b: the sum of a × α^i over the bits i of b. -/
def gfMul (a b : Gf) : Gf :=
  ((List.range 10).foldl (fun (r : Gf × Gf) i => (if b.getLsbD i then r.1 ^^^ r.2 else r.1, gfTimesAlpha r.2)) (0, a)).1

/-- α^n. -/
def alpha (n : Nat) : Gf := (List.range (n % 1023)).foldl (fun a _ => gfTimesAlpha a) 1

/-- a^(2^k − 2) by squaring: the inverse of a nonzero element. -/
def gfInv (a : Gf) : Gf :=
  ((List.range 9).foldl (fun (r : Gf × Gf) _ => let q := gfMul r.2 r.2; (gfMul r.1 q, q)) (1, a)).1

/-! ### Polynomials, lowest coefficient first -/

def polyAdd : List Gf → List Gf → List Gf
  | [], q => q
  | p, [] => p
  | a :: p, b :: q => (a ^^^ b) :: polyAdd p q

def polyScale (c : Gf) (p : List Gf) : List Gf := p.map (gfMul c)

def polyShift (n : Nat) (p : List Gf) : List Gf := List.replicate n 0 ++ p

def polyMul (p q : List Gf) : List Gf :=
  p.zipIdx.foldl (fun r v => polyAdd r (polyShift v.2 (polyScale v.1 q))) []

def polyEval (x : Gf) (p : List Gf) : Gf := p.foldr (fun c a => gfMul a x ^^^ c) 0

/-! ### Encoding -/

/-- g(x) = (x − α^0)(x − α^1) ··· (x − α^29). -/
def rsGenerator : List Gf := (List.range 30).foldl (fun g i => polyMul g [alpha i, 1]) [1]

/-- A polynomial below degree 30 as one number, ten bits for each coefficient, the lowest in the lowest bits. -/
def packGf (p : List Gf) : BitVec 300 := (p.take 30).foldr (fun c r => (r <<< 10) ||| c.zeroExtend 300) 0

/-- α^k × (g(x) − x^30), for the ten bits of a symbol. -/
def rsTaps : List (BitVec 300) := (List.range 10).map fun k => packGf (polyScale (alpha k) (rsGenerator.take 30))

/-- One symbol enters the division by g(x): the remainder moves up, and what leaves it at the top comes back times g. -/
def rsStep (r : BitVec 300) (sym : Gf) : BitVec 300 :=
  let top : Gf := r.extractLsb' 290 10 ^^^ sym
  rsTaps.zipIdx.foldl (fun a v => if top.getLsbD v.2 then a ^^^ v.1 else a) (r <<< 10)

/-- The remainder of m(x) × x^30 divided by g(x). -/
def rsRemainder (m : List Gf) : BitVec 300 := m.foldl rsStep 0

/-- Its thirty coefficients, the highest first. -/
def paritySymbols (r : BitVec 300) : List Gf := (List.range 30).map fun i => r.extractLsb' (290 - 10 * i) 10

/-- The codeword of 514 message symbols: the message, then 30 parity symbols. -/
def rsEncode (m : List Gf) : List Gf := m ++ paritySymbols (rsRemainder m)

/-! ### Decoding -/

/-- The syndromes S_0 to S_29 of 544 received symbols: the values at α^0 to α^29. They are those of the remainder of r(x) ÷ g(x),
which the encoder's division gives for the first 514 symbols, plus the 30 that follow. -/
def rsSyndromes (r : List Gf) : List Gf :=
  let rem := ((paritySymbols (rsRemainder (r.take 514))).zipWith (· ^^^ ·) (r.drop 514)).reverse
  (List.range 30).map fun i => polyEval (alpha i) rem

/-- The registers of the Berlekamp–Massey iteration: the locator, the locator before its last change of length, that length, the
shift since then, and the inverse of the discrepancy there. -/
structure Locator where
  poly : List Gf
  prev : List Gf
  len : Nat
  shift : Nat
  inv : Gf
  deriving DecidableEq, Repr

def Locator.next (syn : List Gf) (l : Locator) (n : Nat) : Locator :=
  let d := (List.range (l.len + 1)).foldl (fun a i => a ^^^ gfMul (l.poly.getD i 0) (syn.getD (n - i) 0)) 0
  if d = 0 then { l with shift := l.shift + 1 }
  else
    let p := polyAdd l.poly (polyShift l.shift (polyScale (gfMul d l.inv) l.prev))
    if 2 * l.len ≤ n then { poly := p, prev := l.poly, len := n + 1 - l.len, shift := 1, inv := gfInv d }
    else { l with poly := p, shift := l.shift + 1 }

def rsLocator (syn : List Gf) : Locator := (List.range 30).foldl (Locator.next syn) ⟨[1], [1], 0, 1, 1⟩

/-- The formal derivative in characteristic 2. -/
def polyDeriv (p : List Gf) : List Gf := (p.drop 1).zipIdx.map fun v => if v.2 % 2 = 0 then v.1 else 0

/-- The inverses of the 544 locations, in the order of the symbols: α^−543 to α^0. -/
def inverseLocations : List Gf :=
  ((List.range 543).foldl (fun (a : List Gf × Gf) _ => let x := gfTimesAlpha a.2; (x :: a.1, x)) ([alpha 480], alpha 480)).1.reverse

/-- The error at each symbol, by Forney's formula: 0 where the locator has no root. -/
def rsErrors (syn : List Gf) (loc : List Gf) : List Gf :=
  let omega := (polyMul syn loc).take 30
  let deriv := polyDeriv loc
  inverseLocations.map fun x =>
    if polyEval x loc = 0 then gfMul (gfInv x) (gfMul (polyEval x omega) (gfInv (polyEval x deriv))) else 0

/-- Decodes 544 received symbols: the codeword within 15 symbols of them and how many it corrects, none where there is no such
codeword. What it answers is a codeword, whatever the search found. -/
def rsDecode (r : List Gf) : Option (List Gf × Nat) :=
  if r.length ≠ 544 then none
  else
    let syn := rsSyndromes r
    if syn.all (fun x => x = 0) then some (r, 0)
    else
      let err := rsErrors syn (rsLocator syn).poly
      let c := r.zipWith (· ^^^ ·) err
      let n := err.countP fun x => x ≠ 0
      if n ≤ 15 && (rsSyndromes c).all (fun x => x = 0) then some (c, n) else none

end Sys2Proof.Machine
end

