-- ==== Sys2Proof/Machine/LineBytes.lean ====
section
/-! DEFINITION. Line frames as bytes: the header of Table 4.3, the payload layouts of Table 4.5 (R89), both checks of R86, and
reading a frame back with the tests of R88. Reserved fields are written as 0 and not acted on (R306). -/

namespace Sys2Proof.Machine

/-! ### Classes (Table 4.4) -/

def lineClass : LineBody → BitVec 4
  | .alarm _ => 1 | .time _ => 2 | .credit _ => 3 | .front _ => 4 | .commit _ => 5
  | .lampSync _ => 6 | .beacon _ => 7 | .mgmt _ => 8 | .carried _ => 9

/-- SCOPE: 0 hop, 1 addressed, 2 flood. A CARRIED frame is addressed where it has a destination. -/
def lineScope (f : LineFrame) : BitVec 2 :=
  match f.body with
  | .time _ => 0 | .credit _ => 0 | .front _ => 0
  | .commit c => if c.phase1 then 2 else 0
  | .alarm _ => 2 | .lampSync _ => 2 | .beacon _ => 2
  | .mgmt _ => 1
  | .carried _ => if f.hdr.dst = 0 then 2 else 1

/-- The scopes a class may have. -/
def scopeAllowed (cls : BitVec 4) (scope : BitVec 2) : Bool :=
  match cls.toNat with
  | 1 => scope = 2 | 2 => scope = 0 | 3 => scope = 0 | 4 => scope = 0 | 5 => scope = 0 || scope = 2
  | 6 => scope = 2 | 7 => scope = 2 | 8 => scope = 1 | 9 => scope = 1 || scope = 2
  | _ => false

/-- Least and greatest LEN of a class; a reserved class has none. -/
def lenRange (cls : BitVec 4) : Option (Nat × Nat) :=
  match cls.toNat with
  | 1 => some (24, 24) | 2 => some (24, 24) | 3 => some (8, 8) | 4 => some (32, 32) | 5 => some (32, 32)
  | 6 => some (16, 16) | 7 => some (16, 16) | 8 => some (16, 272) | 9 => some (68, 1526)
  | _ => none

/-! ### Payloads (Table 4.5) -/

def bit1 (b : Bool) : BitVec 1 := if b then 1 else 0

def timeBytes (t : TimeP) : List Byte :=
  be64 t.tt ++ [t.steps.zeroExtend 8, flag t.echoReq 7 ||| flag t.echo 6 ||| flag t.holdover 5 ||| flag t.stepped 4]
    ++ be16 t.echoSeq ++ be32 t.t2 ++ be32 t.t3 ++ zeros 4

def frontBytes (f : FrontP) : List Byte :=
  be48 f.leadId ++ be16 f.newEpoch ++ [f.nextPos.zeroExtend 8, roundFlagsByte f.flags, 0, 0] ++ be48 f.senderId
    ++ [bit1 f.sentAft ++ bit1 f.sentSkip ++ f.senderPos, 0] ++ be64 f.ghosts ++ zeros 4

def commitBytes (c : CommitP) : List Byte :=
  be48 c.leadId ++ be16 c.newEpoch ++ [bit1 c.phase1 ++ 0#1 ++ c.lastPos, roundFlagsByte c.flags, 0, 0] ++ be48 c.tailId
    ++ [0, 0] ++ be64 c.ghosts ++ be32 c.switchCycle

def lampSyncBytes (l : LampSyncP) : List Byte :=
  be32 l.cycle ++ [l.scene, bit1 l.burstValid ++ 0#3 ++ l.burstSlot, 0, 0] ++ be32 l.burstCycle ++ zeros 4

def beaconBytes (b : BeaconP) : List Byte :=
  be48 b.nodeId ++ [b.position.zeroExtend 8, b.stateCode ++ bit1 b.hostAbsent ++ bit1 b.broken ++ 0#2, b.fenced ++ b.up,
    b.cplFore ++ b.cplAft ++ bit1 b.cab ++ bit1 b.noCab ++ 0#2, bit1 b.txAft ++ bit1 b.txSkip ++ 0#6] ++ zeros 5

def mgmtBytes (m : MgmtP) : List Byte :=
  [m.op, m.tag.zeroExtend 8, m.target, m.result] ++ be32 m.address ++ be16 m.count ++ zeros 6 ++ m.data

def linePayload : LineBody → List Byte
  | .alarm a => be48 a.srcId ++ [flag a.isRepeat 7 ||| flag a.beaconCopy 6, 0] ++ alarmBytes a.record
  | .time t => timeBytes t
  | .credit c => be16 c.cAcc ++ be16 c.cFree ++ be16 c.mAcc ++ be16 c.mFree
  | .front f => frontBytes f
  | .commit c => commitBytes c
  | .lampSync l => lampSyncBytes l
  | .beacon b => beaconBytes b
  | .mgmt m => mgmtBytes m
  | .carried c => [if c.iface = .twin then 1 else 0, 0, 0, 0] ++ c.frame

/-! ### A frame on the line (Table 4.3, R86) -/

/-- Bytes 0 to 9 of the header, over which HCS is computed. -/
def lineHead (f : LineFrame) : List Byte :=
  [lineClass f.body ++ 1#4, lineScope f ++ f.hdr.src, f.hdr.dst.zeroExtend 8, f.hdr.ttl] ++ be16 f.hdr.epoch
    ++ be16 (BitVec.ofNat 16 (linePayload f.body).length) ++ be16 f.hdr.seq

/-- Header and payload, over which FCS is computed. -/
def lineCore (f : LineFrame) : List Byte := (lineHead f) ++ be16 (crc16 (lineHead f)) ++ (linePayload f.body)

def lineBytes (f : LineFrame) : List Byte := lineCore f ++ be32 (crc32c (lineCore f))

/-! ### Reading (R88) -/

/-- LEN of a header whose check, class, version, scope and length all hold; none is a header error. -/
def headerLen (b : List Byte) : Option Nat :=
  let cls : BitVec 4 := (byteAt b 0).extractLsb' 4 4
  let n := (half b 6).toNat
  match lenRange cls with
  | some (lo, hi) =>
    if crc16 (slice b 0 10) = half b 10 && (byteAt b 0).extractLsb' 0 4 = 1#4
        && scopeAllowed cls ((byteAt b 1).extractLsb' 6 2) && lo ≤ n && n ≤ hi
    then some n else none
  | none => none

def headerOf (b : List Byte) : LineHdr :=
  ⟨(byteAt b 1).extractLsb' 0 6, (byteAt b 2).extractLsb' 0 6, byteAt b 3, half b 4, half b 8⟩

def roundFlagsOf (b : Byte) : RoundFlags := ⟨bitOf b 7, bitOf b 6, bitOf b 5, bitOf b 4⟩

def pos6 (b : Byte) : Position := b.extractLsb' 0 6

def bodyOf (cls : BitVec 4) (p : List Byte) : LineBody :=
  let b := byteAt p
  match cls.toNat with
  | 1 => .alarm ⟨id48 p 0, bitOf (b 6) 7, bitOf (b 6) 6, alarmOf (p.drop 8)⟩
  | 2 => .time ⟨long p 0, pos6 (b 8), bitOf (b 9) 7, bitOf (b 9) 6, bitOf (b 9) 5, bitOf (b 9) 4, half p 10, word p 12, word p 16⟩
  | 3 => .credit ⟨half p 0, half p 2, half p 4, half p 6⟩
  | 4 => .front ⟨id48 p 0, half p 6, pos6 (b 8), roundFlagsOf (b 9), id48 p 12, bitOf (b 18) 7, bitOf (b 18) 6, pos6 (b 18), long p 20⟩
  | 5 => .commit ⟨id48 p 0, half p 6, bitOf (b 8) 7, pos6 (b 8), roundFlagsOf (b 9), id48 p 12, long p 20, word p 28⟩
  | 6 => .lampSync ⟨word p 0, b 4, bitOf (b 5) 7, (b 5).extractLsb' 0 4, word p 8⟩
  | 7 => .beacon ⟨id48 p 0, pos6 (b 6), (b 7).extractLsb' 4 4, bitOf (b 7) 3, bitOf (b 7) 2, (b 8).extractLsb' 4 4,
      (b 8).extractLsb' 0 4, (b 9).extractLsb' 6 2, (b 9).extractLsb' 4 2, bitOf (b 9) 3, bitOf (b 9) 2, bitOf (b 10) 7, bitOf (b 10) 6⟩
  | 8 => .mgmt ⟨b 0, (b 1).extractLsb' 0 3, b 2, b 3, word p 4, half p 8, p.drop 16⟩
  | _ => .carried ⟨if bitOf (b 0) 0 then .twin else .eth, p.drop 4⟩

/-- The frame that header, payload and FCS carry, where the header is good. -/
def frameOfBytes (b : List Byte) (len : Nat) : LineFrame :=
  ⟨headerOf b, bodyOf ((byteAt b 0).extractLsb' 4 4) (slice b 12 len)⟩

/-- What a receiver makes of 16 + LEN bytes: FCS right, the bitwise inverse of the right one (a stomped frame, R95), or wrong. -/
def rxFrameOf (b : List Byte) (len : Nat) : RxFrame :=
  let c := crc32c (b.take (12 + len))
  let got := word b (12 + len)
  if got = c then .ok (frameOfBytes b len) else if got = ~~~ c then .stomped else .fcsError

end Sys2Proof.Machine
end

