-- ==== Sys2Proof/Machine/Codewords.lean ====
section
/-! DEFINITION. The line codeword (R82 to R85): header, payload, scrambler, symbols and line levels, and what a receiver's
reassembly makes of the payload bytes of one codeword. -/

namespace Sys2Proof.Machine

/-! ### The scrambler x^58 + x^39 + 1 (R83) -/

/-- The last 58 scrambled bits, the latest in bit 0. -/
abbrev ScrState := BitVec 58

/-- The eight bits that the scrambler adds to the next byte: those 39 and 58 before each of its bits, most significant first. -/
def scrMask (st : ScrState) : Byte := st.extractLsb' 31 8 ^^^ st.extractLsb' 50 8

/-- A scrambled byte has passed. -/
def scrPush (st : ScrState) (b : Byte) : ScrState := (st <<< 8) ||| b.zeroExtend 58

def scramble : ScrState → List Byte → ScrState × List Byte
  | st, [] => (st, [])
  | st, b :: r =>
    let o := b ^^^ scrMask st
    let (t, l) := scramble (scrPush st o) r
    (t, o :: l)

def descramble : ScrState → List Byte → ScrState × List Byte
  | st, [] => (st, [])
  | st, o :: r =>
    let (t, l) := descramble (scrPush st o) r
    (t, (o ^^^ scrMask st) :: l)

/-- Multiplication of polynomials over GF(2) modulo x^58 + x^19 + 1, the characteristic polynomial of the scrambler's zero run. -/
def scrTimesX (a : ScrState) : ScrState := if a.getLsbD 57 then (a <<< 1) ^^^ 0x80001 else a <<< 1

def scrMul (a b : ScrState) : ScrState :=
  ((List.range 58).foldl (fun (r : ScrState × ScrState) i => (if b.getLsbD i then r.1 ^^^ r.2 else r.1, scrTimesX r.2)) (0, a)).1

/-- x^n, for n below 2^48, by squaring. -/
def scrPower (n : Nat) : ScrState :=
  (List.range 48).foldr (fun i a => let q := scrMul a a; if n.testBit i then scrTimesX q else q) 1

def parity58 (a : ScrState) : Bool := (List.range 58).foldl (fun p i => xor p (a.getLsbD i)) false

/-- The scrambler after n bits of 0: each bit of the new state is the old state's bits under the coefficients of a power of x. -/
def scrIdle (n : Nat) (st : ScrState) : ScrState :=
  let base := (List.range 58).foldl (fun (a : ScrState) i => if st.getLsbD i then a ||| ((1 : ScrState) <<< (57 - i)) else a) 0
  ((List.range 58).foldl (fun (r : ScrState × ScrState) _ =>
    ((r.1 <<< 1) ||| (if parity58 (r.2 &&& base) then 1 else 0), scrTimesX r.2)) (0, scrPower n)).1

/-! ### Symbols (R83) -/

/-- Five bytes are four symbols, most significant bit first. -/
def symbolsOf : List Byte → List Gf
  | a :: b :: c :: d :: e :: r =>
    let w : BitVec 40 := a ++ b ++ c ++ d ++ e
    w.extractLsb' 30 10 :: w.extractLsb' 20 10 :: w.extractLsb' 10 10 :: w.extractLsb' 0 10 :: symbolsOf r
  | _ => []

def bytesOfSymbols : List Gf → List Byte
  | a :: b :: c :: d :: r =>
    let w : BitVec 40 := a ++ b ++ c ++ d
    w.extractLsb' 32 8 :: w.extractLsb' 24 8 :: w.extractLsb' 16 8 :: w.extractLsb' 8 8 :: w.extractLsb' 0 8 :: bytesOfSymbols r
  | _ => []

/-- A line level of one symbol time, from −3 to +3 (Table 3.1). -/
def pam4Level (p : BitVec 2) : Int := match p.toNat with | 0 => -3 | 1 => -1 | 3 => 1 | _ => 3

/-- The levels of a 10-bit symbol: five bit pairs at PAM4, ten bits at NRZ, the most significant first. -/
def lineLevels (nrz : Bool) (g : Gf) : List Int :=
  if nrz then (List.range 10).map fun i => if g.getLsbD (9 - i) then 3 else -3
  else (List.range 5).map fun i => pam4Level (g.extractLsb' (8 - 2 * i) 2)

/-! ### The codeword header (Table 4.2) -/

def cwMark : Byte := 0xB4

/-- FPTR of a codeword in which no frame starts. -/
def noFptr : BitVec 11 := 0x7FF

def cwHeader (ins : Bool) (fptr : BitVec 11) : List Gf :=
  let w : BitVec 20 := cwMark ++ bit1 ins ++ fptr
  [w.extractLsb' 10 10, w.extractLsb' 0 10]

/-- The header bits of a decoded codeword. -/
def headerBits (syms : List Gf) : BitVec 20 := syms.getD 0 0 ++ syms.getD 1 0

/-- A codeword: header and 640 scrambled payload bytes, then the parity. -/
def codeword (ins : Bool) (fptr : BitVec 11) (payload : List Byte) : List Gf :=
  rsEncode (cwHeader ins fptr ++ symbolsOf payload)

/-- Length of a codeword in units of 1/225 ns: 5,440 bits at 56.25 or 28.125 Gbit/s (Table 4.1). -/
def codewordUnits (nrz : Bool) : Nat := if nrz then 43520 else 21760

/-- The first whole nanosecond at or after a moment in units of 1/225 ns. -/
def unitsNs (u : Nat) : Nat := (u + 224) / 225

/-- FPTR 640 to 2,046 makes the codeword uncorrectable to the receiver (R84). -/
def fptrBad (f : BitVec 11) : Bool := 640 ≤ f.toNat && f.toNat ≤ 2046

/-- MARK with at most one bit in error (R85). -/
def markNear (m : Byte) : Bool := (List.range 8).countP (fun i => (m ^^^ cwMark).getLsbD i) ≤ 1

/-! ### Reassembly at a receiver (R84, R88) -/

/-- A receiver's state between codewords: the bytes of a frame that is not whole yet, and whether bytes are discarded up to
the next FPTR. -/
structure Assembly where
  bytes : List Byte
  skip : Bool
  deriving DecidableEq, Repr

/-- A frame that a codeword made whole: what the receiver finds of it, its class, its LEN and its FCS as received. -/
structure Arrival where
  frame : RxFrame
  cls : BitVec 4
  len : Nat
  fcs : Word
  deriving DecidableEq, Repr

def Arrival.headerError : Arrival := ⟨.headerError, 0, 0, 0⟩

/-- One frame out of the front of a byte run. -/
inductive Cut | idle | short | bad | frame (a : Arrival)
  deriving DecidableEq, Repr

def cutFrame (b : List Byte) : Cut :=
  if byteAt b 0 = 0 then .idle
  else if b.length < 12 then .short
  else match headerLen b with
    | none => .bad
    | some n =>
      if b.length < 16 + n then .short else .frame ⟨rxFrameOf b n, (byteAt b 0).extractLsb' 4 4, n, word b (12 + n)⟩

/-- Frames back to back: those that are whole, and what is left to go on with. An idle byte ends the codeword's frames. -/
def cutFrames : Nat → List Byte → List Arrival × Assembly
  | 0, b => ([], ⟨b, false⟩)
  | n + 1, b =>
    match b with
    | [] => ([], ⟨[], false⟩)
    | _ => match cutFrame b with
      | .idle => ([], ⟨[], false⟩)
      | .short => ([], ⟨b, false⟩)
      | .bad => ([.headerError], ⟨[], true⟩)
      | .frame v =>
        let (l, a) := cutFrames n (b.drop (16 + v.len))
        (v :: l, a)

/-- The frame in progress goes on in the bytes before FPTR. -/
def goOn (a : Assembly) (b : List Byte) : List Arrival × Assembly :=
  if a.skip then ([], a)
  else if a.bytes.isEmpty then ([], a)
  else match cutFrame (a.bytes ++ b) with
    | .idle => ([], ⟨[], false⟩)
    | .short => ([], ⟨a.bytes ++ b, false⟩)
    | .bad => ([.headerError], ⟨[], true⟩)
    | .frame v => ([v], ⟨[], false⟩)

/-- The payload bytes of a good codeword: an inserted ALARM at bytes 0 to 39, the rest of the frame in progress, and the frames
that start at FPTR. A frame that FPTR cuts short is discarded. -/
def assemble (a : Assembly) (ins : Bool) (fptr : BitVec 11) (p : List Byte) : List Arrival × Assembly :=
  let alarm := if ins then (cutFrames 1 (p.take 40)).1 else []
  let start := if ins then 40 else 0
  if fptr = noFptr then
    let (l, b) := goOn a (p.drop start)
    (alarm ++ l, b)
  else
    let (l, _) := goOn a ((p.take fptr.toNat).drop start)
    let (m, b) := cutFrames 40 (p.drop fptr.toNat)
    (alarm ++ l ++ m, b)

end Sys2Proof.Machine
end

