-- ==== Sys2Proof/Machine/Loading.lean ====
section
/-! DEFINITION. Forming the required states (R159), and configuring a high-voltage die over its CD link: the steps of
R300 as a queue of COMMANDs, each sent when the one before it has been answered. -/

namespace Sys2Proof.Machine

/-! ### Vehicle inputs as the engine reads them (R123, Table 5.1) -/

/-- The place of an input in the VINPUT payload. -/
inductive InputName | cplFore | cplAft | cab | aux1 | aux2
  deriving DecidableEq, Repr

/-- The state an input has in a VINPUT payload. A payload with the reserved code is never kept (R122). -/
def vinputField (l : List Byte) (n : InputName) : Filtered :=
  let v : BitVec 2 := match n with
    | .cplFore => (byteAt l 0).extractLsb' 6 2
    | .cplAft => (byteAt l 0).extractLsb' 4 2
    | .cab => (byteAt l 0).extractLsb' 2 2
    | .aux1 => (byteAt l 0).extractLsb' 0 2
    | .aux2 => (byteAt l 1).extractLsb' 6 2
  v

/-- What the engine reads: INDETERMINATE while the CD–REF link is lost and when VINPUT is stale. -/
def State.input (s : State) (n : InputName) : Filtered :=
  if s.ld.engine.inputsStale || (s.lend .cdRef .first).lost then 2 else vinputField s.ld.engine.inputs n

/-- The inauguration options (Table 13.6, INAUG). -/
def optNoCab (b : Byte) : Bool := b.getLsbD 7

def optAux1Cab (b : Byte) : Bool := b.getLsbD 6

/-- The end at which the cab of CAB_ACT stands. -/
def optCabEnd (b : Byte) : VEnd := if b.getLsbD 5 then .aft else .fore

/-! ### Required states (Table 1.3, R28, R159) -/

/-- The end is a free end other than the leading end. -/
def Standing.freeNotLeading : Standing → Bool | .trailing => true | .free => true | _ => false

def Standing.isFree : Standing → Bool | .leading => true | .trailing => true | .free => true | .notFree => false

/-- End markers are required lit at an end whose coupling is in doubt (R28, R143). -/
def EndState.doubtLit (e : EndState) : Bool := e.committed = .doubt

/-- The condition of Table 1.3 and R28 for an end-marker channel at an end. -/
def EndState.markerLit (e : EndState) : Bool := e.standing.freeNotLeading || e.doubtLit

def chanEnd (e : MapEntry) : VEnd := if e.endAft then .aft else .fore

/-- The input named by DOOR_SRC calls for the door light (R159). -/
def State.doorInput (s : State) (src : BitVec 2) : Bool :=
  let lit := fun v : Filtered => v = 1 ∨ v = 2
  match src with
  | 1 => if optAux1Cab s.ld.engine.options then false else lit (s.input .aux1)
  | 2 => lit (s.input .aux2)
  | _ => false

/-- Whether a channel with a map entry is required lit (R159). -/
def State.roleLit (s : State) (c : Chan) (e : MapEntry) : Bool :=
  let v := s.vend (chanEnd e)
  entryLights e && match e.role with
    | 0 => v.standing = .leading
    | 1 => v.standing = .trailing
    | 2 => (s.vend .fore).markerLit
    | 3 => (s.vend .aft).markerLit
    | 4 => v.standing.isFree || v.doubtLit
    | 5 => true
    | 6 => inMask s.cd.hostOn c || s.doorInput e.doorSrc
    | 7 => inMask s.cd.hostOn c
    | _ => false

/-- REQ_LIT as the CD forms it from the standings of the last commit and the shadow's map. -/
def State.formReqLit (s : State) : ChMask := chMaskOf fun c => s.roleLit c (s.cd.shadow.map[c.val])

/-- The CD sends a STATE command to both lamp dies (R176). -/
def State.sendState (effect : Word) (epoch : Half) (s : State) : State :=
  let m := s.formReqLit
  ((s.modCd fun c => { c with reqLit := m }).sendCommand .cdLa .commit (cmdState m effect epoch)).sendCommand .cdLb
    .commit (cmdState m effect epoch)

/-- The required states changed, so the CD sends them with EFFECT_CYCLE 0 (R160). Recovery firmware sends no STATE. -/
def State.refreshState (s : State) : State :=
  if s.cd.running && !s.cd.frost && s.formReqLit ≠ s.cd.reqLit then s.sendState 0 s.epoch else s

/-! ### Configuring a high-voltage die (R300, R304, R343) -/

def cmdRegRead (count : Nat) (address : Word) : List Byte := [0x60, 0, BitVec.ofNat 8 count, 0] ++ be32 address

def cmdRegWrite (address : Word) (data : List Byte) : List Byte :=
  [0x61, 0, BitVec.ofNat 8 data.length, 0] ++ be32 address ++ data

/-- The two boundaries after the present cycle, as a command names them (R168, R175). -/
def State.sceneCycle (s : State) : Word := skipZero (s.cycle32 + 2)

/-- The COMMANDs with which the CD configures a die: in Frost only IDENTITY. MAP_WRITE and SLOT_WRITE are put in front
of this queue when the read of a channel or slot calls for one. -/
def State.configOf (s : State) (d : HvDie) : List (List Byte) :=
  match d with
  | .ref => if s.cd.frost then [] else [cmdRefConfig s.cd.shadow.ref]
  | _ =>
    if s.cd.frost then [cmdIdentity s.nodeId]
    else
      [cmdIdentity s.nodeId] ++ ((List.range 12).map cmdMapRead) ++ ((List.range 15).map fun n => cmdSlotRead (n + 1))
        ++ [cmdRegWrite 0x40 (policyBytes s.cd.shadow.store), cmdState s.formReqLit 0 s.epoch,
            cmdScene s.ld.scene s.sceneCycle]

def ControlDie.cfg (c : ControlDie) : HvDie → List (List Byte) | .la => c.cfgLa | .lb => c.cfgLb | .ref => c.cfgRef

def ControlDie.setCfg (d : HvDie) (q : List (List Byte)) (c : ControlDie) : ControlDie :=
  match d with
  | .la => { c with cfgLa := q }
  | .lb => { c with cfgLb := q }
  | .ref => { c with cfgRef := q }

def hvBit : HvDie → BitVec 3 | .la => 1 | .lb => 2 | .ref => 4

/-- Milestone 0x05 is reached when each die has been configured or is not waited for (Table 11.9, R296). -/
def State.checkHvApplied (s : State) : State :=
  if s.cd.milestone = 4 && (s.cd.configured ||| s.cd.absentDies) = 7 then s.modCd fun c => { c with milestone := 5 }
  else s

/-- The next COMMAND of a die's configuration goes out; with none left the die is configured. -/
def State.configNext (d : HvDie) (s : State) : State :=
  match s.cd.cfg d with
  | [] => (s.modCd fun c => { c with configured := c.configured ||| hvBit d }).checkHvApplied
  | p :: q => (s.modCd (ControlDie.setCfg d q)).sendCommand d.cdLink (.config d) p

/-- A die is configured from the shadow once its link stands and the records are applied (R300, R343). -/
def State.configureDie (d : HvDie) (s : State) : State :=
  if s.cd.running && (4 ≤ s.cd.milestone.toNat || s.cd.frost) && !(s.lend d.cdLink .first).lost then
    (s.modCd fun c => (c.setCfg d (s.configOf d))).configNext d
  else s

/-- The CD writes the shadow's map and slots to both lamp dies (R224, R343). -/
def State.rewriteMaps (s : State) : State :=
  let cmds := ((List.finRange 12).map fun c => cmdMapWrite c.val 0 s.cd.shadow.map[c.val])
    ++ ((List.finRange 15).map fun n => cmdSlotWrite (n.val + 1) 0 s.cd.shadow.slots[n.val + 1])
  cmds.foldl (fun t p => (t.sendCommand .cdLa .plain p).sendCommand .cdLb .plain p) s

/-- What the answer to a COMMAND of R300 calls for: a MAP_WRITE where the entry is not valid or differs, a SLOT_WRITE
where COUNT or one of the first COUNT words differs. -/
def State.configWrite (s : State) (l : List Byte) : Option (List Byte) :=
  if byteAt l 0 = 0x11 then
    let n := (byteAt l 2).toNat
    if h : n < 12 then
      let e := s.cd.shadow.map[n]
      if !bitOf (byteAt l 3) 7 || entryBytes (entryOf (slice l 4 16)) ≠ entryBytes e then some (cmdMapWrite n 0 e) else none
    else none
  else if byteAt l 0 = 0x21 then
    let n := (byteAt l 2).toNat
    if h : 1 ≤ n ∧ n < 16 then
      let v := s.cd.shadow.slots[n]
      let held := slotStored v.count (stepsOf l 4)
      if (byteAt l 3).toNat ≠ v.count ∨ held.steps ≠ v.steps then some (cmdSlotWrite n 0 v) else none
    else none
  else none

/-- The block is invalid with the effect of R299: "option block invalid" is raised, and the firmware asks for a reset
(source 0x6). -/
def State.blockInvalid (check : Byte) (index : Byte) (s : State) : State :=
  (s.cdRaise fOptionInvalid noSubject [check, index]).modCd fun c => { c with resetDue := some s.now }

/-- The answer to a configuration COMMAND arrived: BAD_FIELD makes the block invalid (R300). -/
def State.configAnswer (d : HvDie) (l : List Byte) (s : State) : State :=
  if byteAt l 1 = 0x02 then
    (s.modCd (ControlDie.setCfg d [])).blockInvalid 5 0xFF
  else
    match s.configWrite l with
    | some p => (s.modCd fun c => c.setCfg d (p :: c.cfg d)).configNext d
    | none => s.configNext d

end Sys2Proof.Machine
end

