-- ==== Sys2Proof/Machine/Transmit.lean ====
section
/-! DEFINITION. Sending on the line: usable lanes (R91, R107), headers and SEQ (R86, R90), the queues of a port in the
order of R94, flooding and its key table (R90, R92), alarm slots (R97), and routing by position (R91). -/

namespace Sys2Proof.Machine

/-! ### Lanes -/

/-- A port is fenced, or treated as fenced because the far port is (R106, R107). -/
def PortState.shut (x : PortState) : Bool := x.fenced || (x.far.known && x.far.fenced)

def State.shut (s : State) (p : Port) : Bool := (s.port p).shut

def State.laneUp (s : State) (p : Port) : Bool := (s.lane p).st = .up

/-- A lane is usable when it is UP and not fenced (R91). -/
def State.usable (s : State) (p : Port) : Bool := s.laneUp p && !s.shut p

/-- The port may start frames other than ALARM, BEACON and CREDIT (R102, R107). -/
def State.carries (s : State) (p : Port) : Bool := s.usable p && (s.lane p).beaconSeen

/-! ### Headers (R86, R90) -/

def State.hdr (s : State) (dst : Position) (seq : Half) : LineHdr := ⟨s.position, dst, 63, s.epoch, seq⟩

/-- The next SEQ of a hop-scope class on a port. -/
def State.nextSeq (p : Port) (b : LineBody) (s : State) : State × Half :=
  let x := s.port p
  match b with
  | .time _ => (s.modPort p fun x => { x with seqTime := x.seqTime + 1 }, x.seqTime + 1)
  | .credit _ => (s.modPort p fun x => { x with seqCredit := x.seqCredit + 1 }, x.seqCredit + 1)
  | .front _ => (s.modPort p fun x => { x with seqFront := x.seqFront + 1 }, x.seqFront + 1)
  | .commit _ => (s.modPort p fun x => { x with seqCommit := x.seqCommit + 1 }, x.seqCommit + 1)
  | _ => (s, 0)

/-- The control class, whose frames go oldest first (R94). -/
def State.pushControl (p : Port) (f : LineFrame) (s : State) : State :=
  s.modPort p fun x => { x with control := x.control ++ [f] }

/-- A hop-scope frame built by this node enters a port's control queue, where the port may carry it. CREDIT also
goes on a fenced lane and before the first BEACON (R102, R107). -/
def State.sendHop (p : Port) (b : LineBody) (s : State) : State :=
  let may := match b with | .credit _ => s.laneUp p | _ => s.carries p
  if may then
    let (t, q) := s.nextSeq p b
    t.pushControl p ⟨t.hdr 0 q, b⟩
  else s

/-! ### Flooding (R90, R92, R93) -/

/-- The key of a flood frame (R90). -/
def floodKey (f : LineFrame) (now : Nat) : FloodKey :=
  match f.body with
  | .alarm a => ⟨1, a.srcId.toNat, f.hdr.seq, now⟩
  | .commit c => ⟨5, c.leadId.toNat, f.hdr.seq, now⟩
  | .beacon b => ⟨7, b.nodeId.toNat, f.hdr.seq, now⟩
  | .lampSync _ => ⟨6, f.hdr.src.toNat, f.hdr.seq, now⟩
  | .carried _ => ⟨9, f.hdr.src.toNat, f.hdr.seq, now⟩
  | _ => ⟨0, f.hdr.src.toNat, f.hdr.seq, now⟩

def FloodKey.same (a b : FloodKey) : Bool := a.cls = b.cls ∧ a.ident = b.ident ∧ a.seq = b.seq

/-- A key seen less than 2 ms ago (R90). -/
def State.seenKey (s : State) (k : FloodKey) : Bool := s.ld.flood.any fun x => x.same k && s.now < x.at_ + ms 2

/-- A key enters the table of 512; when it is full the oldest leaves (R90). -/
def State.addKey (k : FloodKey) (s : State) : State :=
  s.modLd fun l =>
    let t := if 512 ≤ l.flood.length then l.flood.drop 1 else l.flood
    { l with flood := t ++ [k] }

/-- BEACON names the lane it is sent on (Table 4.5, TX_PORT). -/
def txPort (p : Port) (b : BeaconP) : BeaconP := { b with txAft := p.vend = .aft, txSkip := p.isSkip }

/-- A control-class flood frame enters a port that may carry it. -/
def State.sendFlood (p : Port) (f : LineFrame) (s : State) : State :=
  match f.body with
  | .beacon _ => if s.laneUp p then s.pushControl p f else s
  | .carried _ => s
  | _ => if s.carries p then s.pushControl p f else s

/-- The opposite end's ports. -/
def oppositePorts (p : Port) : List Port := p.vend.other.ports

/-- A flood frame that arrived on a port goes on, with TTL one less, on every usable lane of the opposite end; a frame
whose TTL would become 0 is dropped and counted (R92, R93). -/
def State.forwardFlood (p : Port) (f : LineFrame) (s : State) : State :=
  if f.hdr.ttl.toNat ≤ 1 then s.modCounters p fun c => { c with ttlDrop := satAdd c.ttlDrop 1 }
  else s.forPorts (oppositePorts p) fun q t => t.sendFlood q { f with hdr := { f.hdr with ttl := f.hdr.ttl - 1 } }

/-- The node's own flood frame leaves on every lane of both ends that may carry it. -/
def State.originate (f : LineFrame) (s : State) : State :=
  (s.addKey (floodKey f s.now)).forPorts Port.all fun p t => t.sendFlood p f

/-! ### Alarm slots (R97, R107) -/

/-- ALARM frames also go on lanes that are fenced or in BLINK (R92). -/
def State.alarmPort (s : State) (p : Port) : Bool := (s.lane p).st = .up || (s.lane p).st = .blink

/-- An ALARM enters a port's slot; one that it replaces is counted as merged. -/
def State.placeAlarm (p : Port) (f : LineFrame) (s : State) : State :=
  if s.alarmPort p then
    let s := if (s.port p).alarmSlot.isSome then s.modCounters p fun c => { c with alarmMerged := satAdd c.alarmMerged 1 } else s
    s.modPort p fun x => { x with alarmSlot := some f, alarmCopies := 0 }
  else s

/-- The LD originates its own ALARM with a new SEQ, into the slot of every port that R92 allows. -/
def State.originateAlarm (isRepeat : Bool) (r : AlarmRecord) (s : State) : State :=
  let q := s.ld.seqAlarm + 1
  let s := s.modLd fun l => { l with seqAlarm := q, alarmAt := s.now }
  let f : LineFrame := ⟨s.hdr 0 q, .alarm ⟨s.nodeId, isRepeat, false, r⟩⟩
  (s.addKey (floodKey f s.now)).forPorts Port.all fun p t => t.placeAlarm p f

/-! ### Credits (R100) -/

/-- Payload length of a line frame. -/
def bodyLen : LineBody → Nat
  | .mgmt m => 16 + m.data.length
  | .carried c => 4 + c.frame.length
  | .alarm _ => 24 | .time _ => 24 | .credit _ => 8 | .front _ => 32 | .commit _ => 32 | .lampSync _ => 16 | .beacon _ => 16

/-- Units of 64 bytes a frame costs: the ceiling of (16 + LEN) ÷ 64. -/
def unitsOf (b : LineBody) : Nat := (16 + bodyLen b + 63) / 64

/-- Free units of a pool of a given size (R100). -/
def Credit.free (size : Nat) (c : Credit) : Nat := size - (c.sent - c.farFree).toNat

def poolMgmt : Nat := 5

def poolCarried : Nat := 25

/-- Changes the counts of the pool a frame belongs to. -/
def State.modPool (p : Port) (b : LineBody) (f : Credit → Credit) (s : State) : State :=
  match b with
  | .mgmt _ => s.modPort p fun x => { x with mgmt := f x.mgmt }
  | .carried _ => s.modPort p fun x => { x with carried := f x.carried }
  | _ => s

/-- Units count as accepted when the frame's header arrives (R100). -/
def State.credAccept (p : Port) (b : LineBody) (s : State) : State :=
  s.modPool p b fun c => { c with acc := c.acc + BitVec.ofNat 16 (unitsOf b) }

/-- Units count as freed when the frame has left the elastic buffer or has been discarded (R100). -/
def State.credFree (p : Port) (b : LineBody) (s : State) : State :=
  s.modPool p b fun c => { c with freed := c.freed + BitVec.ofNat 16 (unitsOf b) }

/-! ### Addressed frames (R91, R93) -/

/-- The end toward a position (R91, Table 1.1). -/
def State.endToward (s : State) (dst : Position) : VEnd :=
  if dst.toNat < s.position.toNat then s.headEnd else s.headEnd.other

/-- The position of the near neighbour at an end (Table 1.1), none where it falls outside the train. -/
def State.nearOf (s : State) (e : VEnd) : Option Position :=
  let p := s.position.toNat
  if e = s.headEnd then (if p ≤ 1 then none else some (BitVec.ofNat 6 (p - 1)))
  else if s.lastPos.toNat ≤ p then none else some (BitVec.ofNat 6 (p + 1))

/-- The lane on which a frame to a position leaves, if there is a route (R91). -/
def State.route (s : State) (dst : Position) : Option Port :=
  if s.position = 0 || dst = 0 || dst.toNat > s.lastPos.toNat || dst = s.position then none
  else
    let e := s.endToward dst
    let near := match s.nearOf e with | some n => s.carries e.near && !isGhost s.ghosts n | none => false
    if near then some e.near else if s.carries e.skip then some e.skip else none

def countNoRoute (c : PortCounters) : PortCounters := { c with noRoute := satAdd c.noRoute 1 }

/-- A local MGMT frame enters the queue of its route's port; without a route it is not sent. -/
def State.sendMgmt (dst : Position) (m : MgmtP) (s : State) : State :=
  match s.route dst with
  | some p =>
    let q := s.ld.seqMgmt + 1
    (s.modLd fun l => { l with seqMgmt := q }).modPort p fun x =>
      { x with localMgmt := x.localMgmt ++ [⟨s.hdr dst q, .mgmt m⟩] }
  | none => s

/-- A transit frame waits at its egress port. -/
def State.pushTransit (q : Port) (t : Transit) (s : State) : State :=
  match t.frame.body with
  | .mgmt _ => s.modPort q fun x => { x with transitMgmt := x.transitMgmt ++ [t] }
  | _ => s.modPort q fun x => { x with transitCarried := x.transitCarried ++ [t] }

def countTtl (c : PortCounters) : PortCounters := { c with ttlDrop := satAdd c.ttlDrop 1 }

/-- The frame as a forwarding node sends it (R93). -/
def oneHop (f : LineFrame) : LineFrame := { f with hdr := { f.hdr with ttl := f.hdr.ttl - 1 } }

/-- A flood CARRIED frame goes on by every usable lane of the opposite end; the last copy frees its units (R100). The second
component says that no copy will, so that this node frees them itself. -/
def State.forwardCarried (p : Port) (f : LineFrame) (whole : Bool) (s : State) : State × Bool :=
  if f.hdr.ttl.toNat ≤ 1 then (s.modCounters p countTtl, true)
  else match (oppositePorts p).filter s.carries with
    | [] => (s, true)
    | [a] => (s.pushTransit a ⟨p, true, whole, oneHop f⟩, false)
    | a :: b :: _ => ((s.pushTransit a ⟨p, false, whole, oneHop f⟩).pushTransit b ⟨p, true, whole, oneHop f⟩, false)

/-- An addressed frame that is not for this node is forwarded or dropped (R91, R93). -/
def State.forwardAddressed (p : Port) (f : LineFrame) (whole : Bool) (s : State) : State × Bool :=
  match s.route f.hdr.dst with
  | none => (s.modCounters p countNoRoute, true)
  | some q =>
    if f.hdr.ttl.toNat ≤ 1 then (s.modCounters p countTtl, true)
    else (s.pushTransit q ⟨p, true, whole, oneHop f⟩, false)

end Sys2Proof.Machine
end

