-- ==== Sys2Proof/Machine/Stream.lean ====
section
/-! DEFINITION. The codeword stream of a port: filling the codewords it sends (R84, R94), frames ended as stomped (R95, R102),
and the ingress side of frames that are forwarded before their last byte has come (R95, R100). -/

namespace Sys2Proof.Machine

def State.modTx (p : Port) (f : TxLine → TxLine) (s : State) : State := s.modPort p fun x => { x with tx := f x.tx }

def State.modRx (p : Port) (f : RxLine → RxLine) (s : State) : State := s.modPort p fun x => { x with rx := f x.rx }

/-! ### Filling codewords (R84) -/

/-- The frame in progress goes on into the room that the codeword has left. -/
def TxLine.fill (t : TxLine) : TxLine :=
  let n := 640 - t.cur.length
  { t with cur := t.cur ++ t.rest.take n, placed := t.placed ++ t.rest.take n, rest := t.rest.drop n }

/-- The units of a transit frame are freed when its last byte is placed (R100). -/
def State.fillCodeword (p : Port) (s : State) : State :=
  let s := s.modTx p TxLine.fill
  match (s.port p).tx.rest, (s.port p).tx.frees with
  | [], some (q, b) => (s.credFree q b).modTx p fun t => { t with frees := none }
  | _, _ => s

/-- The codeword leaves at its boundary: what it has no bytes for is idle, 0x00. -/
def State.sendCodeword (p : Port) (s : State) : State :=
  let t := (s.port p).tx
  let (scr, pay) := scramble t.scr (t.cur ++ zeros (640 - t.cur.length))
  let f := match t.fptr with | some n => BitVec.ofNat 11 n | none => noFptr
  (s.emit (.codeword p t.at_ (codeword t.ins f pay))).modTx p fun t =>
    { t with scr := scr, at_ := t.at_ + codewordUnits (s.lane p).nrz, begun := false, cur := [], ins := false, fptr := none }

/-- The slot's ALARM as it leaves next: on a fenced port it goes as three copies in three consecutive codewords, with
BEACON_COPY 0, 1 and 1 (R107). -/
def PortState.alarmOut (x : PortState) : Option LineFrame :=
  x.alarmSlot.map fun f => match f.body with
    | .alarm a => { f with body := .alarm { a with beaconCopy := 0 < x.alarmCopies } }
    | _ => f

/-- At the boundary the slot's ALARM takes payload bytes 0 to 39 with INS = 1, and the slot is cleared (R94). -/
def State.insertSlot (p : Port) (s : State) : State :=
  match (s.port p).alarmOut with
  | some f =>
    if s.alarmPort p then
      let last := !s.shut p || 2 ≤ (s.port p).alarmCopies
      ((s.emit (.line p f)).modPort p fun x =>
        { x with alarmSlot := if last then none else x.alarmSlot, alarmCopies := if last then 0 else x.alarmCopies + 1 }).modTx p
        fun t => { t with cur := lineBytes f, ins := true }
    else s
  | none => s

/-- The codeword at the present boundary is begun: an insertion first, then the frame in progress. -/
def State.beginCodeword (p : Port) (s : State) : State :=
  if (s.port p).tx.begun then s
  else ((s.insertSlot p).fillCodeword p).modTx p fun t => { t with begun := true }

/-- A codeword whose boundary has passed has left; no insertion came at that boundary. -/
def State.passCodeword (p : Port) (s : State) : State :=
  let t := (s.port p).tx
  if (t.begun || !t.rest.isEmpty) && unitsNs t.at_ < s.now then
    ((if t.begun then s else s.fillCodeword p).sendCodeword p)
  else s

/-- Idle codewords up to the present moment: the scrambler runs on over their payload (R83). -/
def TxLine.idle (nrz : Bool) (now : Nat) (t : TxLine) : TxLine :=
  if t.begun || !t.rest.isEmpty || now ≤ unitsNs t.at_ then t
  else
    let n := (now * 225 - t.at_ + codewordUnits nrz - 1) / codewordUnits nrz
    { t with scr := scrIdle (5120 * n) t.scr, at_ := t.at_ + n * codewordUnits nrz }

/-- The stream up to the present moment: a frame is at most 1,542 bytes long, so four codewords end what was begun. -/
def State.flush (p : Port) (s : State) : State :=
  ((List.range 4).foldl (fun t _ => t.passCodeword p) s).modTx p (TxLine.idle (s.lane p).nrz s.now)

/-- One codeword on toward the next frame boundary. -/
def State.towardFrame (p : Port) (s : State) : State :=
  let s := s.beginCodeword p
  let t := (s.port p).tx
  if t.rest.isEmpty && t.cur.length < 640 then s else s.sendCodeword p

/-- The next frame boundary: the codeword in which the next frame begins, and its moment. -/
def State.toFrameBoundary (p : Port) (s : State) : State :=
  let s := ((List.range 5).foldl (fun t _ => t.towardFrame p) (s.flush p)).beginCodeword p
  s.until (unitsNs (s.port p).tx.at_)

/-- A frame starts at the frame boundary; FPTR names the first that starts in a codeword (Table 4.2). -/
def State.placeFrame (p : Port) (bytes : List Byte) (s : State) : State :=
  (s.modTx p fun t =>
    { t with fptr := some (t.fptr.getD t.cur.length), placed := [], rest := bytes }).fillCodeword p

/-- Codewords that are due on any port have left; the model's idle step lets them (log entry 81). -/
def State.flushAll (s : State) : State := s.forPorts Port.all State.flush

/-! ### Stomped frames (R95, R102) -/

/-- The frame in progress ends with the bitwise inverse of the right FCS. Where its ingress failed, the bytes that never came are
free values, so that it keeps its LEN; where its own lane blinks it ends at once. -/
def State.endStomped (q : Port) (keepLen : Bool) (s : State) : State :=
  let t := (s.port q).tx
  if t.rest.isEmpty then s
  else
    let whole := 12 + (half (t.placed ++ t.rest) 6).toNat
    let n := if keepLen then whole - t.placed.length else 0
    let filler := (List.range n).map fun i => (Config.freeWord (s.freeCount + i)).extractLsb' 0 8
    let core := t.placed.take whole ++ filler
    let out := core ++ be32 (~~~ crc32c core)
    { (s.emit (.stomp q)).modTx q fun t => { t with rest := out.drop t.placed.length } with freeCount := s.freeCount + n }

/-- Frames that were being cut through from a port are ended as stomped (R95). -/
def State.stompFrom (p : Port) (s : State) : State :=
  s.forPorts Port.all fun q t =>
    if (t.port q).cutThrough = some p then (t.endStomped q true).modPort q fun x => { x with cutThrough := none } else t

def Transit.unready (p : Port) (t : Transit) : Bool := t.src = p && !t.whole

/-- Transit frames whose last byte will not come leave the queues, and their units are freed. -/
def State.dropUnready (p : Port) (s : State) : State :=
  s.forPorts Port.all fun q t =>
    let gone := ((t.port q).transitMgmt ++ (t.port q).transitCarried).filter (Transit.unready p)
    let t := gone.foldl (fun t g => if g.frees then t.credFree p g.frame.body else t) t
    t.modPort q fun x => { x with
      transitMgmt := x.transitMgmt.filter fun g => !g.unready p
      transitCarried := x.transitCarried.filter fun g => !g.unready p }

/-- The frame whose header was acted on is lost: it ends as stomped where it had started, and is discarded where it had not. -/
def State.dropIngress (p : Port) (s : State) : State :=
  let s := (s.stompFrom p).dropUnready p
  let s := match (s.port p).rx.inCut with
    | some c => if c.held then s.credFree p c.frame.body else s
    | none => s
  s.modRx p fun r => { r with inCut := none }

/-- A codeword fails, or the lane leaves data mode: the ingress frame in progress is discarded (R95, R102). -/
def State.loseIngress (p : Port) (s : State) : State :=
  (s.dropIngress p).modRx p fun r => { r with bytes := [], skip := true }

/-- The stream of a lane that leaves data mode ends where it stands; the scrambler keeps its state. -/
def State.stopStream (p : Port) (s : State) : State :=
  (s.loseIngress p).modPort p fun x => { x with
    cutThrough := none, tx := { TxLine.fresh s.now with scr := x.tx.scr }, rx := { x.rx with arrived := [] } }

/-- Data mode begins at a codeword boundary (R72). -/
def State.startStream (p : Port) (s : State) : State := s.modTx p fun t => { TxLine.fresh s.now with scr := t.scr }

/-- No more bytes are to come for the frames cut through from a port. -/
def State.endCut (p : Port) (s : State) : State :=
  s.forPorts Port.all fun q t => t.modPort q fun x => { x with cutThrough := if x.cutThrough = some p then none else x.cutThrough }

/-- The last byte of a forwarded frame has come. -/
def State.makeWhole (p : Port) (s : State) : State :=
  (s.endCut p).forPorts Port.all fun q t => t.modPort q fun x => { x with
    transitMgmt := x.transitMgmt.map fun g => { g with whole := g.whole || g.src = p }
    transitCarried := x.transitCarried.map fun g => { g with whole := g.whole || g.src = p } }

/-- The last bytes of a frame cut through from a port are those that came: the FCS goes on as it is. -/
def State.passFcs (p : Port) (fcs : Word) (s : State) : State :=
  s.forPorts Port.all fun q t =>
    if (t.port q).cutThrough = some p then
      t.modTx q fun x => { x with rest := if 4 ≤ x.rest.length then x.rest.take (x.rest.length - 4) ++ be32 fcs else x.rest }
    else t

/-! ### Frames of the credit classes at their ingress (R95, R100) -/

/-- A dropped frame's units count as accepted and as freed: its header has arrived and it is discarded (R100). -/
def State.refuse (p : Port) (b : LineBody) (s : State) : State := (s.credAccept p b).credFree p b

/-- The same for a frame of class MGMT (8) or CARRIED known by its LEN only. -/
def State.refuseUnits (p : Port) (cls : BitVec 4) (len : Nat) (s : State) : State :=
  let n := BitVec.ofNat 16 ((16 + len + 63) / 64)
  let both := fun (c : Credit) => { c with acc := c.acc + n, freed := c.freed + n }
  if cls = 8 then s.modPort p fun x => { x with mgmt := both x.mgmt } else s.modPort p fun x => { x with carried := both x.carried }

/-- The codewords of a frame have brought it; its row takes it. -/
def State.tookArrival (p : Port) (f : LineFrame) (s : State) : State :=
  s.modRx p fun r => { r with arrived := dropFirst (fun g => g = f) r.arrived }

/-- The frame whose header was acted on is whole: it is taken where it is for this node, and forwarded to its end. -/
def State.finishIngress (p : Port) (c : Ingress) (take : State → State) (s : State) : State :=
  let s := (s.makeWhole p).modRx p fun r => { r with inCut := none }
  let s := if c.held then s.credFree p c.frame.body else s
  if c.taken then take s else s

/-- A frame that has passed the port's checks: `onward` forwards it and says whether this node frees its units, `taken` that it is
for this node too. -/
def State.startIngress (p : Port) (f : LineFrame) (whole taken : Bool) (onward : State → State × Bool) (take : State → State)
    (s : State) : State :=
  let (t, mine) := onward (s.credAccept p f.body)
  if whole then
    let t := if mine then t.credFree p f.body else t
    if taken then take t else t
  else t.modRx p fun r => { r with inCut := some ⟨f, mine, taken⟩ }

end Sys2Proof.Machine
end

