-- ==== Sys2Proof/Machine/Engine.lean ====
section
/-! DEFINITION. The inauguration engine's operations: end verdicts (Table 5.2, R125 to R127), the effective cab (R124),
calls and launches (R129 to R131), ranking (R132), Fronts (R133 to R135), and forming and applying a commit (R138,
R142 to R144). -/

namespace Sys2Proof.Machine

def callTimeoutNs : Nat := ms 8

/-! ### What the engine reads of one end (R125) -/

/-- A lane in BLINK counts as it stood before the interruption. -/
def Lane.standing (l : Lane) : Bool := l.st = .up || l.st = .blink

def State.nearLinked (s : State) (e : VEnd) : Bool := (s.lane e.near).standing && (s.lane e.near).beaconSeen

def State.skipUsable (s : State) (e : VEnd) : Bool :=
  (s.lane e.skip).standing && !s.shut e.skip && (s.lane e.skip).beaconSeen

def State.contact (s : State) : VEnd → Filtered
  | .fore => s.input .cplFore
  | .aft => s.input .cplAft

/-- The verdict an end held at the last commit; OPEN for a node that holds none. -/
def State.committedVerdict (s : State) (e : VEnd) : Verdict :=
  if s.commit?.isSome then (s.vend e).committed else .open_

def Verdict.joined : Verdict → Bool | .linked => true | .bridged => true | _ => false

/-- The row of Table 5.2 that matches first. -/
def State.verdictRow (s : State) (e : VEnd) : Nat :=
  let v := s.vend e
  let known := s.contact e = 1 || (s.committedVerdict e).joined
  if v.cut then 1
  else if v.fencedLong then 2
  else if s.nearLinked e then (if known then 3 else 4)
  else if s.skipUsable e then (if known then 5 else 6)
  else match s.contact e with
    | 0 => 7
    | 1 => 8
    | _ => 9

/-- The verdict of a row, before and after the expiry of its timer. -/
def rowVerdict (row : Nat) (expired : Bool) : Verdict :=
  match row with
  | 1 => .cut
  | 2 => .broken
  | 3 => .linked
  | 4 => if expired then .linked else .joining
  | 5 => .bridged
  | 6 => if expired then .bridged else .joining
  | 7 => .open_
  | 8 => if expired then .broken else .holding
  | _ => if expired then .doubt else .holding

/-- How long a row's timer runs (Table 5.2). -/
def rowTime (row : Nat) : Nat := if row = 8 then ms 60 else ms 500

/-- A pending verdict as a round takes it (R127). -/
def State.roundVerdict (s : State) (e : VEnd) : Verdict :=
  match (s.vend e).verdict with
  | .joining => s.committedVerdict e
  | .holding => if (s.committedVerdict e).joined then .broken else s.committedVerdict e
  | v => v

def Verdict.ends : Verdict → Bool
  | .open_ => true | .broken => true | .cut => true | .doubt => true
  | _ => false

def Verdict.brokenOrCut : Verdict → Bool | .broken => true | .cut => true | _ => false

def Verdict.pending : Verdict → Bool | .joining => true | .holding => true | _ => false

def Verdict.code : Verdict → BitVec 4
  | .linked => 0 | .bridged => 1 | .joining => 2 | .open_ => 3 | .holding => 4 | .broken => 5 | .cut => 6 | .doubt => 7

def Standing.code : Standing → BitVec 2 | .leading => 0 | .trailing => 1 | .free => 2 | .notFree => 3

/-- An end is terminal when its verdict, a pending one taken as R127 counts it, is OPEN, BROKEN, CUT or DOUBT. -/
def State.terminal (s : State) (e : VEnd) : Bool := (s.roundVerdict e).ends

def State.endNode (s : State) : Bool := s.terminal .fore || s.terminal .aft

/-! ### The effective cab (R124) -/

/-- An input reports an active cab at an end. -/
def State.cabAt (s : State) (e : VEnd) : Bool :=
  let o := s.ld.engine.options
  (optCabEnd o = e && s.input .cab = 1) || ((optCabEnd o).other = e && optAux1Cab o && s.input .aux1 = 1)

def State.openOrDoubt (s : State) (e : VEnd) : Bool :=
  s.roundVerdict e = .open_ || s.roundVerdict e = .doubt

def State.noCab (s : State) : Bool := optNoCab s.ld.engine.options

def State.effectiveAt (s : State) (e : VEnd) : Bool := !s.noCab && s.cabAt e && s.openOrDoubt e

def State.effectiveCab (s : State) : Bool := s.effectiveAt .fore || s.effectiveAt .aft

/-- A cab that is active at an end inside the train raises its fault once per commit. -/
def State.cabInside (e : VEnd) (s : State) : State :=
  let g := s.ld.engine
  let raised := match e with | .fore => g.cabRaisedFore | .aft => g.cabRaisedAft
  if s.cabAt e && !s.openOrDoubt e && !raised then
    (s.modEng fun g => match e with
      | .fore => { g with cabRaisedFore := true }
      | .aft => { g with cabRaisedAft := true }).ldRaise fCabInside e.subject [(s.vend e).verdict.code.zeroExtend 8]
  else s

/-! ### Evaluating the verdicts (R125, R126, R135) -/

/-- The end's last lane was lost after the timer of row 8 or 9 began: it runs from that loss (R126). -/
def EndState.lostSince (v : EndState) (row : Nat) : Option Nat :=
  match v.lost with
  | some l => if (row = 8 || row = 9) && v.rowAt < l.at_ then some l.at_ else none
  | none => none

/-- An end that is not in BROKEN and sends no probe is probed at once when it next enters BROKEN (R271). -/
def State.probeRests (e : VEnd) (s : State) : State :=
  if (s.vend e).verdict = .broken || s.ld.probing e then s else s.modLd (LineDie.setProbeAt e none)

/-- One end is evaluated again. A change of row starts the new row's timer. -/
def State.evalEnd (e : VEnd) (s : State) : State :=
  let lanesGone := !(s.lane e.near).standing && !(s.lane e.skip).standing
  let s := if (s.vend e).cut && lanesGone then s.modVend e fun v => { v with cut := false } else s
  let row := s.verdictRow e
  let v := s.vend e
  let agrees := v.disagreeRaised && row ≠ 4 && row ≠ 6
  let later := if lanesGone then v.lostSince row else none
  let expired := row = v.row && v.rowExpired && later.isNone
  let rowAt := if row = v.row then later.getD v.rowAt else s.now
  let s := (s.modVend e fun v =>
    { v with row := row, rowAt := rowAt, rowExpired := expired, verdict := rowVerdict row expired,
             disagreeRaised := v.disagreeRaised && !agrees }).probeRests e
  if agrees then s.ldClear fCouplerDisagrees e.subject else s

/-- While a node is unnumbered, an end that is not LINKED, BRIDGED or JOINING has standing FREE (R144). -/
def State.unnumberedStandings (s : State) : State :=
  if s.commit?.isSome then s
  else
    let free := fun v : EndState => if v.verdict.joined || v.verdict = .joining then Standing.notFree else .free
    (s.modVend .fore fun v => { v with standing := free v }).modVend .aft fun v => { v with standing := free v }

/-- The required states are sent again where they have changed. While a switch is prepared the dies hold its STATE, and the next one
follows the switch boundary (R23, R172). -/
def State.refreshLit (s : State) : State := if s.ld.engine.switch.isSome then s else s.refreshState

/-- The CD sends the required states; where a switch is prepared, those that differ follow its boundary. -/
def State.sendLit (s : State) : State := if s.ld.engine.switch.isSome then s else s.sendState 0 s.epoch

/-- An event of R125: both ends are evaluated, and what follows from the verdicts is brought up to date. -/
def State.engineEvent (s : State) : State :=
  ((((s.evalEnd .fore).evalEnd .aft).unnumberedStandings.cabInside .fore).cabInside .aft).refreshLit

/-! ### Calls (R129, R130) -/

def State.settledDiffers (s : State) (e : VEnd) : Bool :=
  let v := (s.vend e).verdict
  !v.pending && v ≠ s.committedVerdict e && !(v.joined && (s.committedVerdict e).joined)

/-- The node has cause to call (R129). -/
def State.wantsCall (s : State) : Bool :=
  if s.commit?.isSome then
    s.settledDiffers .fore || s.settledDiffers .aft || s.effectiveCab ≠ s.ld.engine.committedCab
  else !(s.vend .fore).verdict.pending && !(s.vend .aft).verdict.pending

def State.callDue (s : State) : Bool :=
  match s.ld.engine.lastCallAt with
  | some t => t + s.ld.engine.callInterval ≤ s.now
  | none => true

def noFlags : RoundFlags := ⟨false, false, false, false⟩

/-- The lane of an end that is not terminal: near where it is LINKED, skip where it is BRIDGED. -/
def State.laneOf (s : State) (e : VEnd) : Option Port :=
  match s.roundVerdict e with
  | .linked => some e.near
  | .bridged => some e.skip
  | _ => none

def callFront (s : State) (p : Port) : FrontP :=
  { leadId := 0, newEpoch := s.roundEpoch, nextPos := 0, flags := noFlags, senderId := s.nodeId,
    sentAft := p.vend = .aft, sentSkip := p.isSkip, senderPos := s.position, ghosts := 0 }

def State.sendCall (e : VEnd) (s : State) : State :=
  match s.laneOf e with
  | some p => s.sendHop p (.front (callFront s p))
  | none => s

/-! ### Ranking (R132) -/

/-- Class 0 when the latest BEACON held from the identity shows an effective cab; a node ranks itself by its own. -/
def State.cabClass (s : State) (id : NodeId) : Nat :=
  if id = s.nodeId then (if s.effectiveCab then 0 else 1)
  else if s.ld.engine.beacons.any fun b => b.beacon.nodeId = id && b.beacon.cab then 0 else 1

/-- The first of two identities ranks lower, so it wins. -/
def State.beats (s : State) (a b : NodeId) : Bool :=
  s.cabClass a < s.cabClass b || (s.cabClass a = s.cabClass b && a.toNat < b.toNat)

/-! ### BEACON (R128, Table 4.5) -/

/-- STATE[7:4] of BEACON. -/
def State.beaconState (s : State) : BitVec 4 :=
  if s.cd.lastWord then 4
  else if s.cd.frost then 3
  else match s.ld.power with
    | .active => 0
    | .lull => 2
    | _ => 1

def portBits (f : Port → Bool) : BitVec 4 :=
  (if f .foreNear then 1#1 else 0#1) ++ (if f .foreSkip then 1#1 else 0#1) ++ (if f .aftNear then 1#1 else 0#1)
    ++ (if f .aftSkip then 1#1 else 0#1)

def State.lineBroken (s : State) : Bool :=
  (s.vend .fore).verdict.brokenOrCut || (s.vend .aft).verdict.brokenOrCut
    || (match s.commit? with | some c => c.flags.broken | none => false)

/-- The payload the node's BEACON has now, but for TX_PORT, which each copy sets. -/
def State.beaconNow (s : State) : BeaconP :=
  { nodeId := s.nodeId, position := s.position, stateCode := s.beaconState, hostAbsent := s.cd.port.absent,
    broken := s.lineBroken, fenced := portBits fun p => (s.port p).fenced, up := portBits fun p => s.laneUp p,
    cplFore := s.input .cplFore, cplAft := s.input .cplAft, cab := s.effectiveCab, noCab := s.noCab,
    txAft := false, txSkip := false }

/-- A BEACON is originated on every lane that may carry it, each copy naming its lane. -/
def State.originateBeacon (s : State) : State :=
  let b := s.beaconNow
  let q := s.ld.seqBeacon + 1
  let s := s.modLd fun l => { l with seqBeacon := q, beaconLast := some b, beaconAt := s.now }
  let f : LineFrame := ⟨s.hdr 0 q, .beacon b⟩
  (s.addKey (floodKey f s.now)).forPorts Port.all fun p t => t.sendFlood p { f with body := .beacon (txPort p b) }

/-- The BEACON table keeps the latest of each of 128 identities; the oldest leaves a full table (R128). -/
def keepBeacon (e : BeaconEntry) (l : List BeaconEntry) : List BeaconEntry :=
  let rest := l.filter fun b => b.beacon.nodeId ≠ e.beacon.nodeId
  (if 128 ≤ rest.length then rest.drop 1 else rest) ++ [e]

/-- A BEACON whose header carries the committed epoch shows which node holds its position; the first of a commit counts. -/
def Engine.noteHolder (epoch : Half) (b : BeaconP) (g : Engine) : Engine :=
  match g.commit with
  | some c =>
    if epoch = c.epoch && b.position ≠ 0 && (g.holders.all fun x => x.1 ≠ b.position) then
      { g with holders := g.holders ++ [(b.position, b.nodeId)] }
    else g
  | none => g

/-! ### Launching (R131, R139) -/

def State.launchAllowed (s : State) : Bool :=
  match s.ld.engine.lastLaunchAt with
  | some t => t + ms 10 ≤ s.now
  | none => true

/-- The leading end of a lone node (R142): where its effective cab stands, else FORE. -/
def State.loneLead (s : State) : VEnd :=
  if s.effectiveAt .aft && !s.effectiveAt .fore then .aft else .fore

def State.launchHead (s : State) : VEnd :=
  if s.terminal .fore && s.terminal .aft then s.loneLead else if s.terminal .fore then .fore else .aft

/-- A cab node's BEACON goes before any Front it launches (R132). -/
def State.cabBeacon (s : State) : State := if s.effectiveCab then s.originateBeacon else s

/-- A node launches: it proposes itself as position 1 (R131). A lone node takes the lead's step of R136 at once. -/
def State.launch (s : State) : State :=
  let h := s.launchHead
  let lone := s.terminal .fore && s.terminal .aft
  let own := epochAfter s.roundEpoch
  let epoch := match s.ld.engine.lastLaunchAt with
    | some _ => newerOf own (epochAfter s.ld.engine.lastLaunchEpoch)
    | none => own
  let bad := (s.roundVerdict h).brokenOrCut || (lone && (s.roundVerdict h.other).brokenOrCut)
  let doubt := s.roundVerdict h = .doubt || (lone && s.roundVerdict h.other = .doubt)
  let dual := lone && s.effectiveAt .fore && s.effectiveAt .aft
  let flags : RoundFlags := ⟨bad, s.noCab, dual, doubt⟩
  let out := s.laneOf h.other
  let skip := match out with | some p => p.isSkip | none => false
  let ghosts : GhostSet := if skip then ghostBit 2 else 0
  let held : HeldRound := ⟨s.nodeId, epoch, 1, h = .aft, ghosts, flags, none, out⟩
  let cp : CommitP := ⟨s.nodeId, epoch, false, 1, flags, s.nodeId, 0, 0⟩
  let s := s.modEng fun g =>
    { g with round := if lone then .switching else .launched, heldRound := some held, roundAt := s.now, own := true,
             lastLaunchAt := some s.now, lastLaunchEpoch := epoch, launchDeferred := false,
             phase0 := if lone then some (cp, s.cycle) else none }
  match out with
  | some p => if lone then s else
    s.cabBeacon.sendHop p (.front
      { leadId := s.nodeId, newEpoch := epoch, nextPos := if skip then 3 else 2, flags := flags, senderId := s.nodeId,
        sentAft := p.vend = .aft, sentSkip := skip, senderPos := 1, ghosts := ghosts })
  | none => s

/-- A launch asked for sooner than 10 ms after the last is deferred (R139); a draining node launches none (R262). -/
def State.launchOrDefer (s : State) : State :=
  if s.ld.power = .draining then s
  else if s.launchAllowed then s.launch
  else s.modEng fun g => { g with launchDeferred := true }

/-! ### Forming a commit (R138, R142 to R144) -/

/-- Standing of an end under a set, from the verdict it was formed with (Table 5.6, R144). -/
def standingOf (c : Commit) (e : VEnd) (v : Verdict) (remembered : Option Standing) : Standing :=
  let head : VEnd := if c.reversed then .aft else .fore
  let atHead : Bool := e = head && c.position = 1
  let atTail : Bool := e ≠ head && c.position = c.lastPos
  if v.joined || v.brokenOrCut then .notFree
  else if c.flags.broken then
    match remembered with
    | some .leading => .leading
    | some .trailing => .trailing
    | _ => .free
  else if c.flags.noCab then .free
  else if atHead then .leading
  else if atTail then .trailing
  else .free

/-- The set a commit frame gives to the node that holds the round (R138). -/
def commitSet (h : HeldRound) (c : CommitP) : Commit :=
  { epoch := c.newEpoch, leadId := c.leadId, lastPos := c.lastPos, position := h.position, reversed := h.reversed,
    flags := c.flags, tailId := c.tailId, ghosts := c.ghosts }

/-- Standings and committed verdicts as a prepared switch will set them. -/
def EndState.switched (e : VEnd) (w : Switch) (v : EndState) : EndState :=
  let verdict := match e with | .fore => w.fore | .aft => w.aft
  let st := standingOf w.set e verdict v.remembered
  { v with committed := verdict, standing := st, remembered := if w.set.flags.broken then v.remembered else some st }

def State.withStandings (w : Switch) (s : State) : State :=
  (s.modVend .fore (EndState.switched .fore w)).modVend .aft (EndState.switched .aft w)

/-- The required states a switch will put in force; none where the CD sends no STATE (R304). -/
def State.switchMask (w : Switch) (s : State) : Option ChMask :=
  if s.cd.running && !s.cd.frost then some (s.withStandings w).formReqLit else none

/-- The CD sends the required states of a prepared switch to both lamp dies, for its boundary (R138, R172). -/
def State.sendCommitState (w : Switch) (s : State) : State :=
  match w.mask with
  | some m =>
    let p := cmdState m (BitVec.ofNat 32 (cycleOf w.boundary)) w.set.epoch
    (s.sendCommand .cdLa .commit p).sendCommand .cdLb .commit p
  | none => s

/-- A switch is prepared: the verdicts are taken now, pending ends as R127 counts them. -/
def State.prepareSwitch (h : HeldRound) (c : CommitP) (boundary : TrainTime) (outside : Bool) (s : State) : State :=
  let w : Switch := ⟨commitSet h c, s.roundVerdict .fore, s.roundVerdict .aft, boundary, outside, h.headPort, none⟩
  let w := { w with mask := s.switchMask w }
  (s.modEng fun g => { g with round := .switching, switch := some w }).sendCommitState w

/-! ### Accepting a Front (R133 to R135) -/

/-- The Front loses to the round the node holds (R132, R133). -/
def State.loses (s : State) (f : FrontP) : Bool :=
  match s.ld.engine.heldRound with
  | some r => r.leadId ≠ f.leadId && s.beats r.leadId f.leadId
  | none => false

/-- Whether SENDER[6] names the kind of lane a Front arrived on, and NEXT_POS, unless it is 0, follows from SENDER[5:0]. -/
def frontWellSent (p : Port) (f : FrontP) : Bool :=
  f.sentSkip = p.isSkip && (f.nextPos = 0 || f.nextPos.toNat = f.senderPos.toNat + (if p.isSkip then 2 else 1))

/-- The round a node holds from a Front it accepts. -/
def heldOf (p : Port) (f : FrontP) (epoch : Half) (ghosts : GhostSet) (flags : RoundFlags) (tail : Option Port) :
    HeldRound :=
  { leadId := f.leadId, epoch := epoch, position := f.nextPos, reversed := p.vend = .aft, ghosts := ghosts,
    flags := flags, headPort := some p, tailPort := tail }

def State.holdRound (r : HeldRound) (st : Round) (s : State) : State :=
  s.modEng fun g => { g with round := st, heldRound := some r, roundAt := s.now, own := false, phase0 := none, waitingFront := none }

/-- A Front goes onward from this node (Table 5.3, Relay). -/
def relayOf (s : State) (f : FrontP) (q : Port) (epoch : Half) (next : Position) (ghosts : GhostSet) : FrontP :=
  { f with newEpoch := epoch, nextPos := next, senderId := s.nodeId, sentAft := q.vend = .aft, sentSkip := q.isSkip,
           senderPos := f.nextPos, ghosts := ghosts }

/-- The node is the tail: it sends COMMIT PHASE 0 on the lane on which the Front arrived (R134). -/
def State.tailCommit (p : Port) (f : FrontP) (s : State) : State :=
  let v := s.roundVerdict p.vend.other
  let epoch := newerOf f.newEpoch (epochAfter s.roundEpoch)
  let flags : RoundFlags :=
    { broken := f.flags.broken || v.brokenOrCut, noCab := f.flags.noCab,
      dualCab := f.flags.dualCab || (s.effectiveCab && s.cabClass f.leadId = 0), doubt := f.flags.doubt || v = .doubt }
  let s := s.holdRound (heldOf p f epoch f.ghosts flags none) .tailed
  s.sendHop p (.commit ⟨f.leadId, epoch, false, f.nextPos, flags, s.nodeId, f.ghosts, 0⟩)

/-- The position the node would propose onward on a lane. -/
def onward (f : FrontP) (q : Port) : Nat := f.nextPos.toNat + (if q.isSkip then 2 else 1)

/-- The node cuts the train at its other end: it sends the cut, treats that end as CUT and is the tail (R135). -/
def State.cutTrain (p q : Port) (f : FrontP) (s : State) : State :=
  let epoch := newerOf f.newEpoch (epochAfter s.roundEpoch)
  let cut : FrontP := { relayOf s f q epoch 0 f.ghosts with flags := { f.flags with broken := true } }
  let s := ((s.sendHop q (.front cut)).modVend q.vend fun v => { v with cut := true }).evalEnd q.vend
  (s.ldRaise fOverLength q.vend.subject []).tailCommit p f

/-- A Front is accepted: it goes onward, is answered by the tail, or gives way to the node's own launch. -/
def State.acceptFront (p : Port) (f : FrontP) (s : State) : State :=
  let g := s.ld.engine
  let other := p.vend.other
  let ownWins := !(g.own && g.round = .launched) && s.beats s.nodeId f.leadId && s.terminal other
  if ownWins && s.ld.power ≠ .draining then
    if s.launchAllowed then s.launch else s.modEng fun g => { g with launchDeferred := true }
  else
    let s := (s.modVend p.vend fun v => { v with cut := false }).evalEnd p.vend
    let s := if s.noCab ≠ f.flags.noCab then s.ldRaise fNoCabMismatch noSubject [flag s.noCab 0] else s
    match s.laneOf other with
    | some q =>
      if 63 < onward f q then s.cutTrain p q f
      else
        let epoch := newerOf f.newEpoch (epochAfter s.roundEpoch)
        let ghosts := if q.isSkip then f.ghosts ||| ghostBit (f.nextPos + 1) else f.ghosts
        let next := BitVec.ofNat 6 (onward f q)
        (s.holdRound (heldOf p f epoch ghosts f.flags (some q)) .held).sendHop q
          (.front (relayOf s f q epoch next ghosts))
    | none => s.tailCommit p f

def State.countRejected (s : State) : State :=
  s.modEng fun g => { g with frontsRejected := satAdd g.frontsRejected 1 }

/-- A cut: no round is held from it, and the arrival end takes the verdict CUT (R135). -/
def State.takeCut (p : Port) (s : State) : State :=
  (s.modVend p.vend fun v => { v with cut := true }).engineEvent

/-- In SWITCHING the winner of the Fronts received is kept for the boundary (R133). -/
def State.keepFront (p : Port) (h : LineHdr) (f : FrontP) (s : State) : State :=
  let stays := match s.ld.engine.waitingFront with
    | some (_, _, w) => w.leadId ≠ f.leadId && s.beats w.leadId f.leadId
    | none => false
  if stays then s else s.modEng fun g => { g with waitingFront := some (p, h, f) }

/-- A received Front, a cut too, is checked and ranked (R133, R135). -/
def State.handleFront (p : Port) (h : LineHdr) (f : FrontP) (s : State) : State :=
  if !frontWellSent p f || s.loses f then s.countRejected
  else if s.ld.engine.round = .switching then s.keepFront p h f
  else if f.nextPos = 0 then s.takeCut p
  else s.acceptFront p f

end Sys2Proof.Machine
end

