-- ==== Sys2Proof/Machine/Inauguration.lean ====
section
/-! DEFINITION. The rows of chapter 5: vehicle inputs, verdict timers, BEACON, calls, Fronts, commits and ghosts (R145,
R146). -/

namespace Sys2Proof.Machine

/-! ### Receiving on a port (Tables 4.4 and 4.8) -/

def countFenced (c : PortCounters) : PortCounters := { c with fencedDrop := satAdd c.fencedDrop 1 }

def countEpoch (c : PortCounters) : PortCounters := { c with epochDrop := satAdd c.epochDrop 1 }

/-- What becomes of a frame other than ALARM, BEACON and CREDIT before its class is looked at: a fenced port drops it
(R107), a port without its first BEACON has no route for it (R102), and Table 4.4 checks its EPOCH. -/
def State.gate (p : Port) (ownEpoch : Bool) (h : LineHdr) (k : State → State) (s : State) : State :=
  if !s.laneUp p then s
  else if s.shut p then s.modCounters p countFenced
  else if !(s.lane p).beaconSeen then s.modCounters p countNoRoute
  else if ownEpoch && h.epoch ≠ s.epoch then s.modCounters p countEpoch
  else k s

/-- A frame of a credit class before its class is looked at. What is dropped here counts as accepted and freed (R100); an
unnumbered node has no route for an addressed frame, whatever its EPOCH (R91). -/
def State.gatePooled (p : Port) (f : LineFrame) (k : State → State) (s : State) : State :=
  let drop := fun count => (s.modCounters p count).refuse p f.body
  if !s.laneUp p then s
  else if s.shut p then drop countFenced
  else if !(s.lane p).beaconSeen then drop countNoRoute
  else if lineScope f = 1 && s.position = 0 then drop countNoRoute
  else if f.hdr.epoch ≠ s.epoch then drop countEpoch
  else k s

/-- Where a frame of a credit class that has passed the checks goes: to this node, onward, or both (R91, R92). -/
def State.sortPooled (p : Port) (f : LineFrame) (whole : Bool) (take : State → State) (s : State) : State :=
  let here := fun (s : State) => (s, true)
  if lineScope f = 2 then
    let k := floodKey f s.now
    if s.seenKey k then s.startIngress p f whole false here take
    else (s.addKey k).startIngress p f whole true (State.forwardCarried p f whole) take
  else if f.hdr.dst = s.position then s.startIngress p f whole true here take
  else s.startIngress p f whole false (State.forwardAddressed p f whole) take

/-- A frame of a credit class arrives: its header, or, where its header has been acted on before, its last byte (R95). -/
def State.ingress (p : Port) (f : LineFrame) (whole : Bool) (take : State → State) (s : State) : State :=
  let s := s.tookArrival p f
  match (s.port p).rx.inCut with
  | some c =>
    if c.frame = f then (if whole then s.finishIngress p c take else s)
    else (s.dropIngress p).gatePooled p f (State.sortPooled p f whole take)
  | none => s.gatePooled p f (State.sortPooled p f whole take)

/-! ### Vehicle inputs at REF (R121, R122, R416) -/

/-- The classes Table 16.10 allows for an input current in microamperes: one, or the two neighbours of a guard band. -/
def inputClasses (ua : Int) : InputClass × InputClass :=
  if ua < -200 then (.out, .out)
  else if ua < -100 then (.out, .inactive)
  else if ua ≤ 450 then (.inactive, .inactive)
  else if ua < 600 then (.inactive, .out)
  else if ua ≤ 1400 then (.out, .out)
  else if ua < 1500 then (.out, .active)
  else if ua ≤ 3400 then (.active, .active)
  else if ua ≤ 3550 then (.active, .out)
  else (.out, .out)

def classState : InputClass → Filtered | .active => 1 | .inactive => 0 | .out => 2

/-- One sample through the filter of R121. "Within the last 2,000 samples" is counted from the last sample of a steady run, so that a
run counts which has ended within them (DESIGN CHOICE, log entry 79). -/
def InputFilter.sample (c : InputClass) (f : InputFilter) : InputFilter :=
  let run := if c = f.cls then f.run + 1 else 1
  let steady := 500 ≤ run
  let since := if steady then 0 else f.sinceSteady + 1
  { cls := c, run := min run 500, sinceSteady := min since 2000,
    state := if steady then classState c else if 2000 ≤ since then 2 else f.state }

/-- A current is classed; in a guard band either neighbour is a free value (log entry 4). -/
def State.classify (s : State) (ua : Int) : InputClass × State :=
  let (a, b) := inputClasses ua
  if a = b then (a, s) else (if Config.freeBool s.freeCount then a else b, s.drawFree)

def State.sampleInput (get : Ref → InputFilter) (set : InputFilter → Ref → Ref) (ua : Int) (s : State) : State :=
  let (c, s) := s.classify ua
  let old := get s.ref
  let new := old.sample c
  s.modRef fun r => set new (if new.state ≠ old.state then { r with vcount := r.vcount + 1 } else r)

def execVinputSample (cabAct cplFore cplAft aux1 aux2 : Int) (s : State) : Host.Outcome State Fault Refusal :=
  let s := s.sampleInput Ref.cab (fun f r => { r with cab := f }) cabAct
  let s := s.sampleInput Ref.cplFore (fun f r =>
    { r with cplFore := f, ageForeAt := if f.state ≠ r.cplFore.state then s.now else r.ageForeAt }) cplFore
  let s := s.sampleInput Ref.cplAft (fun f r =>
    { r with cplAft := f, ageAftAt := if f.state ≠ r.cplAft.state then s.now else r.ageAftAt }) cplAft
  let s := s.sampleInput Ref.aux1 (fun f r => { r with aux1 := f }) aux1
  .next (s.sampleInput Ref.aux2 (fun f r => { r with aux2 := f }) aux2)

/-- Milliseconds since a moment, saturating at 65,535. -/
def ageMs (now at_ : Nat) : Half := BitVec.ofNat 16 (min ((now - at_) / 1000000) 65535)

/-- The VINPUT payload (Table 5.1). -/
def State.vinputBytes (s : State) : List Byte :=
  let r := s.ref
  [r.cplFore.state ++ r.cplAft.state ++ r.cab.state ++ r.aux1.state, r.aux2.state ++ 0#6] ++ be16 r.vcount
    ++ be16 (ageMs s.now r.ageForeAt) ++ be16 (ageMs s.now r.ageAftAt)

def execVinputSend (s : State) : Host.Outcome State Fault Refusal :=
  let changed := slice s.vinputBytes 0 2 ≠ slice s.ref.vinput 0 2
  let s := if changed then s else s.until (s.ref.vinputAt + ms 1)
  let p := s.vinputBytes
  .next ((s.modRef fun r => { r with vinput := p, vinputAt := s.now }).sendLink .cdRef .second (.vinput p))

/-- No field of a VINPUT payload holds the reserved code, and LEN is 8 (R122). -/
def vinputOk (l : List Byte) : Bool :=
  l.length = 8 && vinputField l .cplFore ≠ 3 && vinputField l .cplAft ≠ 3 && vinputField l .cab ≠ 3
    && vinputField l .aux1 ≠ 3 && vinputField l .aux2 ≠ 3

def execVinputReceived (payload : List Byte) (s : State) : Host.Outcome State Fault Refusal :=
  let e := s.lend .cdRef .first
  if !e.running then .next s
  else
    let s := s.modEnd .cdRef .first fun x => { x with lastValidAt := s.now }
    if !vinputOk payload || s.ld.inReset then .next s
    else
      let stale := s.ld.engine.inputsStale
      let s := s.modEng fun g => { g with inputs := payload, inputsAt := s.now, inputsStale := false }
      let s := if stale then s.ldClear fInputsStale 0x42 else s
      .next s.engineEvent

def execVinputStale (s : State) : Host.Outcome State Fault Refusal :=
  if s.ld.engine.inputsStale || !s.ldRuns then .next s
  else
    let s := s.until (s.ld.engine.inputsAt + ms 3)
    .next (((s.modEng fun g => { g with inputsStale := true }).ldRaise fInputsStale 0x42 []).engineEvent)

/-! ### Verdict timers (Table 5.2, R126) -/

/-- The timer of a pending row runs out. -/
def State.rowExpires (e : VEnd) (s : State) : State :=
  (s.until ((s.vend e).rowAt + rowTime (s.vend e).row)).modVend e fun v => { v with rowExpired := true }

def execJoiningTimeout (e : VEnd) (s : State) : Host.Outcome State Fault Refusal :=
  let v := s.vend e
  if (v.row = 4 || v.row = 6) && !v.rowExpired then
    let s := (s.rowExpires e).modVend e fun v => { v with disagreeRaised := true }
    .next ((s.ldRaise fCouplerDisagrees e.subject [(s.contact e).zeroExtend 8]).engineEvent)
  else .next s

def execHoldingTimeout (e : VEnd) (s : State) : Host.Outcome State Fault Refusal :=
  let v := s.vend e
  if (v.row = 8 || v.row = 9) && !v.rowExpired then .next ((s.rowExpires e).engineEvent) else .next s

def execFencedBrokenTimeout (e : VEnd) (s : State) : Host.Outcome State Fault Refusal :=
  match (s.vend e).fencedAt with
  | some t =>
    if s.shut e.near && !(s.vend e).fencedLong then
      .next ((((s.until (t + ms 1000)).modVend e fun v => { v with fencedLong := true })).engineEvent)
    else .next s
  | none => .next s

/-! ### BEACON (R128, R253) -/

def execBeaconSend (s : State) : Host.Outcome State Fault Refusal :=
  if !s.ldRuns then .next s
  else
    let n := if s.cd.lastWord then 1 else 8
    let s := if s.ld.beaconLast = some s.beaconNow then s.until (s.ld.beaconAt + n * cycleNs) else s
    .next s.originateBeacon

def execBeaconEntryAged (id : NodeId) (s : State) : Host.Outcome State Fault Refusal :=
  match s.ld.engine.beacons.find? fun b => b.beacon.nodeId = id with
  | some b =>
    let s := s.until (b.at_ + 24 * cycleNs)
    .next (s.modEng fun g => { g with beacons := g.beacons.filter fun b => b.beacon.nodeId ≠ id })
  | none => .next s

/-! ### Calls and launches (R129, R130, R139) -/

/-- Each call after which no commit numbered the node doubles the interval, up to 1.0 s (R129). -/
def State.doubleInterval (s : State) : State :=
  let g := s.ld.engine
  if g.lastCallAt.isSome && !g.numberedSinceCall then
    let n := min (2 * g.callInterval) (ms 1000)
    let s := s.modEng fun g => { g with callInterval := n }
    if n = ms 1000 && !g.notNumberedRaised then
      (s.modEng fun g => { g with notNumberedRaised := true }).ldRaise fNotNumbered noSubject []
    else s
  else s

def execInaugurationCall (s : State) : Host.Outcome State Fault Refusal :=
  let r := s.ld.engine.round
  if s.ldRuns && s.ld.power ≠ .draining && (r = .idle || r = .called) && s.wantsCall then
    let s := match s.ld.engine.lastCallAt with
      | some t => s.until (t + s.ld.engine.callInterval)
      | none => s
    let s := s.doubleInterval
    let s := s.modEng fun g => { g with lastCallAt := some s.now, numberedSinceCall := false }
    let s := (s.sendCall .fore).sendCall .aft
    if s.endNode then .next s.launchOrDefer
    else .next (s.modEng fun g => { g with round := .called, roundAt := s.now })
  else .next s

def execCallReceived (p : Port) (h : LineHdr) (f : FrontP) (s : State) : Host.Outcome State Fault Refusal :=
  .next ((s.tookArrival p ⟨h, .front f⟩).gate p false h (fun s =>
    if f.leadId ≠ 0 then s
    else if s.endNode then
      (if s.ld.engine.round = .idle || s.ld.engine.round = .called then s.launchOrDefer else s)
    else if s.ld.engine.round = .idle then
      (s.sendCall p.vend.other).modEng fun g => { g with round := .called, roundAt := s.now }
    else s))

def execDeferredLaunch (s : State) : Host.Outcome State Fault Refusal :=
  let g := s.ld.engine
  if g.launchDeferred && s.ldRuns then
    let s := match g.lastLaunchAt with | some t => s.until (t + ms 10) | none => s
    let s := s.modEng fun g => { g with launchDeferred := false }
    if s.endNode && (g.round = .idle || g.round = .called) && s.ld.power ≠ .draining then .next s.launch else .next s
  else .next s

/-! ### Fronts (R133 to R135) -/

def execFrontReceived (p : Port) (h : LineHdr) (f : FrontP) (s : State) : Host.Outcome State Fault Refusal :=
  .next ((s.tookArrival p ⟨h, .front f⟩).gate p false h (fun s =>
    if f.leadId = 0 || f.nextPos = 0 then s else s.handleFront p h f))

def execCutReceived (p : Port) (h : LineHdr) (f : FrontP) (s : State) : Host.Outcome State Fault Refusal :=
  .next ((s.tookArrival p ⟨h, .front f⟩).gate p false h (fun s =>
    if f.leadId = 0 || f.nextPos ≠ 0 then s else s.handleFront p h f))

/-! ### Commits (R136 to R138) -/

/-- PHASE 0 matches when it comes on the lane of the node's own Front and names its round (R136). -/
def execCommitPhase0Received (p : Port) (h : LineHdr) (c : CommitP) (s : State) : Host.Outcome State Fault Refusal :=
  .next ((s.tookArrival p ⟨h, .commit c⟩).gate p false h (fun s =>
    let g := s.ld.engine
    match g.heldRound with
    | some r =>
      if c.phase1 || r.tailPort ≠ some p || r.leadId ≠ c.leadId then s
      else if g.round = .held then
        match r.headPort with
        | some q => s.sendHop q (.commit c)
        | none => s
      else if g.round = .launched then
        s.modEng fun g => { g with round := .switching, phase0 := some (c, s.cycle) }
      else s
    | none => s))

/-- The lead floods PHASE 1 after the boundary of cycle c + 1, naming cycle c + 2, or c + 3 where the low 32 bits of
c + 2 are 0 (R136, R175). -/
def execPhase1Send (s : State) : Host.Outcome State Fault Refusal :=
  match s.ld.engine.phase0, s.ld.engine.heldRound with
  | some (c, n), some r =>
    if s.ld.engine.round ≠ .switching || s.ld.engine.switch.isSome then .next s
    else
      let wait := if (BitVec.ofNat 32 (n + 2) : Word) = 0 then 2 else 1
      let s := s.until (s.momentOf (BitVec.ofNat 64 ((n + wait) * cycleNs)))
      let q := s.ld.seqCommitFlood + 1
      let out : CommitP := { c with phase1 := true, switchCycle := BitVec.ofNat 32 (n + wait + 1) }
      let s := (s.modLd fun l => { l with seqCommitFlood := q }).originate ⟨s.hdr 0 q, .commit out⟩
      let s := if c.flags.dualCab then s.ldRaise fDualCab noSubject (be48 c.tailId) else s
      .next (s.prepareSwitch { r with epoch := c.newEpoch } out (BitVec.ofNat 64 ((n + wait + 1) * cycleNs)) false)
  | _, _ => .next s

/-- The committing time domain of R137. An unnumbered node counts the lane it last took time from as its source, also where that lane
is not usable any more (DESIGN CHOICE, log entry 80). -/
def State.inDomain (s : State) (h : LineHdr) : Bool :=
  if s.commit?.isSome then h.epoch = s.epoch
  else match s.ld.clock.sourcePort with
    | some p => (s.port p).lastTimeEpoch = h.epoch && h.epoch ≠ 0
    | none => false

/-- The start of a cycle, or of the following one where the low 32 bits of its number are 0 (R175). -/
def boundaryOf (n : Nat) : TrainTime :=
  BitVec.ofNat 64 ((if (BitVec.ofNat 32 n : Word) = 0 then n + 1 else n) * cycleNs)

/-- The moment at which a node in the domain switches, and whether the named boundary had already passed. -/
def State.domainBoundary (s : State) (n : Word) : TrainTime × Bool :=
  if ahead32 n s.cycle32 then (BitVec.ofNat 64 ((s.cycle + (n - s.cycle32).toNat) * cycleNs), false)
  else (boundaryOf (s.cycle + 1), true)

/-- A node outside the domain switches at its first own boundary at least 38 µs away; where its low 32 bits are 0, at
the following one, and late (R137, R175). -/
def State.ownBoundary (s : State) : TrainTime × Bool :=
  let n := (s.trainTime.toNat + 38000 + cycleNs - 1) / cycleNs
  (boundaryOf n, (BitVec.ofNat 32 n : Word) = 0)

def State.raiseRoleLate (late : Bool) (n : Word) (s : State) : State :=
  if late then s.ldRaise fRoleLate noSubject (be32 n) else s

/-- A PHASE 1 that matches the committed set is a ghost update (R138, R145). -/
def State.takeGhosts (c : CommitP) (s : State) : State :=
  match s.commit? with
  | some k =>
    if k.leadId = c.leadId && k.epoch = c.newEpoch then
      s.modEng fun g => { g with ghostSwitch := some (c.ghosts, c.switchCycle) }
    else s
  | none => s

/-- What PHASE 1 does at the node beside its flooding (R137, R138). -/
def State.takePhase1 (h : LineHdr) (c : CommitP) (s : State) : State :=
  let g := s.ld.engine
  match g.heldRound with
  | some r =>
    if (g.round = .held || g.round = .tailed) && r.leadId = c.leadId then
      let inside := s.inDomain h
      let (b, late) := if inside then s.domainBoundary c.switchCycle else s.ownBoundary
      (s.prepareSwitch r c b (!inside)).raiseRoleLate late c.switchCycle
    else s.takeGhosts c
  | none => s.takeGhosts c

def execCommitPhase1Received (p : Port) (h : LineHdr) (c : CommitP) (s : State) : Host.Outcome State Fault Refusal :=
  .next ((s.tookArrival p ⟨h, .commit c⟩).gate p false h (fun s =>
    let f : LineFrame := ⟨h, .commit c⟩
    let k := floodKey f s.now
    if !c.phase1 || s.seenKey k then s
    else ((s.addKey k).forwardFlood p f).takePhase1 h c))

/-! ### Applying a commit (R103, R138, R338) -/

/-- Local frames of the old epoch: floods go out with the new epoch, addressed frames are dropped as stale (R103). -/
def State.staleQueues (p : Port) (s : State) : State :=
  let x := s.port p
  let stale := x.localMgmt.length + (x.localCarried.filter fun f => f.hdr.dst ≠ 0).length
  (s.modCounters p fun c => { c with epochDrop := satAdd c.epochDrop stale }).modPort p fun x =>
    { x with localMgmt := [], localCarried := (x.localCarried.filter fun f => f.hdr.dst = 0).map fun f =>
        { f with hdr := { f.hdr with epoch := s.epoch, src := s.position } } }

/-- Tags that are fetching are held with EPOCH_CHANGED (Table 12.9). -/
def Tag.epochChanged (now : Nat) (t : Tag) : Tag :=
  if t.st = .fetching then { t with st := .held, at_ := now, rcode := 0x04, data := [], parts := [] } else t

def Writer.isFar : Writer → Bool | .far _ => true | .host => false

/-- A slot returns to FREE; the bytes its owner wrote stay readable (R336). -/
def MbxSlot.freed (x : MbxSlot) : MbxSlot :=
  { x with st := .free, owner := none, resp := [], missed := false, orphaned := false }

/-- A slot of a far owner at a commit (R338): BUSY is served to its end and then freed, any other is freed. -/
def MbxSlot.commit (x : MbxSlot) : MbxSlot :=
  match x.owner with
  | some (.far _) => if x.st = .busy then { x with orphaned := true } else x.freed
  | _ => x

/-- The books of the CD at a commit: bridge tags, far-owned slots and staging (R103, R338, R348). -/
def ControlDie.commit (now : Nat) (c : ControlDie) : ControlDie :=
  { c with
    tags := c.tags.map (Tag.epochChanged now)
    slots := c.slots.map MbxSlot.commit
    staging := match c.staging with
      | some (_, .far _) => none
      | x => x }

def gustPower : GustCode → PowerState | .active => .active | .lull => .lull

/-- The power state changes, and the host is told (Table 12.5). -/
def State.setPower (p : PowerState) (s : State) : State :=
  if s.ld.power = p then s else (s.modLd fun l => { l with power := p, powerAt := s.now }).setEvent evPower

/-- The set of a prepared switch takes effect as one step (R23, R138). -/
def State.applySwitch (w : Switch) (s : State) : State :=
  let was := s.position
  let numbered := s.commit?.isSome
  let s := s.withStandings w
  let raised := s.ld.engine.notNumberedRaised
  let s := s.modEng fun g =>
    { g with
      commit := some w.set, switch := none, round := .idle, heldRound := none, phase0 := none, own := false,
      callInterval := ms 10, numberedSinceCall := true, cabRaisedFore := false, cabRaisedAft := false,
      notNumberedRaised := false, ghostSwitch := none, holders := [], commitAt := s.now }
  let s := s.modEng fun g => { g with committedCab := s.effectiveCab }
  let s := match w.mask with | some m => s.modCd fun c => { c with reqLit := m } | none => s
  let s := if raised then s.ldClear fNotNumbered noSubject else s
  let s := s.modLd fun l =>
    { l with
      mac := [], numberedAt := if numbered then l.numberedAt else s.now,
      sceneHost := if w.set.position = 1 && was = 1 then l.sceneHost else none,
      clock := if w.outside && w.set.position ≠ 1 then { l.clock with sourcePort := w.headPort } else l.clock }
  let s := if w.set.position = 1 then s.setRate 0 else s
  let s := s.forPorts Port.all State.staleQueues
  let s := (s.modCd (ControlDie.commit s.now)).setEvent evEpoch
  let s := if s.ld.power = .waking && w.set.position = 1 && !s.cd.frost && !s.cd.lastWord then
      match s.ld.wakeTarget with | some g => s.setPower (gustPower g) | none => s
    else s
  s.engineEvent

/-- The Front a node kept in SWITCHING is handled at its switch boundary (R133). -/
def State.handleWaiting (s : State) : State :=
  match s.ld.engine.waitingFront with
  | some (p, h, f) => (s.modEng fun g => { g with waitingFront := none }).handleFront p h f
  | none => s

/-- A ghost update takes effect at its boundary, or at the next where that has passed (R138, R145). -/
def State.applyGhosts (g : GhostSet) (n : Word) (s : State) : State :=
  let (b, _) := s.domainBoundary n
  let s := s.until (s.momentOf b)
  (s.modEng fun e => { e with
    ghostSwitch := none, commit := e.commit.map fun c => { c with ghosts := g } }).setEvent evEpoch

/-- A prepared switch runs at its boundary. -/
def State.runSwitch (w : Switch) (s : State) : State := ((s.until (s.momentOf w.boundary)).applySwitch w).handleWaiting

def execCommitApply (s : State) : Host.Outcome State Fault Refusal :=
  match s.ld.engine.switch with
  | some w =>
    if s.ldRuns then .next (s.runSwitch w) else .next s
  | none =>
    match s.ld.engine.ghostSwitch with
    | some (g, n) => .next (s.applyGhosts g n)
    | none => .next s

/-! ### Timeouts (Table 5.4) -/

def State.dropRound (s : State) : State :=
  s.modEng fun g => { g with round := .idle, heldRound := none, phase0 := none, own := false }

def execCalledTimeout (s : State) : Host.Outcome State Fault Refusal :=
  if s.ld.engine.round = .called then .next ((s.until (s.ld.engine.roundAt + callTimeoutNs)).dropRound) else .next s

def execRoundTimeout (s : State) : Host.Outcome State Fault Refusal :=
  let g := s.ld.engine
  if g.round = .launched || g.round = .held || g.round = .tailed then
    let lead := match g.heldRound with | some r => r.leadId | none => 0
    .next (((s.until (g.roundAt + callTimeoutNs)).dropRound).ldRaise fRoundTimeout noSubject (be48 lead))
  else .next s

/-! ### Ghosts (R145) -/

/-- The BEACON held from the node that holds a position, where it came within the last 24 cycles. -/
def State.beaconOf (s : State) (p : Position) : Option BeaconEntry :=
  let g := s.ld.engine
  match g.holders.find? fun x => x.1 = p with
  | some x => g.beacons.find? fun b => b.beacon.nodeId = x.2 && s.now ≤ b.at_ + 24 * cycleNs
  | none => none

/-- The node that holds p has gone dark, or no BEACON from it has come for 24 cycles. Which node holds a position is learned from its
BEACONs, so the 24 cycles of a node never heard begin with the commit (DEDUCED, log entry 85). -/
def State.silentAt (s : State) (p : Position) : Bool :=
  match s.beaconOf p with
  | some b => b.beacon.stateCode = 4
  | none => s.ld.engine.commitAt + 24 * cycleNs ≤ s.now

def State.heardAt (s : State) (p : Position) : Bool := p = s.position || (s.beaconOf p).isSome

def execGhostUpdate (p : Position) (s : State) : Host.Outcome State Fault Refusal :=
  match s.commit? with
  | some c =>
    if c.position = 1 && 2 ≤ p.toNat && p.toNat < c.lastPos.toNat && !isGhost c.ghosts p && s.silentAt p
        && s.heardAt (p - 1) && s.heardAt (p + 1) && s.ldRuns then
      let q := s.ld.seqCommitFlood + 1
      let g := c.ghosts ||| ghostBit p
      let n := skipZero (s.cycle32 + 2)
      let out : CommitP := ⟨c.leadId, c.epoch, true, c.lastPos, c.flags, c.tailId, g, n⟩
      .next (((s.modLd fun l => { l with seqCommitFlood := q }).originate ⟨s.hdr 0 q, .commit out⟩).modEng fun e =>
        { e with ghostSwitch := some (g, n) })
    else .next s
  | none => .next s

end Sys2Proof.Machine
end

