-- ==== Sys2Proof/Machine/Forwarding.lean ====
section
/-! DEFINITION. The rows of chapter 4 but CODEWORD_RECEIVED: alarms on the line and the train alarm table (R204), frames
of each class, credits, transmit order (R94), fencing (R105 to R108), the local port and train time. A hop is one codeword long for an ALARM (R96,
R98), and no wait here depends on local delivery, the management queue, the bridge or the host (R398, R399). -/

namespace Sys2Proof.Machine

/-! ### The train alarm table (R204) -/

def alarmKeeps (old : AlarmEntry) (r : AlarmRecord) : Bool :=
  !(newer16 r.seq old.record.seq || old.stale || old.record.tt.toNat + 125000000 ≤ r.tt.toNat)

/-- The entry a new identity displaces in a full table: the oldest stale one, else the one with the oldest TT. -/
def displaced (l : List AlarmEntry) : Option AlarmEntry :=
  let older := fun (f : AlarmEntry → Nat) (a b : AlarmEntry) => if f b < f a then b else a
  match l.filter (·.stale) with
  | e :: r => some (r.foldl (older (·.at_)) e)
  | [] => match l with
    | e :: r => some (r.foldl (older (·.record.tt.toNat)) e)
    | [] => none

def State.setAlarms (l : List AlarmEntry) (own : Bool) (s : State) : State :=
  (s.modLd fun d => { d with alarms := l, alarmGen := d.alarmGen + 1 }).setEvent (if own then evOwnDark else evTrainAlarm)

/-- The kinds of Table 7.6; a record of any other kind is forwarded and not entered. -/
def alarmKnown (kind : BitVec 4) : Bool := 1 ≤ kind.toNat && kind.toNat ≤ 4

/-- A record of an originating identity meets the table of 64 entries; it changes nothing but the table and the event the host sees
(R204, R205). -/
def State.enterAlarm (id : NodeId) (r : AlarmRecord) (s : State) : State :=
  if !alarmKnown r.kind then s
  else
    let own : Bool := id = s.nodeId
    let l := s.ld.alarms
    let rest := l.filter fun e => e.srcId ≠ id
    match l.find? fun e => e.srcId = id with
    | some e =>
      if alarmKeeps e r then
        s.modLd fun d => { d with alarms := d.alarms.map fun x =>
          if x.srcId = id && r.seq = x.record.seq then { x with repeatAt := s.now } else x }
      else if r.darkMask = 0 then s.setAlarms rest own
      else s.setAlarms (rest ++ [⟨id, r, s.now, s.now, false⟩]) own
    | none =>
      if r.darkMask = 0 then s
      else if l.length < 64 then s.setAlarms (l ++ [⟨id, r, s.now, s.now, false⟩]) own
      else match displaced l with
        | some e =>
          (s.setAlarms ((l.filter fun x => x.srcId ≠ e.srcId) ++ [⟨id, r, s.now, s.now, false⟩]) own).ldRaise fAlarmFull
            noSubject (be48 e.srcId)
        | none => s

def execLineAlarmReceived (p : Port) (h : LineHdr) (a : AlarmP) (s : State) : Host.Outcome State Fault Refusal :=
  let f : LineFrame := ⟨h, .alarm { a with beaconCopy := false }⟩
  let s := s.tookArrival p ⟨h, .alarm a⟩
  let k := floodKey f s.now
  if !s.laneUp p || s.seenKey k then .next s
  else
    let s := (s.addKey k).enterAlarm a.srcId a.record
    if h.ttl.toNat ≤ 1 then .next (s.modCounters p fun c => { c with ttlDrop := satAdd c.ttlDrop 1 })
    else .next (s.forPorts (oppositePorts p) fun q t => t.placeAlarm q { f with hdr := { h with ttl := h.ttl - 1 } })

/-- A record is the node's most recent one when its ALARM_SEQ is newer, or its TT 125 ms later, as R204 tells a restarted
originator. -/
def laterRecord (old : Option AlarmRecord) (r : AlarmRecord) : Bool :=
  match old with | some o => newer16 r.seq o.seq || o.tt.toNat + 125000000 ≤ r.tt.toNat | none => true

/-- The CD acts on the first valid copy and acknowledges every one (R48). It keeps the SEQ of the last ALARM it took for as
long as its endpoint runs: the manual gives that memory no end, though SEQ wraps and starts again at the die's reset (DESIGN
CHOICE, log entry 67). The record crosses to the LD's bypass, which compares TT with the LD's train time and sets LATE where
they differ by more than 5 µs (R202). -/
def execAlarmFrameReceived (d : Die) (seq : Byte) (record : AlarmRecord) (s : State) :
    Host.Outcome State Fault Refusal :=
  let e := s.lend d.cdLink .first
  if !e.running then .next s
  else
    let s := (s.answerLink d.cdLink .first seq []).modEnd d.cdLink .first fun x =>
      { x with lastValidAt := s.now, alarmSeqSeen := some seq }
    if e.alarmSeqSeen = some seq || s.ld.inReset then .next s
    else
      let s := s.carry .ctlToCore (alarmBytes record)
      let age := ((s.trainTime.toNat : Int) - (record.tt.toNat : Int)).natAbs
      let late := 5000 < age
      let r := if late then { record with late := true } else record
      let s := if late then s.ldRaise fAlarmLate noSubject (be32 (BitVec.ofNat 32 (age / 1000))) else s
      let s := s.modLd fun l => { l with ownRecord := if laterRecord l.ownRecord r then some r else l.ownRecord }
      .next ((s.originateAlarm false r).enterAlarm s.nodeId r)

def execAlarmRepeat (s : State) : Host.Outcome State Fault Refusal :=
  match s.ld.ownRecord with
  | some r =>
    if r.darkMask = 0 || !s.ldRuns then .next s
    else .next (((s.until (s.ld.alarmAt + 8 * cycleNs)).originateAlarm true r).enterAlarm s.nodeId r)
  | none => .next s

def execAlarmEntryStale (id : NodeId) (s : State) : Host.Outcome State Fault Refusal :=
  match s.ld.alarms.find? fun e => e.srcId = id with
  | some e =>
    let s := s.until (e.repeatAt + 64 * cycleNs)
    .next (s.modLd fun d => { d with alarms := d.alarms.map fun x => if x.srcId = id then { x with stale := true } else x })
  | none => .next s

/-- At the next codeword boundary the slot's ALARM is inserted; a codeword already begun leaves first (R94). -/
def execAlarmSlotInsert (p : Port) (s : State) : Host.Outcome State Fault Refusal :=
  if (s.port p).alarmSlot.isNone || !s.alarmPort p then .next s
  else
    let s := s.flush p
    let s := if (s.port p).tx.begun then s.sendCodeword p else s
    .next ((s.until (unitsNs (s.port p).tx.at_)).beginCodeword p)

def execFloodKeyAged (s : State) : Host.Outcome State Fault Refusal :=
  match s.ld.flood with
  | k :: r => .next ((s.until (k.at_ + ms 2)).modLd fun l => { l with flood := r })
  | [] => .next s

/-! ### Fencing (R105 to R108) -/

/-- The engine learns of a fencing or requalification of a near lane (R107, R125). -/
def State.noteFence (p : Port) (s : State) : State :=
  let shut := s.shut p
  let s := if p.isSkip then s else s.modVend p.vend fun v =>
    { v with fencedAt := if shut then some (v.fencedAt.getD s.now) else none, fencedLong := v.fencedLong && shut }
  s.engineEvent

/-- ERRCNT rises by one, where it is not frozen; at 96 a warning, at 255 the port is fenced (R105, R106). An error that finds it at
255, where it cannot rise, still makes the port cycle not clean (DESIGN CHOICE, log entry 73). -/
def State.bumpErr (p : Port) (s : State) : State :=
  if !s.laneUp p then s
  else
    let n := min 255 ((s.port p).errcnt + 1)
    let s := s.modPort p fun x => { x with errcnt := n, errRose := true }
    let s := if 96 ≤ n && !(s.port p).warned then
        (s.modPort p fun x => { x with warned := true }).ldRaise fPortWarning p.code [BitVec.ofNat 8 n]
      else s
    if n = 255 && !(s.port p).fenced then
      ((s.modPort p fun x => { x with fenced := true, fencedAt := s.now, requalRun := 0 }).ldRaise fPortFenced p.code
        []).noteFence p
    else s

/-- A clean port cycle: ERRCNT falls after every 16, and 128 requalify a fenced port (R105, R108). -/
def State.cleanCycle (p : Port) (s : State) : State :=
  let x := s.port p
  let run := x.cleanRun + 1
  let n := if run % 16 = 0 then x.errcnt - 1 else x.errcnt
  let done := x.fenced && 128 ≤ x.requalRun + 1
  let s := s.modPort p fun x =>
    { x with cleanRun := run, errcnt := if done then 0 else n, warned := x.warned && 64 ≤ (if done then 0 else n),
             requalRun := if x.fenced && !done then x.requalRun + 1 else 0, fenced := x.fenced && !done }
  if done then (s.ldClear fPortFenced p.code).noteFence p else s

/-- The symbol error ratio before correction exceeded 1.0 × 10^-4 in the port cycle. -/
def PortState.serHigh (x : PortState) : Bool := x.cycSym < 10000 * x.cycCorr

/-- The next port cycle begins where the last one ended: they run free (R105). -/
def execPortCycleEnd (p : Port) (s : State) : Host.Outcome State Fault Refusal :=
  if s.ld.inReset then .next s
  else
    let ends := (s.port p).cycleAt + cycleNs
    let s := s.until ends
    let s := if (s.port p).serHigh then s.bumpErr p else s
    let x := s.port p
    let whole := x.wholeUp && s.laneUp p
    let s := if !whole then s
      else if x.errRose then s.modPort p fun x => { x with cleanRun := 0, requalRun := 0 }
      else s.cleanCycle p
    .next (s.modPort p fun x =>
      { x with errRose := false, wholeUp := s.laneUp p, cycleAt := ends, cycSym := 0, cycCorr := 0 })

/-! ### BEACON (R92, R107, R128, R204, R258) -/

/-- The bit of BEACON.PORTS for a port, FORE-NEAR in the high bit. -/
def portBit (m : BitVec 4) : Port → Bool
  | .foreNear => m.getLsbD 3 | .foreSkip => m.getLsbD 2 | .aftNear => m.getLsbD 1 | .aftSkip => m.getLsbD 0

/-- The port that TX_PORT names. -/
def txPortOf (b : BeaconP) : Port :=
  match b.txAft, b.txSkip with
  | false, false => .foreNear | false, true => .foreSkip | true, false => .aftNear | true, true => .aftSkip

/-- What a state shown by position 1 asks for (Table 10.2). -/
def requestOf (code : BitVec 4) : Option PowerState :=
  match code with
  | 0 => some .active
  | 1 => some .draining
  | 2 => some .lull
  | _ => none

/-- A BEACON of the far node itself tells the state of the far port (R107). -/
def State.learnFar (p : Port) (h : LineHdr) (b : BeaconP) (s : State) : State :=
  if h.ttl = 63 && b.txSkip = p.isSkip then
    (s.modPort p fun x => { x with far := ⟨true, portBit b.fenced (txPortOf b), b.nodeId⟩ }).noteFence p
  else s

/-- A forwarding node writes its own egress lane into TX_PORT; the manual does not say whether a forwarded BEACON keeps its
originator's (DESIGN CHOICE, log entry 74). -/
def execBeaconReceived (p : Port) (h : LineHdr) (b : BeaconP) (s : State) : Host.Outcome State Fault Refusal :=
  if !s.laneUp p then .next s
  else
    let s := (s.tookArrival p ⟨h, .beacon b⟩).modLane p fun l => { l with beaconSeen := true }
    let s := s.modEng fun g => { g.noteHolder h.epoch b with beacons := keepBeacon ⟨b, s.now, p⟩ g.beacons }
    let s := s.learnFar p h b
    let stale := s.ld.alarms.any fun e => e.srcId = b.nodeId && e.stale
    let s := if stale then s.setAlarms (s.ld.alarms.filter fun e => e.srcId ≠ b.nodeId) (b.nodeId = s.nodeId) else s
    let fresh := !s.seenKey (floodKey ⟨h, .beacon b⟩ s.now)
    let asks := fresh && s.commit?.isSome && s.position ≠ 1 && b.position = 1 && b.nodeId = s.leadId && !s.cd.frost && !s.cd.lastWord
    let s := if asks then s.modLd fun l =>
      { l with request := requestOf b.stateCode, requestFrom := some b.nodeId, requestAt := s.nextBoundary } else s
    let f : LineFrame := ⟨h, .beacon b⟩
    let k := floodKey f s.now
    let s := if !fresh then s
      else if h.ttl.toNat ≤ 1 then (s.addKey k).modCounters p fun c => { c with ttlDrop := satAdd c.ttlDrop 1 }
      else (s.addKey k).forPorts (oppositePorts p) fun q t =>
        t.sendFlood q { hdr := { h with ttl := h.ttl - 1 }, body := .beacon (txPort q b) }
    .next s.engineEvent

/-! ### Credits (R100, R101) -/

def execCreditReceived (p : Port) (h : LineHdr) (c : CreditP) (s : State) : Host.Outcome State Fault Refusal :=
  if !s.laneUp p then .next s
  else .next ((s.tookArrival p ⟨h, .credit c⟩).modPort p fun x =>
    { x with
      mgmt := { x.mgmt with farFree := c.mFree, sent := if x.creditSeen then x.mgmt.sent else c.mAcc }
      carried := { x.carried with farFree := c.cFree, sent := if x.creditSeen then x.carried.sent else c.cAcc }
      creditSeen := true })

/-- The counts that CREDIT carries. -/
def PortState.counts (x : PortState) : CreditP := ⟨x.carried.acc, x.carried.freed, x.mgmt.acc, x.mgmt.freed⟩

def isCredit (f : LineFrame) : Bool := match f.body with | .credit _ => true | _ => false

/-- After any change of its counts a port sends CREDIT at once, and otherwise once per cycle. One that has not started is replaced,
so that no codeword holds two (R100). -/
def execCreditSend (p : Port) (s : State) : Host.Outcome State Fault Refusal :=
  if !s.laneUp p then .next s
  else
    let x := s.port p
    let s := if x.counts ≠ x.creditSent then s else s.until (x.creditAt + cycleNs)
    let s := s.modPort p fun x => { x with
      control := x.control.filter fun f => !isCredit f, creditSent := x.counts, creditAt := s.now }
    .next (s.sendHop p (.credit x.counts))

/-! ### Transmit order (R94) -/

/-- The local port runs only in Active, outside Frost and the last-word window (Table 10.1, R253, R304). -/
def State.localOn (s : State) : Bool := s.ld.power = .active && !s.cd.frost && !s.cd.lastWord && !s.ld.inReset

/-- A control frame may start: BEACON and CREDIT on a lane that is UP, though fenced or before its first BEACON; every other
class as the port carries frames (R102, R107). A codeword takes one CREDIT at most (R100). -/
def State.mayStart (s : State) (p : Port) (f : LineFrame) : Bool :=
  match f.body with
  | .beacon _ => true
  | .credit _ => (s.port p).creditCw ≠ some (s.port p).tx.at_
  | _ => s.carries p

/-- Credits cover the frame, and the first CREDIT since the port came up has arrived (R100, R101). -/
def PortState.covers (x : PortState) (f : LineFrame) : Bool :=
  x.creditSeen && match f.body with
    | .mgmt _ => unitsOf f.body ≤ x.mgmt.free poolMgmt
    | .carried _ => unitsOf f.body ≤ x.carried.free poolCarried
    | _ => true

/-- A frame whose last byte has not come is cut through only where the egress rate is not above the ingress rate; otherwise it is
stored whole first (R95). -/
def State.ready (s : State) (p : Port) (t : Transit) : Bool := t.whole || !(s.lane t.src).nrz || (s.lane p).nrz

/-- The four queues of credit classes, in the order of R94. -/
inductive TxQueue | transitMgmt | transitCarried | localMgmt | localCarried
  deriving DecidableEq, Repr

/-- The first frame of a queue that may start, and its transit entry. A pool's local frames wait behind that pool's transit frames
(R94: transit never waits on local traffic); the node originates CARRIED frames only while its local port runs (R256). -/
def State.headOf (s : State) (p : Port) (q : TxQueue) : Option (Option Transit × LineFrame) :=
  let x := s.port p
  let transit := fun (l : List Transit) => (l.head?.filter (s.ready p)).map fun t => (some t, t.frame)
  let own := fun (l : List LineFrame) (before : List Transit) =>
    if before.isEmpty then l.head?.map fun f => ((none : Option Transit), f) else none
  match q with
  | .transitMgmt => transit x.transitMgmt
  | .transitCarried => transit x.transitCarried
  | .localMgmt => own x.localMgmt x.transitMgmt
  | .localCarried => if s.localOn then own x.localCarried x.transitCarried else none

def PortState.popOf (q : TxQueue) (x : PortState) : PortState :=
  match q with
  | .transitMgmt => { x with transitMgmt := x.transitMgmt.drop 1 }
  | .transitCarried => { x with transitCarried := x.transitCarried.drop 1 }
  | .localMgmt => { x with localMgmt := x.localMgmt.drop 1 }
  | .localCarried => { x with localCarried := x.localCarried.drop 1 }

/-- The next frame of a credit class: the first in the order of R94 that may start and that its credits cover. -/
def State.nextPooled (s : State) (p : Port) : Option (TxQueue × Option Transit × LineFrame) :=
  if !s.carries p then none
  else [TxQueue.transitMgmt, .transitCarried, .localMgmt, .localCarried].findSome? fun q =>
    match s.headOf p q with
    | some (t, f) => if (s.port p).covers f then some (q, t, f) else none
    | none => none

/-- A frame of a credit class starts: its units count as sent, and a transit frame's as freed when it has left. -/
def State.startPooled (p : Port) (t : Option Transit) (f : LineFrame) (s : State) : State :=
  let n := BitVec.ofNat 16 (unitsOf f.body)
  let s := (s.modPool p f.body fun c => { c with sent := c.sent + n }).modPort p fun x => { x with
    cutThrough := match t with | some t => if t.whole then none else some t.src | none => none
    tx := { x.tx with frees := match t with | some t => if t.frees then some (t.src, f.body) else none | none => none } }
  (s.emit (.line p f)).placeFrame p (lineBytes f)

/-- Low 32 bits of train time in nanoseconds, as stamps carry it. -/
def State.stamp (s : State) : Word := s.trainTime.extractLsb' 0 32

/-- A control frame as it starts: a TIME frame takes its stamps at the start of the codeword in which its header begins (R115,
R116). -/
def State.atStart (s : State) (f : LineFrame) : LineFrame :=
  match f.body with
  | .time t => { f with body := .time { t with tt := s.trainTime, t3 := if t.echo then s.stamp else t.t3 } }
  | _ => f

/-- A control frame starts; the stamp of a request is kept for its answer (R116). -/
def State.startControl (p : Port) (f : LineFrame) (s : State) : State :=
  let f := s.atStart f
  let s := s.modPort p fun x => { x with
    control := dropFirst (s.mayStart p) x.control, cutThrough := none
    creditCw := if isCredit f then some x.tx.at_ else x.creditCw
    echoOut := match f.body with | .time t => if t.echoReq then some (f.hdr.seq, s.stamp) else x.echoOut | _ => x.echoOut }
  (s.emit (.line p f)).placeFrame p (lineBytes f)

/-- The frame that starts next on a port, if any. -/
def State.startNext (p : Port) (s : State) : State :=
  match (s.port p).control.find? (s.mayStart p) with
  | some f => s.startControl p f
  | none => match s.nextPooled p with
    | some (q, t, f) => (s.modPort p (PortState.popOf q)).startPooled p t f
    | none => s

/-- A frame is waiting that may start. -/
def State.waiting (s : State) (p : Port) : Bool :=
  (s.port p).control.any (fun f => isCredit f || s.mayStart p f) || (s.nextPooled p).isSome

/-- The next frame starts at the frame boundary; none while the rest of a frame that is cut through is still to come. -/
def State.transmit (p : Port) (s : State) : State :=
  if !s.laneUp p || (s.port p).cutThrough.isSome || !s.waiting p then s else (s.toFrameBoundary p).startNext p

def execFrameTransmitStart (p : Port) (s : State) : Host.Outcome State Fault Refusal := .next (s.transmit p)

/-! ### The local port and CARRIED frames (R109 to R112, R256) -/

/-- The interfaces that are on, whose links then stand (log entry 31): LOCAL0 off with ABILITY 0, the twin link only with TWIN = 1 (R352). -/
def State.ifaceSet (s : State) (i : LocalIf) : Bool :=
  s.localOn && match i with
    | .eth => (byteAt s.ld.localCfg 0).extractLsb' 0 4 ≠ 0
    | .twin => bitOf (byteAt s.ld.localCfg 1) 7

/-- The abilities of a LOCAL_PORT record as codes of Table 14.3, the fastest first (Table 13.6). -/
def abilityModes (b : Byte) : List (BitVec 3) :=
  (if bitOf b 3 then [1] else []) ++ (if bitOf b 2 then [2] else []) ++ (if bitOf b 1 then [3] else []) ++ (if bitOf b 0 then [4] else [])

/-- The mode the Ethernet port runs: one of its abilities, with AN = 1 the one that Clause 73 settles on, a free choice (R109, log
entry 31). -/
def State.ethMode (s : State) : BitVec 3 :=
  match abilityModes (byteAt s.ld.localCfg 0) with
  | [] => 0
  | [m] => m
  | l => l.getD (Config.anChoice s.ld.powerAt s.ld.eth.restarts % l.length) 0

/-- A local lane whose block is being reset takes its interface down (Table 11.7). The modes 100GBASE-KR2 and 100GBASE-CR2 run on
both lanes. -/
def State.ifaceFenced (s : State) (i : LocalIf) : Bool :=
  match i with
  | .eth => s.fences.contains (.localLane false)
      || (s.fences.contains (.localLane true) && (s.ethMode = 1 || s.ethMode = 2))
  | .twin => s.fences.contains (.localLane true)

def State.ifaceOn (s : State) (i : LocalIf) : Bool := s.ifaceSet i && !s.ifaceFenced i

def State.modLocalCounters (i : LocalIf) (f : LocalCounters → LocalCounters) (s : State) : State :=
  s.modLocal i fun x => { x with counters := f x.counters }

/-- A source address is learned, or refreshed; a full table of 1,024 learns no new one and counts it (Table 4.7). -/
def State.learnMac (mac : NodeId) (w : MacWhere) (s : State) : State :=
  if s.ld.mac.any fun e => e.mac = mac then
    s.modLd fun l => { l with mac := l.mac.map fun e => if e.mac = mac then ⟨mac, s.now, w⟩ else e }
  else if s.ld.mac.length < 1024 then s.modLd fun l => { l with mac := l.mac ++ [⟨mac, s.now, w⟩] }
  else s.modLd fun l => { l with macRefused := satAdd l.macRefused 1 }

def State.lookupMac (s : State) (mac : NodeId) : Option MacWhere := (s.ld.mac.find? fun e => e.mac = mac).map (·.loc)

/-- Local frames of an interface that wait for the line, each once however many ports it waits at. -/
def State.ingressFrames (s : State) (i : LocalIf) : List LineFrame :=
  (Port.all.flatMap fun p => (s.port p).localCarried.filter fun f =>
    match f.body with | .carried c => c.iface = i | _ => false).eraseDups

/-- Bytes in the local ingress buffer (Table 4.7). -/
def State.ingressBytes (s : State) (i : LocalIf) : Nat :=
  (s.ingressFrames i).foldl (fun m f => match f.body with | .carried c => m + c.frame.length | _ => m) 0

/-- A broadcast or multicast address has the low bit of its first byte set. -/
def isGroup (frame : List Byte) : Bool := bitOf (byteAt frame 0) 0

/-- A local frame is sent to a position by its route, or flooded. An addressed one without a route is not sent, and no counter rises:
NO_ROUTE is per port, and the manual names no port for a frame that came from none (DESIGN CHOICE, log entry 78). -/
def State.sendCarried (c : CarriedP) (dst : Option Position) (s : State) : State :=
  match dst with
  | some d =>
    match s.route d with
    | some p =>
      let q := s.ld.seqCarriedA + 1
      (s.modLd fun l => { l with seqCarriedA := q }).modPort p fun x =>
        { x with localCarried := x.localCarried ++ [⟨s.hdr d q, .carried c⟩] }
    | none => s
  | none =>
    let q := s.ld.seqCarriedF + 1
    let f : LineFrame := ⟨s.hdr 0 q, .carried c⟩
    ((s.modLd fun l => { l with seqCarriedF := q }).addKey (floodKey f s.now)).forPorts (Port.all.filter s.carries)
      fun p t => t.modPort p fun x => { x with localCarried := x.localCarried ++ [f] }

/-- A frame that meets the checks of R110 is learned from and sent. One whose destination maps to the other local interface is not
sent to the line, and is not passed to that interface either: the manual gives the node no path between the two (DESIGN CHOICE,
log entry 77). -/
def execLocalFrameReceived (i : LocalIf) (frame : List Byte) (fcsOk : Bool) (s : State) :
    Host.Outcome State Fault Refusal :=
  let count := fun f => Host.Outcome.next (s.modLocalCounters i f)
  if !s.ifaceSet i then .next s
  else if s.ifaceFenced i then count fun c => { c with linDrop := satAdd c.linDrop 1 }
  else if 1522 < frame.length then count fun c => { c with linOversize := satAdd c.linOversize 1 }
  else if !fcsOk then count fun c => { c with linFcs := satAdd c.linFcs 1 }
  else if frame.length < 64 then count fun c => { c with linDrop := satAdd c.linDrop 1 }
  else if half frame 12 = 0x8808 then count fun c => { c with linPause := satAdd c.linPause 1 }
  else if 32768 < s.ingressBytes i + frame.length then count fun c => { c with linDrop := satAdd c.linDrop 1 }
  else
    let s := (s.modLocalCounters i fun c => { c with accepted := satAdd c.accepted 1 }).learnMac (id48 frame 6) (.iface i)
    let c : CarriedP := ⟨i, frame⟩
    if isGroup frame then .next (s.sendCarried c none)
    else match s.lookupMac (id48 frame 0) with
      | some (.position p) => .next (s.sendCarried c (some p))
      | some (.iface _) => .next s
      | none => .next (s.sendCarried c none)

/-- Hundredths of a nanosecond that a local interface takes to send a byte: 8 at 100 Gbit/s, 16 at 50 Gbit/s, and 15 on the twin
link, whose line codewords carry 52.9 Gbit/s (Tables 4.1 and 4.9). -/
def State.byteTime (s : State) (i : LocalIf) : Nat :=
  match i with
  | .eth => if s.ethMode = 1 || s.ethMode = 2 then 8 else 16
  | .twin => 15

/-- When the interface will have sent all it holds, in hundredths of a nanosecond. -/
def LocalPort.emptyAt (x : LocalPort) : Nat := x.due.getLastD 0

/-- Bytes in the local egress buffer: what the interface has still to send. -/
def State.egressBytes (s : State) (i : LocalIf) : Nat := ((s.ld.loc i).emptyAt - 100 * s.now) / s.byteTime i

/-- Frames of the egress buffer whose last byte has not left. -/
def LocalPort.still (now : Nat) (x : LocalPort) : List Nat := x.due.filter fun t => 100 * now < t

/-- The interface's link restarts: the frames in its egress buffer are dropped and counted (Table 11.7, R359). -/
def State.restartLocal (i : LocalIf) (s : State) : State :=
  s.modLocal i fun x => { x with
    counters := { x.counters with loutDrop := satAdd x.counters.loutDrop (x.still s.now).length }
    due := [], restarts := x.restarts + 1 }

/-- A frame goes to one local interface, or is counted in LOUT_DROP where that one is off (R256), its lane is being reset or its buffer of 32 KiB has no room
(Table 4.7). -/
def State.deliver (i : LocalIf) (frame : List Byte) (s : State) : State :=
  if s.ifaceOn i && s.egressBytes i + frame.length ≤ 32768 then
    (s.emit (.local_ i frame)).modLocal i fun x => { x with
      counters := { x.counters with delivered := satAdd x.counters.delivered 1 }
      due := x.still s.now ++ [max x.emptyAt (100 * s.now) + s.byteTime i * frame.length] }
  else s.modLocalCounters i fun c => { c with loutDrop := satAdd c.loutDrop 1 }

/-- The local interfaces a node has: the twin link only with TWIN = 1 (R112). -/
def State.localIfs (s : State) : List LocalIf := if bitOf (byteAt s.ld.localCfg 1) 7 then [.eth, .twin] else [.eth]

/-- A delivered frame goes to the interface its destination maps to; with an unknown or a group destination to every local interface
but the one that IFACE names as its ingress interface (R111, log entry 84). -/
def State.deliverCarried (h : LineHdr) (c : CarriedP) (s : State) : State :=
  let s := if s.localOn then s.learnMac (id48 c.frame 6) (.position h.src) else s
  let every := (s.localIfs.filter fun i => i ≠ c.iface).foldl (fun t i => t.deliver i c.frame) s
  if isGroup c.frame then every
  else match s.lookupMac (id48 c.frame 0) with
    | some (.iface i) => s.deliver i c.frame
    | some (.position _) => s
    | none => every

def execCarriedReceived (p : Port) (h : LineHdr) (c : CarriedP) (whole : Bool) (s : State) :
    Host.Outcome State Fault Refusal :=
  .next (s.ingress p ⟨h, .carried c⟩ whole (State.deliverCarried h c))

def execMacEntryAged (mac : NodeId) (s : State) : Host.Outcome State Fault Refusal :=
  match s.ld.mac.find? fun e => e.mac = mac with
  | some e => .next ((s.until (e.at_ + ms 300000)).modLd fun l => { l with mac := l.mac.filter fun e => e.mac ≠ mac })
  | none => .next s

/-- A MGMT frame addressed to this node enters the queue of 64, or is dropped and counted (Table 4.7). -/
def State.queueMgmt (p : Port) (h : LineHdr) (m : MgmtP) (s : State) : State :=
  if 64 ≤ s.ld.mgmtQueue.length then s.modLd fun l => { l with mgmtqDrop := satAdd l.mgmtqDrop 1 }
  else s.modLd fun l => { l with mgmtQueue := l.mgmtQueue ++ [(p, h, m)] }

def execMgmtRequestReceived (p : Port) (h : LineHdr) (m : MgmtP) (whole : Bool) (s : State) :
    Host.Outcome State Fault Refusal :=
  .next (s.ingress p ⟨h, .mgmt m⟩ whole (State.queueMgmt p h m))

/-! ### Train time (R113 to R118) -/

/-- The headward lane a numbered node takes time from: the usable one with the smaller STEPS, the near one on a tie. -/
def State.bestSource (s : State) : Option Port :=
  let e := s.headEnd
  let near := if s.usable e.near then (s.port e.near).lastSteps else none
  let skip := if s.usable e.skip then (s.port e.skip).lastSteps else none
  match near, skip with
  | some a, some b => if b.toNat < a.toNat then some e.skip else some e.near
  | some _, none => some e.near
  | none, some _ => some e.skip
  | none, none => none

/-- The node's source lane (R114); position 1 has none, an unnumbered node keeps the first lane that brought TIME. -/
def State.sourceLane (s : State) (p : Port) : Option Port :=
  if s.commit?.isSome then (if s.position = 1 then none else s.bestSource)
  else match s.ld.clock.sourcePort with
    | some q => if s.usable q then some q else some p
    | none => some p

/-- The rate of the source against this node's own counter, in parts per 10^9, from two of its TIME frames (R117). -/
def rateBetween (tt0 : TrainTime) (at0 : Nat) (tt1 : TrainTime) (at1 : Nat) : Int :=
  let own : Int := 4 * counterSteps (at1 - at0)
  let far : Int := 5 * ((tt1.toNat : Int) - tt0.toNat)
  (far - own) * 1000000000 / own

/-- Rate discipline: each TIME of one source lane sets the rate from the one before it; a step of the source between them tells no
rate, nor does a change of lane (R117). -/
def State.followRate (p : Port) (t : TimeP) (at_ : Nat) (s : State) : State :=
  let c := s.ld.clock
  let s := match c.heard with
    | some (tt0, at0) =>
      if c.sourcePort = some p && !t.stepped && at0 + 2 ≤ at_ then s.setRate (rateBetween tt0 at0 t.tt at_) else s
    | none => s
  s.modLd fun l => { l with clock := { l.clock with heard := some (t.tt, at_) } }

/-- A phase offset is taken: more than 2,000 ns as a step at the next boundary, less by slewing, at most 200 ppm of a
cycle for the one TIME frame a cycle brings (R117). -/
def State.discipline (off : Int) (s : State) : State :=
  if 2000 < off.natAbs then s.modLd fun l => { l with clock := { l.clock with stepBy := some off } }
  else
    let d : Int := max (-25) (min 25 off)
    let tt := BitVec.ofInt 64 (s.trainTime.toNat + d)
    (s.setTrainTime tt).modLd fun l => { l with clock := { l.clock with slewNs := off - d, stepBy := none } }

def State.leaveHoldover (s : State) : State :=
  if s.ld.clock.holdover then
    let sub := match s.ld.clock.raisedPort with | some p => p.code | none => noSubject
    (s.modLd fun l => { l with clock := { l.clock with holdover := false, raisedPort := none } }).ldClear fTrainSync sub
  else s

/-- The frame is from the source lane: train time follows it. At the moment `at_` at which its codeword stood at the receive balls,
train time was TT plus the lane delay (R115). -/
def State.followTime (p : Port) (t : TimeP) (at_ : Nat) (s : State) : State :=
  let got : Int := t.tt.toNat + (s.port p).laneDelay
  let off : Int := got - (s.trainTimeAt at_).toNat
  let s := s.leaveHoldover.followRate p t at_
  let s := s.modLd fun l => { l with clock :=
    { l.clock with sourcePort := some p, sourceAt := s.now, followed := true, steps := t.steps + 1 } }
  s.discipline off

/-- Half the exchange of R116 that is not the responder's: ((T4 − T1) − (T3 − T2)) ÷ 2, modulo 2^32. -/
def laneDelayOf (t1 t2 t3 t4 : Word) : Nat := ((t4 - t1) - (t3 - t2)).toNat / 2

/-- `since` is how long the codeword of the frame's header has stood at the receive balls, by the receiver's stamp with the
calibration of R59; every stamp of the row is taken at that moment (R115, R116). -/
def execLineTimeReceived (p : Port) (h : LineHdr) (t : TimeP) (since : Nat) (s : State) :
    Host.Outcome State Fault Refusal :=
  let at_ := s.now - since
  let stamp : Word := (s.trainTimeAt at_).extractLsb' 0 32
  .next ((s.tookArrival p ⟨h, .time t⟩).gate p s.commit?.isSome h (fun s =>
    let s := s.modPort p fun x => { x with lastSteps := some t.steps, lastTimeEpoch := h.epoch }
    let s := match (s.port p).echoOut with
      | some (q, t1) =>
        if t.echo && t.echoSeq = q then
          s.modPort p fun x => { x with laneDelay := laneDelayOf t1 t.t2 t.t3 stamp, echoOut := none }
        else s
      | none => s
    let s := if t.echoReq then s.modPort p fun x => { x with echoOwed := some (h.seq, stamp) } else s
    if s.sourceLane p = some p then s.followTime p t at_ else s))

/-- The TIME frame of a lane: an owed echo and a due request go with it (R115, R116). Its stamps are taken when it starts. -/
def State.sendTime (p : Port) (s : State) : State :=
  let x := s.port p
  let (echo, q, t2) := match x.echoOwed with | some (q, t2) => (true, q, t2) | none => (false, 0, 0)
  let steps : BitVec 6 := if s.position = 1 then 0 else s.ld.clock.steps
  let f : TimeP :=
    { tt := s.trainTime, steps := steps, echoReq := x.echoDue, echo := echo, holdover := s.ld.clock.holdover,
      stepped := s.ld.clock.steppedAt = some s.cycle, echoSeq := q, t2 := t2, t3 := if echo then s.stamp else 0 }
  if s.carries p then
    (s.sendHop p (.time f)).modPort p fun x => { x with echoOwed := none, echoDue := false }
  else s

def execTimeSend (s : State) : Host.Outcome State Fault Refusal :=
  if !s.ldRuns then .next s
  else
    let s := s.until (s.ld.clock.lastSendAt + cycleNs)
    .next ((s.forPorts Port.all State.sendTime).modLd fun l => { l with clock := { l.clock with lastSendAt := s.now } })

/-- The request is due every 64 cycles of an UP lane (R116). -/
def execTimeEchoRequest (p : Port) (s : State) : Host.Outcome State Fault Refusal :=
  if s.laneUp p then
    let s := s.until (s.port p).echoAt
    .next (s.modPort p fun x => { x with echoDue := true, echoAt := s.now + 64 * cycleNs })
  else .next s

/-- The step of R117 takes place at the node's next cycle boundary. -/
def execTrainTimeStep (s : State) : Host.Outcome State Fault Refusal :=
  match s.ld.clock.stepBy with
  | some off =>
    let s := s.until (s.momentOf s.nextBoundary)
    let s := s.setTrainTime (BitVec.ofInt 64 (s.trainTime.toNat + off))
    .next (s.modLd fun l => { l with clock := { l.clock with stepBy := none, steppedAt := some s.cycle } })
  | none => .next s

/-- Holdover keeps the last rate (R118). A draining node raises no fault where its source lane was lost (R262). -/
def execHoldoverEnter (s : State) : Host.Outcome State Fault Refusal :=
  let c := s.ld.clock
  if c.holdover || !c.followed || s.position = 1 || !s.ldRuns then .next s
  else
    let s := s.until (c.sourceAt + 8 * cycleNs)
    let sub := match c.sourcePort with | some p => p.code | none => noSubject
    let s := s.modLd fun l => { l with clock := { l.clock with holdover := true, raisedPort := c.sourcePort, heard := none } }
    .next (if s.ld.power = .draining then s else s.ldRaise fTrainSync sub [c.steps.zeroExtend 8])

end Sys2Proof.Machine
end

