-- ==== Sys2Proof/Machine/TrainFrame.lean ====
section
/-! DEFINITION. The training frame of Table 3.6, bit by bit, one Bool for each UI: MARKER, the coded CONTROL and STATUS words,
and the PRBS13 pattern (R63); and what a receiver reads of one (R64). -/

namespace Sys2Proof.Machine

/-- The last 13 bits of the pattern, the latest in bit 0. -/
abbrev Prbs := BitVec 13

/-- The next bit: those 1, 2, 12 and 13 before it (x^13 + x^12 + x^2 + x + 1). -/
def prbsBit (g : Prbs) : Bool := xor (xor (g.getLsbD 0) (g.getLsbD 1)) (xor (g.getLsbD 11) (g.getLsbD 12))

def prbsNext (g : Prbs) : Prbs := (g <<< 1) ||| (if prbsBit g then 1 else 0)

/-- n bits of the pattern, and the generator after them. -/
def prbsRun : Nat → Prbs → List Bool × Prbs
  | 0, g => ([], g)
  | n + 1, g =>
    let (l, e) := prbsRun n (prbsNext g)
    (prbsBit g :: l, e)

/-- Bits of the pattern in one frame: UI 288 to 4,095. -/
def patternBits : Nat := 3808

def bitUi (b : Bool) : List Bool :=
  if b then [true, true, false, false, true, true, false, false] else [true, true, true, true, false, false, false, false]

def wordUi (h : Half) : List Bool := (List.range 16).flatMap fun i => bitUi (h.getLsbD (15 - i))

def markerUi : List Bool := List.replicate 16 true ++ List.replicate 16 false

/-- A training frame, and the generator after it. -/
def trainingUi (control status : Half) (g : Prbs) : List Bool × Prbs :=
  let (l, e) := prbsRun patternBits g
  (markerUi ++ wordUi control ++ wordUi status ++ l, e)

/-! ### At the receiver -/

/-- MARKER at the place of a frame: found as it is, found inverted, or missed. -/
inductive MarkerSeen | plain | inverse | missed
  deriving DecidableEq, Repr

def markerSeen (ui : List Bool) : MarkerSeen :=
  if ui.take 32 = markerUi then .plain else if ui.take 32 = markerUi.map (!·) then .inverse else .missed

/-- The sixteen bits at an offset; none where eight UI spell no bit. -/
def wordAt (ui : List Bool) (off : Nat) : Option Half :=
  (List.range 16).foldl (fun a i =>
    let v := (ui.drop (off + 8 * i)).take 8
    match a with
    | none => none
    | some h => if v = bitUi true then some ((h <<< 1) ||| 1) else if v = bitUi false then some (h <<< 1) else none) (some 0)

/-- CONTROL and STATUS of a frame whose UI have their right polarity. -/
def wordsOf (ui : List Bool) : Option (Half × Half) :=
  match wordAt ui 32, wordAt ui 160 with
  | some c, some t => some (c, t)
  | _, _ => none

/-- The UI of a frame in the polarity its marker shows (R64). -/
def upright (ui : List Bool) : List Bool := if markerSeen ui = .inverse then ui.map (!·) else ui

end Sys2Proof.Machine
end

