-- ==== Sys2Proof/Machine/Lanes.lean ====
section
/-! DEFINITION. The line lanes (chapter 03) and CODEWORD_RECEIVED (R85): near and skip lanes in their two data
modes (R52, R58, R60), a signal's presence (R55), bring-up state by state, the tap handshake, blinks and fast relock, lane loss, the eye scan's end, and what a codeword does to the port's counters. -/

namespace Sys2Proof.Machine

/-! ### Transmit taps (Table 3.5, R65) -/

/-- The preset of Table 3.5. -/
def presetTaps : Taps := ⟨0, 4, 4⟩

/-- The ranges of Table 3.5, with c(0) at or above +0.550. -/
def Taps.ok (t : Taps) : Bool := t.cm2 ≤ 4 && t.cm1 ≤ 12 && t.cp1 ≤ 10 && t.cm2 + t.cm1 + t.cp1 ≤ 18

def stepUp (n : Nat) : Option Nat := some (n + 1)

def stepDown (n : Nat) : Option Nat := if n = 0 then none else some (n - 1)

/-- One step of a tap: increment raises the signed coefficient, so it lowers the two magnitudes held here. -/
def Taps.moved (t : Taps) (tap : BitVec 3) (inc : Bool) : Option Taps :=
  let r := match tap with
    | 1 => (if inc then stepUp t.cm2 else stepDown t.cm2).map fun n => { t with cm2 := n }
    | 2 => (if inc then stepDown t.cm1 else stepUp t.cm1).map fun n => { t with cm1 := n }
    | 3 => (if inc then stepDown t.cp1 else stepUp t.cp1).map fun n => { t with cp1 := n }
    | _ => none
  match r with
  | some x => if x.ok then some x else none
  | none => none

/-! ### Training words (Tables 3.7 and 3.8) -/

def ctlRate (c : Half) : BitVec 2 := c.extractLsb' 14 2

def ctlPreset (c : Half) : Bool := c.getLsbD 13

def ctlTap (c : Half) : BitVec 3 := c.extractLsb' 10 3

def ctlReq (c : Half) : BitVec 2 := c.extractLsb' 8 2

def ctlSkip (c : Half) : Bool := c.getLsbD 7

/-- A frame whose CONTROL holds a reserved RATE, TAP or REQ is ignored (R65). -/
def ctlOk (c : Half) : Bool := (ctlRate c).toNat ≤ 1 && (ctlTap c).toNat ≤ 3 && ctlReq c ≠ 3

def staReady (s : Half) : Bool := s.getLsbD 13

def staEcho (s : Half) : BitVec 3 := s.extractLsb' 10 3

def staUpd (s : Half) : BitVec 2 := s.extractLsb' 8 2

def staConf (s : Half) : Bool := s.getLsbD 7

def staOk (s : Half) : Bool := s.getLsbD 6

def rateOf (nrz : Bool) : BitVec 2 := if nrz then 1 else 0

/-- The CONTROL word a lane sends. -/
def Lane.controlOf (p : Port) (l : Lane) : Half :=
  rateOf l.nrz ++ l.request ++ (if p.isSkip then 1#1 else 0#1) ++ 0#7

/-- The STATUS word a lane sends. -/
def Lane.statusOf (l : Lane) : Half :=
  ctlRate l.farControl ++ (if l.rxReady then 1#1 else 0#1) ++ l.answer ++ (if l.st = .verdict then 1#1 else 0#1)
    ++ (if l.st = .verdict && l.trialOk then 1#1 else 0#1) ++ 0#6

/-- The states in which a node transmits training frames (R67). -/
def LaneState.trains : LaneState → Bool
  | .detect => true | .acquire => true | .train => true | .verdict => true | .failed => true
  | _ => false

/-- A training frame leaves with the lane's present words and the next 3,808 bits of its pattern (R63). -/
def State.train (p : Port) (s : State) : State :=
  let l := s.lane p
  if l.st.trains then
    let (ui, g) := trainingUi (l.controlOf p) l.statusOf l.prbs
    (s.emit (.training p (l.controlOf p) l.statusOf ui)).modLane p fun l => { l with prbs := g }
  else s

/-- The sixteen further frames of Table 3.9: 16 × 4,096 UI. -/
def State.train16 (p : Port) (s : State) : State :=
  ((List.range 16).foldl (fun t _ => t.train p) s).tick 2330

/-! ### Entering states -/

/-- The equalizers from which a full bring-up starts: CTLE 9 dB, FFE and DFE at zero but for the FFE main tap, 1.000 (R62). Taps are
in steps of 1/256: three pre-cursors, the main tap, eight post-cursors. The rule names no slicer thresholds to start from (DESIGN
CHOICE 0, log entry 5). -/
def freshParams : LaneParams := ⟨9, [0, 0, 0, 256, 0, 0, 0, 0, 0, 0, 0, 0], 0, [0, 0, 0], 0⟩

/-- The ranges of Table 3.5: CTLE 0 to 18 dB, FFE taps ±0.250 about a main tap of 1.000, DFE 0 to 0.500 in steps of 1/128; and three
PAM4 slicer thresholds. -/
def paramsOk (x : LaneParams) : Bool :=
  x.ctle ≤ 18 && x.ffe.length = 12 && x.ffe.getD 3 0 = 256 && (x.ffe.eraseIdx 3).all (fun t => -64 ≤ t && t ≤ 64) && x.dfe ≤ 64
    && x.slicers.length = 3

/-- A lane enters DETECT: taps at preset, RATE PAM4 unless limited to NRZ, nothing accepted yet (R62, R68, R70). -/
def Lane.detecting (now : Nat) (l : Lane) : Lane :=
  { l with
    st := .detect, enteredAt := now, nrz := l.nrzLimit, lockRun := 0, missRun := 0, frameLock := false,
    inverted := false, ctlSeen := 0, ctlRun := 0, staSeen := 0, staRun := 0, farControl := 0, farStatus := 0,
    miswired := false, taps := presetTaps, answer := 0, request := 0, rxReady := false, farRxReady := false,
    trialOk := false, farConf := false, farOk := false, absentNs := 0, returned := false, params := freshParams,
    storedTaps := presetTaps, alignRun := 0, trialBad := 0, trialCorrected := 0, markers := 0, badCodewords := 0, aligned := false, beaconSeen := false }

def State.toDetect (p : Port) (s : State) : State := ((s.stopStream p).modLane p (Lane.detecting s.now)).train p

/-- OFF clears the count of consecutive failures; the 1 s backoff that the eighth began goes on until the lane is UP (R71). -/
def Lane.switchedOff (now : Nat) (l : Lane) : Lane := { l.detecting now with st := .off, failures := 0 }

/-- TRAIN begins, or begins again at a rate, with the taps at preset (R70). -/
def State.toTrain (p : Port) (nrz : Bool) (s : State) : State :=
  (s.modLane p fun l => { l with
    st := .train, enteredAt := s.now, nrz := nrz, taps := presetTaps, answer := 0, request := 0, rxReady := false,
    farRxReady := false, trialOk := false, farConf := false, farOk := false }).train p

/-- The attempt ends in FAILED; the eighth consecutive failure raises the fault (R71). A draining node raises no
fault for a lane (R262). -/
def State.failLane (p : Port) (s : State) : State :=
  let n := (s.lane p).failures + 1
  let s := (s.modLane p fun l => { l with
    st := .failed, enteredAt := s.now, failures := n, taps := presetTaps, answer := 0, request := 0 }).train p
  if n = 8 && !(s.lane p).failRaised then
    let s := s.modLane p fun l => { l with failRaised := true }
    if s.ld.power = .draining then s else s.ldRaise fLaneBringUp p.code []
  else s

/-- A limit of TRAIN or VERDICT: NRZ next, or FAILED from NRZ (Table 3.9). -/
def State.slower (p : Port) (s : State) : State :=
  if (s.lane p).nrz then s.failLane p else s.toTrain p true

/-- The backoff of FAILED (R71). -/
def Lane.backoff (l : Lane) : Nat := if l.failRaised then ms 1000 else ms 10

/-- Credits are resynchronized: CREDIT is the first frame, and none of MGMT or CARRIED starts before one has come
(R101). -/
def State.resyncCredits (p : Port) (s : State) : State :=
  let s := s.modPort p fun x => { x with
    creditSeen := false, creditSent := x.counts, creditAt := s.now, creditCw := none
    control := x.control.filter fun f => !isCredit f }
  let b : LineBody := .credit (s.port p).counts
  let (s, q) := s.nextSeq p b
  s.modPort p fun x => { x with control := ⟨s.hdr 0 q, b⟩ :: x.control }

/-- The lane enters UP (R72): the port carries only ALARM, BEACON and CREDIT until a BEACON comes (R102). -/
def State.laneComesUp (p : Port) (s : State) : State :=
  let raised := (s.lane p).failRaised
  let s := s.modLane p fun l => { l with
    st := .up, enteredAt := s.now, failures := 0, failRaised := false, beaconSeen := false, markers := 0,
    badCodewords := 0, aligned := true, paramsAt := s.now, storedTaps := l.taps }
  let s := if raised then s.ldClear fLaneBringUp p.code else s
  let s := ((s.startStream p).modPort p fun x => { x with echoAt := s.now }).modLd (LineDie.setProbeAt p.vend none)
  (s.resyncCredits p).engineEvent

/-! ### Leaving UP (R73 to R77, R81) -/

/-- Points of the grid of R80. -/
def gridOf (nrz : Bool) : Nat := if nrz then 8128 else 24384

/-- A scan of a lane that leaves UP ends at once; how far it had come, and the counts, are free values (R81). -/
def State.abortScan (p : Port) (s : State) : State :=
  let e := s.ld.eye
  if e.st = 1 && e.lane = p then
    let n := min (Config.freeNat s.freeCount) (gridOf e.nrz)
    let counts := (List.range n).map fun i => Config.freeWord (s.freeCount + 1 + i)
    { (s.modLd fun l => { l with eye := { l.eye with st := 3, measured := n, counts := counts } }) with
      freeCount := s.freeCount + 1 + n }
  else s

/-- The engine is told which lane is lost, since when it was interrupted, and when it was declared lost (R77): a lane lost from UP
without a blink was interrupted at that moment. -/
def State.reportLoss (p : Port) (s : State) : State :=
  let began := if (s.lane p).st = .blink then (s.lane p).blinkAt else s.now
  s.modVend p.vend fun v => { v with lost := some ⟨p, began, s.now⟩ }

/-- A lane leaves UP: a scan of it ends, and the port cycle is not spent wholly in UP. -/
def State.leaveUp (p : Port) (s : State) : State := (s.abortScan p).modPort p fun x => { x with wholeUp := false }

/-- A lane is lost: full bring-up from DETECT, and the engine is told (R74, R77). -/
def State.loseLane (p : Port) (s : State) : State := (((s.leaveUp p).reportLoss p).toDetect p).engineEvent

/-- Receive lock is lost in UP: the interruption begins (R73), and a frame being sent is ended as stomped at once (R102). Training
markers seen so far still count (R75). The 16th within 1 s is a loss at once (R76). -/
def State.enterBlink (p : Port) (s : State) : State :=
  if !s.laneUp p then s
  else
    let l := s.lane p
    let begins := s.now :: l.begins.filter fun t => s.now ≤ t + ms 1000
    let s := (((s.flush p).loseIngress p).endStomped p false).leaveUp p
    let s := s.modPort p fun x => { x with cutThrough := none }
    let s := s.modLane p fun l => { l with
      st := .blink, enteredAt := s.now, blinkAt := s.now, absentAt := s.now, absentNs := 0, returned := false,
      begins := begins, badCodewords := 0, alignRun := 0, aligned := false }
    if 16 ≤ begins.length then
      (if s.ld.power = .draining then s else s.ldRaise fLaneFlapping p.code []).loseLane p
    else s

/-- When the interruption at the latest becomes a loss (R74). A signal that drops again within 200 µs of its return takes that limit
with it: the 200 µs run from the return that lasts (DESIGN CHOICE, log entry 76). -/
def Lane.blinkEnd (l : Lane) : Nat :=
  if l.present && l.returned then min (l.blinkAt + ms 2) (l.backAt + us 200) else l.blinkAt + ms 2

/-! ### Rows of chapter 03 -/

def execLaneSignalChange (p : Port) (los : Bool) (detector : Bool) (s : State) : Host.Outcome State Fault Refusal :=
  let was := (s.lane p).present
  let is := !los && detector
  let s := s.modLane p fun l => { l with
    los := los, detector := detector, present := is, presentAt := if is && !was then s.now else l.presentAt }
  if was = is then .next s
  else match (s.lane p).st with
    | .detect | .acquire | .train | .trial | .verdict => .next (if is then s else s.toDetect p)
    | .up => .next (if is then s else s.enterBlink p)
    | .blink =>
      if is then
        .next (s.modLane p fun l => { l with absentNs := l.absentNs + (s.now - l.absentAt), backAt := s.now, returned := true })
      else .next (s.modLane p fun l => { l with absentAt := s.now })
    | .off | .failed => .next s

def execDetectComplete (p : Port) (s : State) : Host.Outcome State Fault Refusal :=
  let l := s.lane p
  if l.st = .detect && l.present then
    let s := s.until (max l.presentAt l.enteredAt + ms 1)
    .next ((s.modLane p fun l => { l with st := .acquire, enteredAt := s.now, miswired := false }).train p)
  else .next s

/-- MARKER is found, as it is or inverted, or missed (R64). A frame without MARKER breaks the runs of equal values. -/
def Lane.sawMarker (m : MarkerSeen) (l : Lane) : Lane :=
  if m = .missed then
    { l with lockRun := 0, missRun := min 3 (l.missRun + 1), frameLock := l.frameLock && l.missRun + 1 < 3, ctlRun := 0, staRun := 0 }
  else
    { l with lockRun := min 3 (l.lockRun + 1), missRun := 0, frameLock := l.frameLock || 3 ≤ l.lockRun + 1,
             inverted := m = .inverse }

/-- Runs of equal CONTROL and STATUS values; a value acts after three (R64). -/
def Lane.sawWords (control status : Half) (l : Lane) : Lane :=
  let cr := if l.ctlSeen = control then min 3 (l.ctlRun + 1) else 1
  let sr := if l.staSeen = status then min 3 (l.staRun + 1) else 1
  { l with
    ctlSeen := control, ctlRun := cr, farControl := if cr = 3 then control else l.farControl,
    staSeen := status, staRun := sr, farStatus := if sr = 3 then status else l.farStatus,
    farRxReady := if sr = 3 then staReady status else l.farRxReady,
    farConf := if sr = 3 then staConf status else l.farConf,
    farOk := if sr = 3 then staOk status else l.farOk }

/-- The responder's side of the handshake (R65): PRESET, a step, or the return of UPD. -/
def Lane.respond (l : Lane) : Lane :=
  let c := l.farControl
  let idle : Bool := l.answer.extractLsb' 0 2 = 0
  if ctlPreset c then (if idle then { l with taps := presetTaps, answer := 1 } else l)
  else if ctlReq c = 0 then { l with answer := 0 }
  else if idle && ctlTap c ≠ 0 then
    match l.taps.moved (ctlTap c) (ctlReq c = 1) with
    | some t => { l with taps := t, answer := ctlTap c ++ (1 : BitVec 2) }
    | none => { l with answer := ctlTap c ++ (2 : BitVec 2) }
  else l

/-- The receiver's adaptation as a request: TAP and REQ, none where the free value names no step. It never asks for PRESET, which the
handshake would let a requester do: taps are at preset when training begins (DESIGN CHOICE, log entry 75). -/
def requestFrom (v : BitVec 5) : BitVec 6 :=
  let tap := v.extractLsb' 2 3
  let req := v.extractLsb' 0 2
  if 1 ≤ tap.toNat && tap.toNat ≤ 3 && (req = 1 || req = 2) then (0#1 ++ tap ++ req) else 0

/-- The requester's side: an answered request returns to hold; with none open and the far UPD back, adaptation may
ask for the next step. -/
def State.askTap (p : Port) (adapted : Bool) (s : State) : State :=
  let l := s.lane p
  let s := s.modLane p fun l => { l with rxReady := adapted }
  if l.request ≠ 0 then
    (if staUpd l.farStatus ≠ 0 && staEcho l.farStatus = l.request.extractLsb' 2 3 then
      s.modLane p fun l => { l with request := 0 } else s)
  else if adapted || staUpd l.farStatus ≠ 0 then s
  else (s.modLane p fun l => { l with request := requestFrom (Config.tapRequest s.freeCount) }).drawFree

/-- LANE_KIND differs: the lane stays in ACQUIRE and the fault is raised once in the attempt (R66). -/
def State.miswire (p : Port) (s : State) : State :=
  if (s.lane p).miswired then s
  else (s.modLane p fun l => { l with miswired := true }).ldRaise fLaneMiswired p.code [flag (!p.isSkip) 0]

/-- What the accepted values bring about in ACQUIRE, TRAIN and VERDICT. -/
def State.actOnTraining (p : Port) (adapted : Bool) (s : State) : State :=
  let l := s.lane p
  if l.ctlRun < 3 || !l.frameLock then s
  else match l.st with
    | .acquire =>
      if l.miswired then s
      else if ctlSkip l.farControl ≠ p.isSkip then s.miswire p
      else s.toTrain p (l.nrz || ctlRate l.farControl = 1)
    | .train =>
      if ctlRate l.farControl = 1 && !l.nrz then s.toTrain p true
      else (s.modLane p Lane.respond).askTap p adapted
    | .verdict => if ctlRate l.farControl = 1 && !l.nrz then s.toTrain p true else s
    | _ => s

/-- The words of a frame act where the lane has frame lock and CONTROL holds no reserved value (R64, R65). -/
def State.takeWords (p : Port) (words : Option (Half × Half)) (adapted : Bool) (s : State) : State :=
  match words with
  | some (control, status) =>
    if (s.lane p).frameLock && ctlOk control then (s.modLane p (Lane.sawWords control status)).actOnTraining p adapted else s
  | none => s

/-- `ui` are the 4,096 UI at the place of a training frame, as they stand at the receive balls. -/
def execTrainingFrameReceived (p : Port) (ui : List Bool) (adapted : Bool) (s : State) :
    Host.Outcome State Fault Refusal :=
  let m := markerSeen ui
  match (s.lane p).st with
  | .up | .blink =>
    let n := if m = .missed then 0 else (s.lane p).markers + 1
    let s := s.modLane p fun l => { l with markers := n }
    .next (if 8 ≤ n then s.loseLane p else s)
  | .acquire | .train | .verdict =>
    let s := s.modLane p (Lane.sawMarker m)
    let words := if m = .missed then none else wordsOf (upright ui)
    .next ((s.takeWords p words adapted).train p)
  | .off | .detect | .trial | .failed => .next s

def execAcquireTimeout (p : Port) (s : State) : Host.Outcome State Fault Refusal :=
  let l := s.lane p
  if l.st = .acquire then .next ((s.until (l.enteredAt + ms 4)).failLane p) else .next s

def execTrainComplete (p : Port) (s : State) : Host.Outcome State Fault Refusal :=
  let l := s.lane p
  if l.st = .train && l.rxReady && l.farRxReady then
    let s := s.train16 p
    .next ((s.startStream p).modLane p fun l => { l with
      st := .trial, enteredAt := s.now, alignRun := 0, aligned := false, trialBad := 0, trialCorrected := 0 })
  else .next s

def execTrainTimeout (p : Port) (s : State) : Host.Outcome State Fault Refusal :=
  let l := s.lane p
  if l.st = .train then .next ((s.until (l.enteredAt + ms 24)).slower p) else .next s

/-- TRIAL passes with alignment, no uncorrectable codeword and at most 562 corrected symbols at PAM4, 281 at NRZ
(R69). -/
def trialPasses (nrz aligned : Bool) (uncorrectable corrected : Nat) : Bool :=
  aligned && uncorrectable = 0 && corrected ≤ (if nrz then 281 else 562)

/-- TRIAL ends 1.200 ms after it began, with what its codewords have shown. -/
def execTrialEnd (p : Port) (s : State) : Host.Outcome State Fault Refusal :=
  let l := s.lane p
  if l.st = .trial then
    let s := s.until (l.enteredAt + us 1200)
    .next (((s.stopStream p).modLane p fun l => { l with
      st := .verdict, enteredAt := s.now, trialOk := trialPasses l.nrz l.aligned l.trialBad l.trialCorrected, lockRun := 0,
      missRun := 0, frameLock := false, ctlRun := 0, staRun := 0, farConf := false, farOk := false, answer := 0,
      request := 0 }).train p)
  else .next s

def execVerdictComplete (p : Port) (s : State) : Host.Outcome State Fault Refusal :=
  let l := s.lane p
  if l.st = .verdict && l.trialOk && l.farConf && l.farOk then .next ((s.train16 p).laneComesUp p) else .next s

def execVerdictTimeout (p : Port) (s : State) : Host.Outcome State Fault Refusal :=
  let l := s.lane p
  if l.st = .verdict then .next ((s.until (l.enteredAt + ms 1)).slower p) else .next s

def execBackoffEnd (p : Port) (s : State) : Host.Outcome State Fault Refusal :=
  let l := s.lane p
  if l.st = .failed then .next ((s.until (l.enteredAt + l.backoff)).toDetect p) else .next s

def execCdrLockLost (p : Port) (s : State) : Host.Outcome State Fault Refusal := .next (s.enterBlink p)

/-- Length of an interruption in whole microseconds (R73). -/
def blinkUs (n : Nat) : Nat := n / 1000

def execFastRelock (p : Port) (s : State) : Host.Outcome State Fault Refusal :=
  let l := s.lane p
  if l.st = .blink && l.present && l.aligned && s.now < l.blinkAt + ms 2 && s.now ≤ l.blinkEnd then
    let n := blinkUs (s.now - l.blinkAt)
    let s := s.modCounters p fun c => { c with
      blinks := satAdd c.blinks 1, longestBlink := BitVec.ofNat 32 (max c.longestBlink.toNat n) }
    let s := s.modLane p fun l => { l with st := .up, enteredAt := s.now, markers := 0, badCodewords := 0, taps := l.storedTaps }
    .next (s.resyncCredits p)
  else .next s

def execBlinkTimeout (p : Port) (s : State) : Host.Outcome State Fault Refusal :=
  let l := s.lane p
  if l.st = .blink then .next ((s.until l.blinkEnd).loseLane p) else .next s

/-- Once per cycle the stored parameters take what the receiver has adapted, within Table 3.5, and the lane's own taps (R62). -/
def execLaneParamRefresh (p : Port) (params : LaneParams) (s : State) : Host.Outcome State Fault Refusal :=
  if s.laneUp p && paramsOk params then
    let s := s.until ((s.lane p).paramsAt + cycleNs)
    .next (s.modLane p fun l => { l with params := params, storedTaps := l.taps, paramsAt := s.now })
  else .next s

def execEyeScanDone (counts : List Word) (s : State) : Host.Outcome State Fault Refusal :=
  let e := s.ld.eye
  if e.st = 1 then
    .next (s.modLd fun l => { l with eye :=
      { l.eye with st := 2, counts := counts, measured := min counts.length (gridOf e.nrz) } })
  else .next s

/-! ### CODEWORD_RECEIVED (R82 to R85, R88, R95, R104, R105) -/

/-- A codeword as its receiver has decoded it: the header bits, the payload bytes, how many symbols were corrected. -/
structure Decoded where
  mark : Byte
  ins : Bool
  fptr : BitVec 11
  payload : List Byte
  corrected : Nat
  deriving DecidableEq, Repr

def payloadOf (syms : List Gf) : List Byte := bytesOfSymbols ((syms.drop 2).take 512)

/-- Decoding and descrambling; none for an uncorrectable codeword, and for one with an FPTR of 640 to 2,046 (R84). -/
def decodeCodeword (st : ScrState) (symbols : List Gf) : Option Decoded :=
  match rsDecode symbols with
  | some (c, n) =>
    let h := headerBits c
    let f : BitVec 11 := h.extractLsb' 0 11
    if fptrBad f then none else some ⟨h.extractLsb' 12 8, h.getLsbD 11, f, (descramble st (payloadOf c)).2, n⟩
  | none => none

/-- The descrambler holds the last 58 payload bits: those the decoder corrected, or those received where it could not. -/
def descramblerAfter (st : ScrState) (symbols : List Gf) : ScrState :=
  (descramble st (payloadOf (match rsDecode symbols with | some (c, _) => c | none => symbols))).1

/-- Whether a codeword takes alignment one step further: MARK with at most one bit in error as received, and the decoder corrects
it (R85). -/
def alignsOn (symbols : List Gf) : Bool := markNear ((headerBits symbols).extractLsb' 12 8) && (rsDecode symbols).isSome

/-- Four such codewords in a row give alignment. -/
def Lane.aligning (symbols : List Gf) (l : Lane) : Lane :=
  let n := if alignsOn symbols then min 4 (l.alignRun + 1) else 0
  { l with alignRun := n, aligned := l.aligned || 4 ≤ n }

/-- A codeword in TRIAL: alignment counts where it comes in the first 0.200 ms, errors in the 1.000 ms after (R69). -/
def Lane.tryCodeword (now : Nat) (symbols : List Gf) (l : Lane) : Lane :=
  if now < l.enteredAt + us 200 then l.aligning symbols
  else match rsDecode symbols with
    | some (_, n) => { l with trialCorrected := l.trialCorrected + n }
    | none => { l with trialBad := l.trialBad + 1 }

/-- What one frame that a codeword made whole does to the port. One that fails its checks goes no further than it has gone, and its
units are freed (R88, R95, R100); one that passes them waits for the row of its class. -/
def State.takeArrival (p : Port) (a : Arrival) (s : State) : State :=
  let drop := fun (s : State) =>
    match (s.port p).rx.inCut with
    | some _ => ((s.passFcs p a.fcs).endCut p).dropIngress p
    | none => if a.cls = 8 || a.cls = 9 then s.refuseUnits p a.cls a.len else s
  match a.frame with
  | .ok f => s.modRx p fun r => { r with arrived := r.arrived ++ [f] }
  | .headerError => (s.modCounters p fun c => { c with hdrErr := satAdd c.hdrErr 1 }).bumpErr p
  | .fcsError => (drop (s.modCounters p fun c => { c with fcsErr := satAdd c.fcsErr 1 })).bumpErr p
  | .stomped => drop (s.modCounters p fun c => { c with stomped := satAdd c.stomped 1 })

/-- A good codeword in UP: its counts, and the frames it makes whole. -/
def State.takeCodeword (p : Port) (d : Decoded) (s : State) : State :=
  let s := if 0 < d.corrected then s.modCounters p fun c =>
    { c with cwCorrected := satAdd c.cwCorrected 1, symCorrected := satAdd c.symCorrected d.corrected } else s
  let s := s.modPort p fun x => { x with cycCorr := x.cycCorr + d.corrected }
  let r := (s.port p).rx
  let (l, a) := assemble ⟨r.bytes, r.skip⟩ d.ins d.fptr d.payload
  l.foldl (fun t v => t.takeArrival p v) (s.modRx p fun r => { r with bytes := a.bytes, skip := a.skip })

/-- A bad codeword in UP: the frame in progress is discarded, or ended as stomped where it is being forwarded. -/
def State.badCodeword (p : Port) (s : State) : State :=
  ((s.modCounters p fun c => { c with cwUncorr := satAdd c.cwUncorr 1 }).bumpErr p).loseIngress p

/-- The 544 symbols of a codeword as they were received (R83). -/
def execCodewordReceived (p : Port) (symbols : List (BitVec 10)) (s : State) : Host.Outcome State Fault Refusal :=
  let d := decodeCodeword (s.port p).rx.dscr symbols
  let t := s.modRx p fun r => { r with dscr := descramblerAfter r.dscr symbols }
  match (s.lane p).st with
  | .trial => .next (t.modLane p (Lane.tryCodeword s.now symbols))
  | .blink => .next (t.modLane p (Lane.aligning symbols))
  | .up =>
    let t := (t.modCounters p fun c => { c with cwReceived := satAdd c.cwReceived 1 }).modPort p fun x =>
      { x with cycSym := x.cycSym + 544 }
    let t := match d with | some v => t.takeCodeword p v | none => t.badCodeword p
    let n := if d.map Decoded.mark = some cwMark then 0 else (s.lane p).badCodewords + 1
    let t := t.modLane p fun l => { l with badCodewords := n, aligned := l.aligned && n < 8 }
    .next (if 8 ≤ n then t.enterBlink p else t)
  | _ => .next s

end Sys2Proof.Machine
end

