-- ==== Sys2Proof/Machine/Switching.lean ====
section
/-! DEFINITION. The referee's operations: the interlock of R217, the causes of R216, granting from NO_GRANT (R215,
R229) and the kill (R218, R219). The GRANT words follow from REF's one grant state register (R207). -/

namespace Sys2Proof.Machine

def causeFeedLost : Byte := 1
def causeDieFailed : Byte := 2
def causeStoreEnd : Byte := 3
def causeLinkLost : Byte := 4
def causeDropped : Byte := 5
def causeSilent : Byte := 6
def causeDark : Byte := 7
def causeCommand : Byte := 8
def causeInitial : Byte := 9
def causeAdopt : Byte := 0x0A
def causeLastResort : Byte := 0x0B
def causeOrphan : Byte := 0x0C

/-- The kinds of Table 8.4: a soft cause moves the grant only to a ready standby. -/
def softCause (c : Byte) : Bool := c = 1 ∨ c = 3 ∨ c = 7 ∨ c = 8

/-! ### What REF reads -/

/-- DRIVE_x reads Driving; a silent link reads not driving (Table 2.6). -/
def State.refDriving (s : State) (d : Die) : Bool := (s.lv d.driveLink).taken && !(s.lv d.driveLink).silent

def State.refLinkUp (s : State) (d : Die) : Bool := !(s.lend d.refLink .first).lost

/-- The die can take a grant but for its kill (R216). -/
def State.reachable (s : State) (y : Die) : Bool :=
  let m := byteMode (s.ref.view y).state
  s.refLinkUp y && m ≠ 7 && m ≠ 8

/-- Die y is switchable (R216). -/
def State.switchable (s : State) (y : Die) : Bool := s.reachable y && !s.ref.kill y

def dieCode : Option Die → Byte | some d => d.code | none => 0xFF

/-! ### Reports -/

def State.switchReport (cause : Byte) (src dst : Option Die) (kill notReady : Bool) (s : State) : State :=
  s.sendLink .cdRef .second (.report
    (switchBytes cause (dieCode src) (dieCode dst) s.ref.cycle s.ref.pathBadA s.ref.pathBadB kill notReady))

/-- A grant or a withdrawal without a grant has been completed: it is counted and reported (R217, R231). -/
def State.noteSwitch (cause : Byte) (src dst : Option Die) (kill notReady : Bool) (s : State) : State :=
  let s := (s.modRef fun r => { r with
    switchovers := satAdd r.switchovers 1, lastCause := cause, lastSwitchCycle := r.cycle }).switchReport cause src dst kill notReady
  if src.isSome && dst.isSome then
    s.refRaise fSwitchOver noSubject [cause, dieCode src, dieCode dst, flag kill 7 ||| flag notReady 6]
  else s

/-! ### Kill -/

/-- REF sends Kill asserted and raises "driver stuck" (R217 step 3). -/
def State.killStuck (x : Die) (s : State) : State :=
  ((s.modRef fun r => { r.setKill x true with stepAt := s.now }).drive x.killLink (some true)).refRaise fDriverStuck
    x.subject []

def Ref.resorted (r : Ref) : Die → Bool | .la => r.resortA | .lb => r.resortB

def Ref.setResorted (d : Die) (v : Bool) (r : Ref) : Ref :=
  match d with
  | .la => { r with resortA := v }
  | .lb => { r with resortB := v }

def State.releaseKill (x : Die) (s : State) : State := (s.modRef (Ref.setKill x false)).drive x.killLink (some false)

/-! ### The interlock -/

/-- Granted goes to y; REF waits for DRIVE_y (R217 step 4). "no lamp driver" clears. -/
def State.grantTo (src : Option Die) (y : Die) (cause : Byte) (kill notReady : Bool) (s : State) : State :=
  let s := (s.modRef fun r => { r with grant := .granting src y cause kill notReady, stepAt := s.now }).drive
    y.grantLink (some true)
  if s.ref.noDriver then (s.modRef fun r => { r with noDriver := false }).refClear fNoDriver noSubject else s

/-- REF may grant this die from NO_GRANT: the die shows a standby MODE with FEED_OK = 1 (R215), or is the die whose
kill REF released as the last resort and shows a standby MODE (R229). A link that has not yet been restored since REF's
release does not stand in the way of R215. -/
def State.mayGrant (s : State) (d : Die) : Bool :=
  let v := s.ref.view d
  let gone := (s.lend d.refLink .first).upSinceStart && !s.refLinkUp d
  !gone && !s.ref.kill d && v.seen && (v.grantable || (s.ref.lastResort = some d && (byteMode v.state = 1 || byteMode v.state = 2)))

def State.refPreferred (s : State) : Die := if s.ref.prefB then .lb else .la

def State.grantCause (s : State) (d : Die) : Byte :=
  if s.ref.lastResort = some d then causeLastResort else causeInitial

/-- R215 in NO_GRANT: the preferred die at once, the other 20.0 ms after it first showed such a heartbeat; the die
whose kill was released as the last resort goes before either (R229). -/
def State.tryGrant (s : State) : State :=
  let p := s.refPreferred
  let q := p.other
  let go := fun d : Die => s.grantTo none d (s.grantCause d) false (!(s.ref.view d).ready)
  if s.ref.grant ≠ .noGrant then s
  else if s.ref.lastResort = some q && s.mayGrant q then go q
  else if s.mayGrant p then go p
  else if s.mayGrant q then
    match (s.ref.view q).readySince with
      | some t => if t + ms 20 ≤ s.now then go q else s
      | none => s
  else s

/-- REF enters NO_GRANT; the 20.0 ms of R215 start afresh. -/
def State.enterNoGrant (s : State) : State :=
  s.modRef fun r => { r with
    grant := .noGrant, stepAt := s.now, viewA := { r.viewA with readySince := none },
    viewB := { r.viewB with readySince := none } }

/-- Die x is clear (R217): the grant passes on, or REF ends in NO_GRANT. -/
def State.dieIsClear (s : State) : State :=
  match s.ref.grant with
  | .withdrawing x (some y) c k n => s.grantTo (some x) y c k n
  | .withdrawing x none c k n => ((s.enterNoGrant).noteSwitch c (some x) none k n).tryGrant
  | _ => s

/-- The channels x showed DARK are marked when a dark lamp moves the grant (R222). -/
def Ref.markDark (x : Die) (r : Ref) : Ref := r.setPathBad x (r.pathBad x ||| (r.view x).dark)

/-- Steps 1 and 3 of R217: Withdrawn goes to x; for DRIVE_SILENT the kill goes with it. A die whose DRIVE link
already reads Not driving from valid words is clear at once. -/
def State.beginSwitch (x : Die) (y : Option Die) (cause : Byte) (s : State) : State :=
  let notReady := match y with | some y => !(s.ref.view y).ready | none => false
  let silent : Bool := cause = causeSilent
  let s := (s.modRef fun r =>
    let r := if cause = causeDark then r.markDark x else r
    { r with grant := .withdrawing x y cause silent notReady, stepAt := s.now }).drive x.grantLink (some false)
  let dl := s.lv x.driveLink
  if silent then s.killStuck x
  else if !dl.silent && !dl.taken then s.dieIsClear
  else s

/-- R229: the kill of a standby is released once, so that it can be granted as the last resort. A KILL_RELEASE or a reset of
REF lets the rule apply to that die again. -/
def State.lastResortRelease (y : Die) (s : State) : State :=
  if s.ref.kill y && s.reachable y && !s.ref.resorted y && s.ref.killTest ≠ some y then
    (s.releaseKill y).modRef fun r => { r.setResorted y true with lastResort := some y }
  else s

/-- A hard cause: the grant moves to y when y is switchable; else REF withdraws x anyway and R229 may release y. -/
def State.hardSwitch (x : Die) (cause : Byte) (s : State) : State :=
  if s.switchable x.other then s.beginSwitch x (some x.other) cause
  else (s.lastResortRelease x.other).beginSwitch x none cause

/-! ### The causes (R216, R222) -/

/-- The hard cause that holds on driver x, if one does, in the order of Table 8.4. -/
def State.hardCause (s : State) (x : Die) : Option Byte :=
  let dl := s.lv x.driveLink
  if (s.ref.view x).seen && byteMode (s.ref.view x).state = 7 then some causeDieFailed
  else if (s.lend x.refLink .first).upSinceStart && (s.lend x.refLink .first).lost then some causeLinkLost
  else if dl.silent then some causeSilent
  else if !dl.taken then some causeDropped
  else none

/-- A channel DARK in 8 consecutive reports over at least 1.0 ms (R222). -/
def State.darkLong (s : State) (x : Die) : Bool :=
  let v := s.ref.view x
  (List.range 12).any fun c => 8 ≤ v.darkRuns.getD c 0 && v.darkSince.getD c 0 + ms 1 ≤ s.now

def State.softCauseOf (s : State) (x : Die) : Option Byte :=
  let v := s.ref.view x
  let y := x.other
  let ready := s.switchable y && (s.ref.view y).ready
  if v.seen && !byteFeed v.state && ready && byteFeed (s.ref.view y).state then some causeFeedLost
  else if v.seen && !byteFeed v.state && !byteStore v.state && ready then some causeStoreEnd
  else if s.ref.darkSwitch && s.darkLong x && (v.dark &&& ~~~ s.ref.pathBad y) ≠ 0 && ready then some causeDark
  else none

/-- REF evaluates the causes while a die drives; in SWITCHING it starts no other (R216). -/
def State.evaluateCauses (s : State) : State :=
  match s.ref.grant with
  | .granted x =>
    match s.hardCause x with
    | some c => s.hardSwitch x c
    | none =>
      match s.softCauseOf x with
      | some c => s.beginSwitch x (some x.other) c
      | none => s
  | _ => s

/-- REF acts at an event of its links. -/
def State.refEvent (s : State) : State := if s.ref.grant = .noGrant then s.tryGrant else s.evaluateCauses

def freshRuns (v : RefView) : RefView := { v with darkRuns := List.replicate 12 0, darkSince := List.replicate 12 0 }

/-- DRIVE_y reads Driving: REF enters GRANT_y, reports, and evaluates the causes again (R217 step 5). -/
def State.grantDone (s : State) : State :=
  match s.ref.grant with
  | .granting src y c k n =>
    (((s.modRef fun r => { (r.setView y (freshRuns (r.view y))) with
      grant := .granted y, lastResort := none }).noteSwitch c src (some y) k
      n)).evaluateCauses
  | _ => s

/-- MODE KILLED within a kill test passes it (R231). -/
def State.seeKilled (d : Die) (st : Byte) (s : State) : State :=
  if s.ref.killTest = some d && byteMode st = 6 then s.modRef fun r => { r with killTestSeen := true } else s

/-- REF takes a lamp die's STATE byte; a byte with a reserved MODE changes nothing (R210). -/
def State.refSees (d : Die) (st : Byte) (s : State) : State :=
  if (byteMode st).toNat ≤ 8 then
    (s.seeKilled d st).modView d fun v =>
      let v := { v with seen := true, state := st }
      if v.grantable then { v with readySince := some (v.readySince.getD s.now) } else { v with readySince := none }
  else s

end Sys2Proof.Machine
end

