-- ==== Sys2Proof/Machine/Links.lean ====
section
/-! DEFINITION. The rows of chapter 02 that no other chapter owns: crossings (R38 to R41), heartbeats, loss and
restoration of framed links (R44, R50), silence of level links (R49), and the time links (R37, R51, R120, R166). -/

namespace Sys2Proof.Machine

/-! ### Crossings (R38 to R41) -/

/-- Toward an island whose clock is stopped nothing is launched; a transfer toward the host port waits for the edges of SCLK
that come with the command and is never lost (R41). -/
def execCrossingTransfer (x : Crossing) (data : List Byte) (sclk : Nat) (s : State) :
    Host.Outcome State Fault Refusal :=
  let v := s.crossed x
  if s.crossingFenced x then .next s
  else if x = .ctlToHost then
    .next (s.setCrossed x ({ v with waiting := v.waiting ++ [fit data (unitBytes x)] }.clocked sclk))
  else if s.receiverRuns x then .next (s.setCrossed x (v.transfer x data))
  else .next s

/-! ### Heartbeats (R44, R212) -/

/-- The cycle count of the die at an end, modulo 2^16. -/
def State.cycle16 (s : State) : Station → Half
  | .cd => s.cycle32.extractLsb' 0 16
  | .ld => s.cycle32.extractLsb' 0 16
  | .lamp d => (s.die d).clock.cycle32.extractLsb' 0 16
  | .ref => s.ref.cycle.extractLsb' 0 16

/-- One HEARTBEAT ends the end's own island cycle: a cycle without a valid HEARTBEAT breaks the run of R50. REF counts
its cycle at the HEARTBEAT of its CD link. -/
def execHeartbeatSend (l : FLink) (e : LEnd) (s : State) : Host.Outcome State Fault Refusal :=
  let x := s.lend l e
  if !x.running then .next s
  else
    let st := station l e
    let s := s.sendLink l e (.heartbeat (s.cycle16 st) (s.stateOf st) x.rxerr)
    let s := s.modEnd l e fun x => { x with hbRun := if x.hbSeen then x.hbRun else 0, hbSeen := false }
    .next (if l = .cdRef && st = .ref then s.modRef fun r => { r with cycle := r.cycle + 1 } else s)

/-- A valid frame has arrived at an end (R50). -/
def State.heard (l : FLink) (e : LEnd) (s : State) : State := s.modEnd l e fun x => { x with lastValidAt := s.now }

/-! ### Faults of a lost link (Table 8.9, R50, R37, R226) -/

/-- The fault an end raises for its loss, and the SUBJECT: each end raises "link lost" but where Table 15.3 names a loss of
its own (R50, Table 15.4). -/
def lossFault (l : FLink) (e : LEnd) : FaultDef × Byte :=
  match station l e with
  | .lamp d => match l with
    | .ldLa => (fTimeLinkLost, l.subject)
    | .ldLb => (fTimeLinkLost, l.subject)
    | .mirror => (fMirrorLost, l.subject)
    | .cdLa => (fControlLost, d.subject)
    | .cdLb => (fControlLost, d.subject)
    | _ => (fLinkLost, l.subject)
  | _ => (fLinkLost, l.subject)

/-- The lamp die of a REF–x link. -/
def refDie (l : FLink) : Option Die := match l with | .refLa => some .la | .refLb => some .lb | _ => none

def Ref.lost (r : Ref) : Die → Bool | .la => r.lostA | .lb => r.lostB

def Ref.setLost (d : Die) (v : Bool) (r : Ref) : Ref :=
  match d with
  | .la => { r with lostA := v }
  | .lb => { r with lostB := v }

/-- REF finds a die lost: its framed link is lost and its DRIVE link silent. A standby that dies is not ready (Table 8.9). -/
def State.findDieLost (d : Die) (s : State) : State :=
  if (s.lv d.driveLink).silent && (s.lend d.refLink .first).lost && !s.ref.lost d then
    let t := (s.modRef (Ref.setLost d true)).refRaise fDieLost d.subject []
    if s.ref.grant.grantee = some d then t else t.refRaise fStandby d.subject [(s.ref.view d).state]
  else s

/-- "referee lost" at the CD, "die lost" at REF. -/
def State.lossExtra (l : FLink) (e : LEnd) (s : State) : State :=
  if l = .cdRef && e = .first then s.raiseAt .cd fRefLost 0x42 []
  else match refDie l, e with
    | some d, .first => s.findDieLost d
    | _, _ => s

def State.lossRaise (l : FLink) (e : LEnd) (s : State) : State :=
  let s := s.raiseAt (station l e) (lossFault l e).1 (lossFault l e).2 []
  (s.lossExtra l e).modEnd l e fun x => { x with raised := true }

def State.lossClear (l : FLink) (e : LEnd) (s : State) : State :=
  if !(s.lend l e).raised then s
  else
    let s := s.clearAt (station l e) (lossFault l e).1 (lossFault l e).2
    let s := if l = .cdRef && e = .first then s.clearAt .cd fRefLost 0x42 else s
    let s := match refDie l, e with
      | some d, .first => if s.ref.lost d then (s.modRef (Ref.setLost d false)).refClear fDieLost d.subject else s
      | _, _ => s
    s.modEnd l e fun x => { x with raised := false }

/-! ### Loss (R50, R226, R216) -/

/-- What an end's owner does at the loss of a link. -/
def State.lossEffect (l : FLink) (e : LEnd) (s : State) : State :=
  match l, station l e with
  | .cdRef, .cd => s.engineEvent
  | .cdLa, .lamp d => s.loseCd d
  | .cdLb, .lamp d => s.loseCd d
  | .refLa, .ref => s.refEvent
  | .refLb, .ref => s.refEvent
  | _, _ => s

def execLinkLost (l : FLink) (e : LEnd) (s : State) : Host.Outcome State Fault Refusal :=
  let x := s.lend l e
  if !x.running || x.lost then .next s
  else
    let s := s.until (x.lastValidAt + us 250)
    let s := s.modEnd l e fun x => { x with lost := true, lostAt := s.now, hbRun := 0, hbSeen := false }
    .next ((s.lossRaise l e).lossEffect l e)

/-- A link that is not restored within 250 µs after the release of its end (R50). -/
def execLinkStartTimeout (l : FLink) (e : LEnd) (s : State) : Host.Outcome State Fault Refusal :=
  let x := s.lend l e
  if x.running && x.lost && !x.upSinceStart && !x.startChecked then
    let s := (s.until (x.releasedAt + us 250)).modEnd l e fun x => { x with startChecked := true }
    .next (s.lossRaise l e)
  else .next s

/-- A cycle of the receiver without a HEARTBEAT on a link that is not lost (R212). -/
def execHeartbeatMissed (l : FLink) (e : LEnd) (s : State) : Host.Outcome State Fault Refusal :=
  let x := s.lend l e
  if x.running && !x.lost && !x.hbSeen then
    .next ((s.modEnd l e fun x => { x with missed := x.missed + 1 }).raiseAt (station l e) fHbMissed l.subject [])
  else .next s

/-! ### RXERR (R45, R395) -/

/-- RXERR of a link has risen; 16 within 1,024 cycles raise the fault. -/
def State.rxRise (l : FLink) (e : LEnd) (n : Nat) (rxerr : Byte) (s : State) : State :=
  let x := s.errs.get l
  let rises := (s.now, n) :: x.rises.filter fun r => s.now < r.1 + 1024 * cycleNs
  let many := 16 ≤ rises.foldl (fun a r => a + r.2) 0
  let s' := s.modErr l fun x => { x with
    rises := rises, lastRiseAt := s.now, raised := x.raised || many,
    byFirst := if x.raised then x.byFirst else decide (e = .first) }
  if many && !x.raised then s'.raiseAt (station l e) fLinkErrors l.subject [rxerr] else s'

def State.seeRxerr (l : FLink) (e : LEnd) (rxerr : Byte) (s : State) : State :=
  let old := (s.lend l e).peerRxerr
  let s := s.modEnd l e fun x => { x with peerRxerr := rxerr }
  if old.toNat < rxerr.toNat then s.rxRise l e (rxerr.toNat - old.toNat) rxerr else s

/-- A frame is discarded and counted; at 255 the count stands, and each further discard is a rise (R44, R45, R395). -/
def State.discardFrame (l : FLink) (e : LEnd) (s : State) : State :=
  if (s.lend l e).rxerr = 0xFF then s.rxRise l e.other 1 0xFF
  else s.modEnd l e fun x => { x with rxerr := satByte x.rxerr }

/-- The OPCODEs of Tables 6.6, 8.5 and 12.13 that the die at the far end of a CD link knows. -/
def opcodesOf : FLink → List Byte
  | .cdLa => [0x01, 0x10, 0x11, 0x20, 0x21, 0x30, 0x31, 0x32, 0x40, 0x60, 0x61]
  | .cdLb => [0x01, 0x10, 0x11, 0x20, 0x21, 0x30, 0x31, 0x32, 0x40, 0x60, 0x61]
  | .cdRef => [0x50, 0x51, 0x52, 0x53, 0x54, 0x55, 0x60, 0x61]
  | _ => []

/-- A COMMAND with an OPCODE its die does not know is discarded with RESULT UNKNOWN_OPCODE (R174, R231, Table 6.7). -/
def resUnknownOpcode : Byte := 5

/-- The codes of one frame arrive at an end whose running disparity they give. What the receiver discards is counted (R43,
R45); a COMMAND whose OPCODE the die does not know is answered and has no effect. Of every other frame another command
tells what it does. -/
def execLinkFrameDiscarded (l : FLink) (e : LEnd) (positive : Bool) (codes : List (BitVec 10)) (s : State) :
    Host.Outcome State Fault Refusal :=
  if !(s.lend l e).running then .next s
  else match frameOfCodes l positive codes with
    | none => .next (s.discardFrame l e)
    | some f =>
      if f.type = 0x02 && e = .second && !(opcodesOf l).contains (byteAt f.payload 0) then
        .next ((s.heard l e).serveCommand l f.seq fun s => (s, [byteAt f.payload 0, resUnknownOpcode]))
      else .next s

def execLinkErrorsClear (l : FLink) (s : State) : Host.Outcome State Fault Refusal :=
  let x := s.errs.get l
  if x.raised then
    let s := s.until (x.lastRiseAt + 8192 * cycleNs)
    .next ((s.modErr l fun x => { x with raised := false, rises := [] }).clearAt
      (station l (if x.byFirst then .first else .second)) fLinkErrors l.subject)
  else .next s

/-! ### HEARTBEAT_RECEIVED (R44, R50, R210) -/

/-- The link is restored at an end, and its owner acts on that (R50, R228, R343, R392). -/
def State.restore (l : FLink) (e : LEnd) (s : State) : State :=
  let s := (s.modEnd l e fun x => { x with lost := false, upSinceStart := true }).lossClear l e
  match l, station l e with
  | .cdRef, .cd => (s.configureDie .ref).engineEvent
  | .cdLa, .cd => s.configureDie .la
  | .cdLb, .cd => s.configureDie .lb
  | .cdLa, .lamp d => (s.regainCd d).resendDie d
  | .cdLb, .lamp d => (s.regainCd d).resendDie d
  | .cdRef, .ref => s.resendRef
  | _, _ => s

/-- A lamp die takes the CD's MODE: GOING_DARK, FROST, or their end (R226, R228, R304). -/
def State.seeCdMode (d : Die) (was now_ : Byte) (s : State) : State :=
  let lost := (s.lend d.cdLink .second).lost
  let s := if goingDark now_ then s.loseCd d
    else if goingDark was && !lost then s.regainCd d
    else s
  if byteMode now_ = 2 then
    s.modDie d fun x => { x with cd := { x.cd with frostDue := !x.cd.frost, frostLeft := false } }
  else
    s.modDie d fun x => { x with cd := { x.cd with
      frostDue := false, frostLeft := x.cd.frost,
      leaveFrom := if x.cd.frost && !x.cd.frostLeft then x.heldCount else x.cd.leaveFrom } }

/-- What the owner of an end does with the sender's STATE. -/
def State.seeState (l : FLink) (e : LEnd) (was now_ : Byte) (s : State) : State :=
  match l, station l e with
  | .cdLa, .lamp d => s.seeCdMode d was now_
  | .cdLb, .lamp d => s.seeCdMode d was now_
  | .refLa, .ref => (s.refSees .la now_).refEvent
  | .refLb, .ref => (s.refSees .lb now_).refEvent
  | _, _ => s

def execHeartbeatReceived (l : FLink) (e : LEnd) (cycle : Half) (st : Byte) (rxerr : Byte) (s : State) :
    Host.Outcome State Fault Refusal :=
  let x := s.lend l e
  if !x.running then .next s
  else
    let known := modeKnown (station l e.other) st
    let run := if x.hbSeen then x.hbRun else x.hbRun + 1
    let s := (s.heard l e).modEnd l e fun x => { x with
      cycle := cycle, hbRun := min 4 run, hbSeen := true, peerState := if known then st else x.peerState }
    let s := s.seeRxerr l e rxerr
    let s := if x.lost && 4 ≤ run then s.restore l e else s
    .next (if known then s.seeState l e x.peerState st else s)

/-! ### Alarm insertions repeat (R48) -/

/-- Once for each boundary of the lamp cycle that has passed since the record was last inserted. -/
def execAlarmRepeatInsertion (d : Die) (s : State) : Host.Outcome State Fault Refusal :=
  let x := s.die d
  match x.unacked with
  | some (r, q) => .next (if x.powered && x.insertedAt < x.clock.boundaryAt then s.insertAlarm d q r else s)
  | none => .next s

/-! ### Level links (R49, Table 2.6) -/

/-- The receiver of a level link counts invalid words. -/
def State.countInvalid (l : LLink) (n : Nat) (s : State) : State :=
  let add := fun h : Half => BitVec.ofNat 16 (min 65535 (h.toNat + n))
  match levelEnd l with
  | .ref => s.modRef fun r => { r with invalidWords := add r.invalidWords }
  | .lamp d => s.modDie d fun x => { x with invalidWords := add x.invalidWords }
  | _ => s

/-- The words have arrived: the invalid ones are counted, and the last one and the last valid one are kept. -/
def State.hearWords (l : LLink) (words : List (BitVec 12)) (s : State) : State :=
  let r := levelRun (s.lv l).last none 0 words
  (s.countInvalid l r.2.2).modLevel l fun x => { x with
    last := r.2.1, wordAt := if words.any fun w => (levelOf w).isSome then s.now else x.wordAt }

/-- The receiver takes a state, which ends a silence and its fault. -/
def State.takeLevel (l : LLink) (v : Bool) (words : List (BitVec 12)) (s : State) : State :=
  let s := s.hearWords l words
  let s := if (s.lv l).raised then s.clearAt (levelEnd l) fLevelSilent l.subject else s
  (s.take l v).modLevel l fun x => { x with raised := false }

/-- The die's kill ends: its supply returns, its latched grant is Withdrawn, and it is a standby that is not ready (R218). -/
def State.endKill (d : Die) (s : State) : State :=
  s.modDie d fun x => { x with killed := false, gateSupply := x.powered, grant := false, settling := true }

/-- Silence: the grant is held, DRIVE reads not driving, and a kill reads released. -/
def State.silenceEffect (l : LLink) (s : State) : State :=
  match l with
  | .driveA => (s.findDieLost .la).refEvent
  | .driveB => (s.findDieLost .lb).refEvent
  | .killA => if s.la.killed then (s.modLevel .killA fun x => { x with taken := false }).endKill .la else s
  | .killB => if s.lb.killed then (s.modLevel .killB fun x => { x with taken := false }).endKill .lb else s
  | _ => s

def execLevelLinkSilent (l : LLink) (s : State) : Host.Outcome State Fault Refusal :=
  if (s.lv l).silent then .next s
  else
    let s := s.until ((s.lv l).wordAt + 1500)
    let s := s.modLevel l fun x => { x with silent := true, silentAt := s.now, raised := true, last := none }
    .next ((s.raiseAt (levelEnd l) fLevelSilent l.subject []).silenceEffect l)

/-! ### Time links (R37, R51, R120, R166) -/

/-- LEN of a TIME frame (R120). -/
def lampTimeLen : Nat := 16

/-- A TIME frame of the LD on a time link: TT is the train time at which its SOF leaves (R120). The manual gives TURN a
meaning in the die's answer alone; the LD's own frames carry in it the round trip last measured, 0 before the first, from
which the die has the correction of R51 (DESIGN CHOICE, log entry 64). -/
def State.sendLampTime (d : Die) (echoReq : Bool) (s : State) : State :=
  let c := s.ld.clock
  let sof := (s.lend d.timeLink .first).sofAt d.timeLink s.now
  s.sendLink d.timeLink .first (.time (s.trainTime + BitVec.ofNat 64 (sof - s.now)) echoReq false c.holdover
    (c.steppedAt = some s.cycle) ((s.ld.timeLink d).roundTrip.getD 0))

def State.timeRuns (s : State) (d : Die) : Bool :=
  s.ldRuns && (s.ld.timeLink d).running && !s.fences.contains (.timeLink d)

/-- Due when the link starts, and then every 1,024 cycles (R51). -/
def execTimeLinkDelayMeasure (d : Die) (s : State) : Host.Outcome State Fault Refusal :=
  if s.timeRuns d then
    let s := s.until (s.ld.timeLink d).measureAt
    let sof := (s.lend d.timeLink .first).sofAt d.timeLink s.now
    .next ((s.sendLampTime d true).modTime d fun t => { t with askedAt := some sof, measureAt := s.now + 1024 * cycleNs })
  else .next s

/-- One TIME frame in each train cycle (R120). -/
def execTimeLinkSend (d : Die) (s : State) : Host.Outcome State Fault Refusal :=
  if s.timeRuns d then
    let s := s.until (s.ld.timeLink d).sendAt
    .next ((s.sendLampTime d false).modTime d fun t => { t with sendAt := s.momentOf s.nextBoundary })
  else .next s

/-- The echo arrives, its SOF `elapsed` after the request's left. The round trip is that time less the die's TURN (R51). -/
def execTimeLinkEchoReceived (d : Die) (turn : Word) (elapsed : Word) (s : State) : Host.Outcome State Fault Refusal :=
  match (s.ld.timeLink d).askedAt with
  | some at_ =>
    if s.timeRuns d then
      let s := s.until (at_ + elapsed.toNat + frameNs d.timeLink lampTimeLen)
      let trip := s.now - at_ - frameNs d.timeLink lampTimeLen - turn.toNat
      .next ((s.heard d.timeLink .first).modTime d fun t =>
        { t with roundTrip := some (BitVec.ofNat 32 trip), askedAt := none })
    else .next s
  | none => .next s

/-- A lamp die's grid meets a train time: a step for STEPPED or more than 2,000 ns, else slewing (R166). -/
def DieClock.meet (c : DieClock) (off : Int) (stepped : Bool) (src : ClockSource) : DieClock :=
  if stepped || 2000 < off.natAbs then { c with source := src, stepTo := some off, slewNs := 0 }
  else { c with source := src, slewNs := off }

/-- The die takes TT, the half of the round trip that the frame carries, and the frame's own length (R51, R166). Its answer's
TURN runs from the SOF of the request to the SOF of the answer (R120). -/
def execLampTimeFrameReceived (d : Die) (tt : TrainTime) (echoReq stepped : Bool) (turn : Word) (s : State) :
    Host.Outcome State Fault Refusal :=
  let x := s.die d
  if !x.powered || !(s.lend d.timeLink .second).running then .next s
  else
    let frame := frameNs d.timeLink lampTimeLen
    let half := turn.toNat / 2
    let off : Int := (tt.toNat + half + frame : Nat) - ((s.dieTime d).toNat : Int)
    let s := (s.heard d.timeLink .second).modDie d fun x => { x with
      clock := { x.clock.meet off stepped .timeLink with halfTrip := half } }
    let sof := (s.lend d.timeLink .second).sofAt d.timeLink s.now
    .next (if echoReq then
        s.sendLink d.timeLink .second
          (.time (s.dieTime d) false true false false (BitVec.ofNat 32 (sof + frame - s.now)))
      else s)

end Sys2Proof.Machine
end

