-- ==== Sys2Proof/Machine/Lamps.lean ====
section
/-! DEFINITION. The rows of chapter 06: the COMMANDs of Table 6.6 on the map and slots each die holds (R158), their effect boundaries (R178), the lamp-cycle boundary
(R164, R165, R173, R240), overcurrent cuts (R153), scenes and bursts (R167 to R171). -/

namespace Sys2Proof.Machine

/-! ### COMMANDs of Table 6.6 -/

def resOk : Byte := 0
def resLate : Byte := 1
def resBadField : Byte := 2
def resRefused : Byte := 3
def resBusy : Byte := 4

/-- A powered die serves a COMMAND on its CD link (R46, R174). -/
def State.dieCommand (d : Die) (seq : Byte) (run : State → State × List Byte) (s : State) :
    Host.Outcome State Fault Refusal :=
  if (s.die d).powered then .next ((s.heard d.cdLink .second).serveCommand d.cdLink seq run) else .next s

/-- The answer of a command that only changes the die. -/
def State.answerDie (d : Die) (opcode result : Byte) (f : LampDie → LampDie) (s : State) : State × List Byte :=
  (s.modDie d f, [opcode, result])

def execLampIdentity (d : Die) (seq : Byte) (id : NodeId) (s : State) : Host.Outcome State Fault Refusal :=
  s.dieCommand d seq (State.answerDie d 0x01 resOk fun x => { x with identity := some id })

/-- EFFECT_CYCLE 0, or a boundary that has passed, stands for the next boundary; the latter is LATE (R174, Table 6.7). -/
def LampDie.effectOf (x : LampDie) (effect : Word) : Option Word × Byte :=
  if effect = 0 then (none, resOk)
  else if ahead32 effect x.clock.cycle32 then (some effect, resOk)
  else (none, resLate)

def LampDie.hold1 (seq : Byte) (op : HeldOp) (effect : Word) (x : LampDie) : LampDie :=
  { x with held := x.held ++ [⟨seq, (x.effectOf effect).1, x.heldCount, op⟩], heldCount := x.heldCount + 1 }

/-- A command that passed its checks is held for its boundary; one that failed them has no effect. -/
def State.holdOrRefuse (d : Die) (seq : Byte) (opcode : Byte) (ok : Bool) (op : HeldOp) (effect : Word) (s : State) :
    State × List Byte :=
  if ok then s.answerDie d opcode ((s.die d).effectOf effect).2 (LampDie.hold1 seq op effect)
  else s.answerDie d opcode resBadField id

/-- Channel or slot numbers as an index; the value is used only where the number is in range. -/
def chanOf (b : Byte) : Chan := Fin.ofNat 12 b.toNat

def slotIx (b : Byte) : Fin 16 := Fin.ofNat 16 b.toNat

def execMapWrite (d : Die) (seq : Byte) (channel : Byte) (effect : Word) (entry : MapEntry) (s : State) :
    Host.Outcome State Fault Refusal :=
  s.dieCommand d seq (State.holdOrRefuse d seq 0x10 (channel.toNat < 12 && entryOk entry) (.map (chanOf channel) entry) effect)

/-- After BAD_FIELD bytes 2 to 19 are 0: Table 6.6 gives the response its length of 20 and says nothing of what they hold then
(DESIGN CHOICE, log entry 71). -/
def execMapRead (d : Die) (seq : Byte) (channel : Byte) (s : State) : Host.Outcome State Fault Refusal :=
  s.dieCommand d seq (fun s =>
    let x := s.die d
    let c := chanOf channel
    if channel.toNat < 12 then
      (s, [0x11, resOk, channel, flag (x.map[c.val]).isSome 7] ++ entryBytes (x.ownEntry c))
    else (s, [0x11, resBadField] ++ zeros 18))

def execSlotWrite (d : Die) (seq : Byte) (slot count : Byte) (effect : Word) (steps : List Half) (s : State) :
    Host.Outcome State Fault Refusal :=
  s.dieCommand d seq (State.holdOrRefuse d seq 0x20
    (1 ≤ slot.toNat && slot.toNat ≤ 15 && slotOk count.toNat steps)
    (.slot (slotIx slot) (slotStored count.toNat steps)) effect)

/-- Bytes 2 to 19 after BAD_FIELD as in MAP_READ (DESIGN CHOICE, log entry 71). -/
def execSlotRead (d : Die) (seq : Byte) (slot : Byte) (s : State) : Host.Outcome State Fault Refusal :=
  s.dieCommand d seq (fun s =>
    if slot.toNat ≤ 15 then (s, [0x21, resOk, slot] ++ slotBytes (s.die d).slots[(slotIx slot).val])
    else (s, [0x21, resBadField] ++ zeros 18))

def execStateCmd (d : Die) (seq : Byte) (reqLit : ChMask) (effect : Word) (epoch : Half) (s : State) :
    Host.Outcome State Fault Refusal :=
  s.dieCommand d seq (State.holdOrRefuse d seq 0x30 true (.state reqLit epoch) effect)

def execScene (d : Die) (seq : Byte) (scene : Byte) (effect : Word) (s : State) : Host.Outcome State Fault Refusal :=
  s.dieCommand d seq (State.holdOrRefuse d seq 0x31 true (.scene scene) effect)

/-- Admission of a burst (R170, R171, R244). -/
def LampDie.admitBurst (x : LampDie) (b : Burst) : Byte × LampDie :=
  if !ahead32 b.start x.clock.cycle32 then (resBadField, x)
  else if x.burst.isSome then (resBusy, { x with busyCount := x.busyCount + 1 })
  else
    let need := x.burstNeed b (x.clock.cycle + (b.start - x.clock.cycle32).toNat) (slotPeriod b.steps)
    if x.store.feedOk && need + x.eRes + x.store.eCommit ≤ x.store.eAvail then
      (resOk, { x with burst := some b, store := { x.store with eCommit := need } })
    else (resRefused, x)

def execLampBurst (d : Die) (seq : Byte) (slot : BitVec 4) (burstCycle : Word) (mask : ChMask) (s : State) :
    Host.Outcome State Fault Refusal :=
  s.dieCommand d seq (fun s =>
    let x := s.die d
    let r := x.admitBurst ⟨slot, mask, burstCycle, false, x.slots[slot.toNat], false⟩
    s.answerDie d 0x32 r.1 fun _ => r.2)

/-- STATUS byte of one channel (Table 6.8). -/
def LampDie.statusByte (x : LampDie) (c : Chan) : Byte :=
  let h := x.chan c
  let st : BitVec 2 :=
    if h.latched then 2 else if !x.canLight c then 3 else if x.gate && h.target ≠ 0 && !h.cutNow then 1 else 0
  st ++ (BitVec.ofNat 3 h.step) ++ (if h.inBurst then 1#1 else 0#1) ++ 0#2

def execStatus (d : Die) (seq : Byte) (s : State) : Host.Outcome State Fault Refusal :=
  s.dieCommand d seq (fun s =>
    let x := s.die d
    (s, [0x40, resOk] ++ ((List.finRange 12).map x.statusByte) ++ be32 x.clock.cycle32))

/-! ### Effect boundaries (R178) -/

/-- The boundary a held command names has been reached. -/
def Held.due (n : Word) (h : Held) : Bool := match h.effect with | some e => !ahead32 e n | none => false

/-- The latch of R153 ends with the channel's map entry (R177); a map entry over a valid one makes both references
invalid (R191). -/
def LampDie.applyMap (c : Chan) (e : MapEntry) (x : LampDie) : LampDie :=
  let valid := (x.map[c.val]).isSome
  let x := { x with map := x.map.set c.val (some e) }
  x.modChan c fun h => { h with
    latched := false, cuts := 0, cal := [], win1 := none, win2 := none, own := if valid then none else h.own,
    cross := if valid then none else h.cross }

/-- A STATE command ends hold, fallback or the Frost set when it was accepted after their cause ended (R228, R304). -/
def LampDie.applyState (m : ChMask) (epoch : Half) (order : Nat) (x : LampDie) : LampDie :=
  let leaves := x.cd.leaveFrom ≤ order && !x.cd.lost && (!x.cd.frost || x.cd.frostLeft)
  if (x.cd.fallback || x.cd.frost) && !leaves then x
  else
    { x with reqLit := m, epoch := epoch, cd := { x.cd with
        holding := x.cd.holding && !leaves, fallbackDue := x.cd.fallbackDue && !leaves, fallback := false,
        frost := false, frostLeft := false } }

def LampDie.applyHeld (x : LampDie) (h : Held) : LampDie :=
  match h.op with
  | .map c e => x.applyMap c e
  | .slot n v => { x with slots := x.slots.set n.val v }
  | .scene b => if x.fixed then x else { x with scene := b }
  | .state m ep => x.applyState m ep h.order

/-- MAP_WRITE, SLOT_WRITE, SCENE, STATE. -/
def HeldOp.rank : HeldOp → Nat | .map _ _ => 0 | .slot _ _ => 1 | .scene _ => 2 | .state _ _ => 3

/-- SEQ a comes before SEQ b; SEQ counts modulo 256 (R45). -/
def seqBefore (a b : Byte) : Bool := 1 ≤ (b - a).toNat && (b - a).toNat < 128

/-- A command takes its place before the first one whose SEQ is later. -/
def placeBySeq (h : Held) : List Held → List Held
  | [] => [h]
  | k :: r => if seqBefore h.seq k.seq then h :: k :: r else k :: placeBySeq h r

def bySeq (l : List Held) : List Held := l.foldl (fun a h => placeBySeq h a) []

/-- The due commands in the order of R178; those of one rank in the order of their SEQ. -/
def inOrder (l : List Held) : List Held :=
  (List.range 4).flatMap fun r => bySeq (l.filter fun h => h.op.rank = r)

/-- Channels that a due MAP_WRITE or SLOT_WRITE touches. -/
def LampDie.touched (x : LampDie) (l : List Held) (c : Chan) : Bool :=
  l.any fun h => match h.op with
    | .map k _ => decide (k = c)
    | .slot n _ => decide ((x.entry c).slot.toNat = n.val)
    | _ => false

def execCommandEffectApply (d : Die) (s : State) : Host.Outcome State Fault Refusal :=
  let x := s.die d
  let n := x.clock.cycle32
  let due := inOrder (x.held.filter (Held.due n))
  if due.isEmpty || !x.powered then .next s
  else
    let y := due.foldl LampDie.applyHeld { x with held := x.held.filter fun h => !h.due n }
    let s := s.setDie d y
    let s := (List.finRange 12).foldl (fun t c =>
      let t := t.dieCond d fOvercurrent (chanSubject d c) [] ((t.die d).chan c).latched
      if y.touched due c && ((t.die d).chan c).proof ≠ .offDuty then t.requalify d c else t) s
    .next (s.showCycle d)

/-! ### LAMP_CYCLE_BOUNDARY (R164, R166, R240, R245) -/

/-- The next boundary: its train time, when it falls, what is left to slew, and whether the cycle was stepped. A step
ends the cycle at the first boundary of the new grid at least 62.5 µs after the previous one (R166). -/
def DieClock.advance (c : DieClock) : DieClock :=
  match c.stepTo with
  | some off =>
    let b : Nat := ((c.boundaryTT.toNat : Int) + off).toNat
    let m := (b + 62500 + cycleNs - 1) / cycleNs * cycleNs
    { c with boundaryTT := BitVec.ofNat 64 m, boundaryAt := c.boundaryAt + (m - b), stepTo := none, steppedCycle := true }
  | none =>
    let k : Int := max (-25) (min 25 c.slewNs)
    { c with boundaryTT := c.boundaryTT + BitVec.ofNat 64 cycleNs,
             boundaryAt := c.boundaryAt + (cycleNs - k).toNat, slewNs := c.slewNs - k, steppedCycle := false }

/-- Overcurrent cuts at the end of a cycle (R153). -/
def Channel.endCycle (boundary : Nat) (h : Channel) : Channel :=
  let n := if h.cutNow then h.cuts + 1 else 0
  { h with edgeAt := if h.cutNow then boundary else h.edgeAt, cutNow := false, cuts := n, latched := h.latched || 8 ≤ n }

/-- K over the most recent 8,192 cycles while their predicted energy, at K = 1, is at least 1 J (R241). -/
def Store.learnK (railNj predNj : Nat) (st : Store) : Store :=
  let w := ((railNj, predNj) :: st.kWindow).take 8192
  let rail := w.foldl (fun a v => a + v.1) 0
  let pred := w.foldl (fun a v => a + v.2) 0
  if w.length = 8192 && 1000000000 ≤ pred then { st with kWindow := w, k := max 1024 (min 4096 (rail * 1024 / pred)) }
  else { st with kWindow := w }

/-- A mean sense voltage in µV over a sense resistance in mΩ, in µA (R234, Table 9.2). -/
def senseUa (uv : Int) (mohm : Nat) : Int := uv * 1000 / mohm

/-- The rail draw is the charge current less the store current (R235). -/
def Store.railDraw (m : StoreSample) (st : Store) : Nat :=
  (senseUa m.ichUv st.policy.rIch - senseUa m.istUv st.policy.rIst).toNat

/-- Energy of a current in µA at a voltage in mV over one cycle, in nJ. -/
def cycleEnergy (ua mv : Nat) : Nat := ua * mv * 125 / 1000000

/-- The moment since which the store has been below 70.0 V with the feed present and no burst running (R237). -/
def Store.watchLow (now : Nat) (running : Bool) (st : Store) : Store :=
  { st with underSince :=
      if st.feedOk && st.storeMv < 70000 && !running then some (st.underSince.getD now) else none }

/-- STORE_READY (R243). -/
def LampDie.storeReady (x : LampDie) : Bool :=
  let st := x.store
  if st.feedOk then st.cMeas.isSome && 72000 ≤ st.storeMv && x.eRes ≤ st.eAvail
  else !(st.phase = .finish || st.phase = .off)

/-- The energy model takes the quantities of the cycle just ended; a new policy takes effect (R236, R240). -/
def LampDie.account (now : Nat) (m : StoreSample) (x : LampDie) : LampDie :=
  let pred := if x.drives && x.gate then x.cycleNj 1024 x.clock.cycle else 0
  let rail := x.store.railDraw m
  let st := x.store.learnK (cycleEnergy rail m.storeMv) pred
  let st := { st with storeMv := m.storeMv, railUa := rail, dischargeUa := (-(senseUa m.istUv st.policy.rIst)).toNat,
                      feedDv := m.feedDv, policy := st.nextPolicy.getD st.policy, nextPolicy := none }
  let st := { st with eAvail := st.energyAt st.voc }.watchLow now x.bursting
  let st := { st with eRes := { x with store := st }.eRes }
  { x with store := { st with ready := { x with store := st }.storeReady } }

/-- The running burst's commitment falls by the term of the cycle just ended; whether it has eaten into the reserve by
more than one cycle's draw (R245). -/
def LampDie.burstCycle (x : LampDie) (ended : Nat) : LampDie × Bool :=
  match x.burst with
  | some b =>
    if b.running then
      let draw := x.cycleNj x.store.k ended
      let term := (draw - x.store.chargeNj) / 1000
      let left := x.store.eCommit - term
      let y := { x with store := { x.store with eCommit := left } }
      (y, y.store.eAvail + draw / 1000 < left + y.eRes)
    else (x, false)
  | none => (x, false)

/-- A burst ends: its channels return to their own patterns. -/
def LampDie.endBurst (x : LampDie) : LampDie := { x with burst := none, store := { x.store with eCommit := 0 } }

def burstSlotByte (b : Option Burst) : Byte := match b with | some v => v.slot.zeroExtend 8 | none => 0

/-- MARGIN: the lowest A ÷ E of the last 64 valid windows of any channel, 0xFFFF where there has been none: R199 is silent on that
case (DESIGN CHOICE, log entry 72). -/
def LampDie.margin (x : LampDie) : Nat :=
  (List.finRange 12).foldl (fun a c => (x.chan c).ratios.foldl min a) 65535

/-- Cycles that MARGIN has stayed on the other side of 768 from what the open condition says (R199). -/
def State.marginCycle (d : Die) (s : State) : State :=
  let x := s.die d
  let open_ := x.conds.contains (fMarginLow.code, d.subject)
  let low := x.margin < 768
  let n := if low ≠ open_ then x.marginLow + 1 else 0
  let s := s.modDie d fun x => { x with marginLow := n }
  if open_ && 1024 ≤ n then s.dieCond d fMarginLow d.subject [] false else s

/-- The conditions of the store that each boundary decides (R237, R241, R242). -/
def State.storeConds (d : Die) (s : State) : State :=
  let x := s.die d
  let drawn := x.conds.contains (fOverdrawn.code, d.subject)
  let s := s.dieCond d fPowerUnder d.subject [] (4096 ≤ x.store.k)
  let s := s.dieCond d fStoreSmall d.subject (be32 (BitVec.ofNat 32 (x.eRes / 1000)))
    (x.store.cMeas.isSome && x.store.energyAt 75000 < x.eRes)
  s.dieCond d fOverdrawn d.subject [] (drawn && x.store.storeMv < 70000)

/-- E_AVAIL has fallen to E_FINAL in RIDE or LAST (R249). -/
def State.checkSpent (d : Die) (s : State) : State :=
  let x := s.die d
  if x.store.eAvail ≤ x.eFinal then
    match x.store.phase with
    | .ride => s.spendStore d 3
    | .last => s.spendStore d 1
    | _ => s
  else s

/-- A burst marked to end does so at this boundary. -/
def LampDie.cutBurst (x : LampDie) : LampDie :=
  match x.burst with
  | some b => if b.cutDue then x.endBurst else x
  | none => x

def State.burstBooks (d : Die) (ended : Nat) (s : State) : State :=
  let r := (s.die d).burstCycle ended
  let s := s.setDie d r.1
  match r.1.burst with
  | some b =>
    if r.2 && !b.cutDue then
      (s.modDie d fun x => { x with burst := some { b with cutDue := true } }).dieRaise d fBurstEnergy d.subject
        [b.slot.zeroExtend 8]
    else s
  | none => s

def execLampCycleBoundary (d : Die) (m : StoreSample) (ready : Bool) (s : State) : Host.Outcome State Fault Refusal :=
  let x := s.die d
  if !x.powered then .next s
  else
    let ended := x.clock.cycle
    let c := x.clock.advance
    let s := s.until c.boundaryAt
    let n := c.cycle32
    let s := s.modDie d fun x => LampDie.account c.boundaryAt m { x with
      chans := (x.mapChans fun _ h => h.endCycle c.boundaryAt).chans, settling := false,
      mirror := { x.mirror with agrees := x.agrees },
      held := x.held.map fun h => { h with effect := some (h.effect.getD n) } }
    let s := (s.modDie d LampDie.cutBurst).burstBooks d ended
    let s := s.modDie d fun x => { x with clock := c }
    let s := if c.steppedCycle then
        s.modDie d fun x => x.mapChans fun _ h => { h with lightBlankUntil := max h.lightBlankUntil c.boundaryAt }
      else s
    let s := (List.finRange 12).foldl (fun t k =>
      t.dieCond d fOvercurrent (chanSubject d k) [] ((t.die d).chan k).latched) s
    let s := ((s.storeConds d).marginCycle d).checkSpent d
    .next (if ready then s.showCycle d else s.dieRaise d fLampCycle d.subject (be32 n))

/-! ### Overcurrent cut (R153) -/

/-- The sense voltage has stood above 115 mV for 2 µs: the gates go off for the rest of the cycle, in which no light window counts
on either die (Table 7.2, R193). -/
def execOvercurrentCut (d : Die) (c : Chan) (senseUv heldNs : Nat) (s : State) : Host.Outcome State Fault Refusal :=
  let x := s.die d
  if 115000 < senseUv && us 2 ≤ heldNs && x.driven c then
    let blank := fun h : Channel => { h with
      lightBlankUntil := max h.lightBlankUntil x.clock.advance.boundaryAt }
    .next ((s.modChan d c fun h => blank { h with cutNow := true }).modChan d.other c blank)
  else .next s

/-! ### Bursts at the die (R163, R170) -/

/-- The boundary BURST_CYCLE has come: the burst runs with the slot's steps as they now stand. -/
def execBurstStart (d : Die) (s : State) : Host.Outcome State Fault Refusal :=
  let x := s.die d
  match x.burst with
  | some b =>
    if x.powered && !b.running && !ahead32 b.start x.clock.cycle32 then
      .next ((s.modDie d fun x => { x with burst := some { b with running := true, steps := x.slots[b.slot.toNat] } }).showCycle d)
    else .next s
  | none => .next s

/-- One period of the slot has been shown. -/
def execBurstEnd (d : Die) (s : State) : Host.Outcome State Fault Refusal :=
  let x := s.die d
  match x.burst with
  | some b =>
    if x.powered && b.running && slotPeriod b.steps ≤ (x.clock.cycle32 - b.start).toNat then
      .next ((s.modDie d LampDie.endBurst).showCycle d)
    else .next s
  | none => .next s

/-! ### LAMP-SYNC (R167 to R169) -/

/-- The boundary at which the scene of a LAMP-SYNC applies, as a lamp-die command names it (R168, R175). -/
def State.sceneBoundary (s : State) (cycle : Word) : Word :=
  let n := if cycle + 2 = 0 then cycle + 3 else cycle + 2
  if ahead32 n s.cycle32 then n else skipZero (s.cycle32 + 1)

/-- The CD delivers a scene to both lamp dies (R168, R176). -/
def State.applyScene (sc : Byte) (cycle : Word) (s : State) : State :=
  let n := s.sceneBoundary cycle
  let s := s.modLd fun l => { l with scene := sc }
  if s.cd.running && !s.cd.frost then
    (s.sendCommand .cdLa .plain (cmdScene sc n)).sendCommand .cdLb .plain (cmdScene sc n)
  else s

/-- The die whose last DIE_HEALTH at the CD shows a driving MODE. -/
def ControlDie.driver (c : ControlDie) : Option Die :=
  let drives := fun l : List Byte => l ≠ [] && 3 ≤ (byteMode (byteAt l 1)).toNat && (byteMode (byteAt l 1)).toNat ≤ 5
  if drives c.healthA then some .la else if drives c.healthB then some .lb else none

/-- The mask of a BURST: channels with BURST_EN that are required lit (R170). -/
def State.burstMask (s : State) : ChMask :=
  chMaskOf fun c => inMask s.cd.reqLit c && (s.cd.shadow.map[c.val]).burstEn && entryLights s.cd.shadow.map[c.val]

/-- A node takes a burst: BURST goes to the die that holds the grant (R169, R170). -/
def State.takeBurst (slot : BitVec 4) (start : Word) (i : Issuer) (s : State) : State :=
  match s.cd.driver with
  | some d => if s.cd.running && !s.cd.frost then s.sendCommand d.cdLink i (cmdBurst slot start s.burstMask) else s
  | none => s

/-- A LAMP-SYNC of this node leaves, with or without a burst. -/
def State.originateSync (burst : Option (BitVec 4 × Word)) (sc : Byte) (s : State) : State :=
  let q := s.ld.seqLampSync + 1
  let b : LampSyncP :=
    { cycle := s.cycle32, scene := sc, burstValid := burst.isSome, burstSlot := (burst.map (·.1)).getD 0,
      burstCycle := (burst.map (·.2)).getD 0 }
  (s.modLd fun l => { l with seqLampSync := q }).originate ⟨s.hdr 0 q, .lampSync b⟩

/-- Position 1 originates every 8 cycles, and within a cycle of a change of its scene (R167). -/
def execLampSyncSend (s : State) : Host.Outcome State Fault Refusal :=
  if !s.ldRuns || s.position ≠ 1 || s.cd.frost then .next s
  else
    let sc := s.ld.sceneHost.getD s.ld.scene
    let s := if sc = s.ld.sceneSent then s.until (s.ld.sceneAt + 8 * cycleNs) else s
    let s := s.modLd fun l => { l with sceneSent := sc, sceneAt := s.now }
    .next ((s.originateSync none sc).applyScene sc s.cycle32)

def execLampSyncReceived (p : Port) (h : LineHdr) (l : LampSyncP) (s : State) : Host.Outcome State Fault Refusal :=
  .next ((s.tookArrival p ⟨h, .lampSync l⟩).gate p true h (fun s =>
    let f : LineFrame := ⟨h, .lampSync l⟩
    let k := floodKey f s.now
    if s.seenKey k then s
    else
      let s := ((s.addKey k).forwardFlood p f).applyScene l.scene l.cycle
      if l.burstValid && ahead32 l.burstCycle s.cycle32 then s.takeBurst l.burstSlot l.burstCycle .plain else s))

end Sys2Proof.Machine
end

