-- ==== Sys2Proof/Machine/Proving.lean ====
section
/-! DEFINITION. The rows of chapter 07: current samples (R182 to R184), light windows (R186 to R188), calibration (R191, R192),
the light view (R198), and the proving REPORT (R199). -/

namespace Sys2Proof.Machine

/-! ### Proof completed (Table 7.1, R197) -/

/-- Light has been proven in this on phase, or does not apply, or the view held it proven before a switch-over. -/
def LampDie.lightDone (x : LampDie) (c : Chan) : Bool :=
  let h := x.chan c
  h.lightProven || (x.ownRef c).isNone || (h.proof = .qualifying && inMask x.gapViewProven c)

/-- A channel whose proofs are complete becomes PROVEN; a DARK one sends CLEARED. -/
def State.tryProve (d : Die) (c : Chan) (s : State) : State :=
  let x := s.die d
  let h := x.chan c
  if h.curProven && x.lightDone c then
    match h.proof with
    | .qualifying =>
      (((s.modDie d (LampDie.spendView c)).modChan d c fun h => { h with proof := .proven }).updatePl d)
    | .dark => (s.clearDark d c .proven false).updatePl d
    | _ => s
  else s

/-! ### Current samples -/

/-- A sense voltage in µV below half of a level on the 4,095-step scale of 100 mV. -/
def belowHalf (uv level : Nat) : Bool := 2 * uv * 4095 < level * 100000

def State.sampleOn (d : Die) (c : Chan) (low : Bool) (s : State) : State :=
  let s := s.modChan d c fun h =>
    if low then { h with lowRun := min 16 (h.lowRun + 1), okRun := 0 }
    else { h with okRun := min 16 (h.okRun + 1), lowRun := 0, curProven := h.curProven || 15 ≤ h.okRun }
  let h := (s.die d).chan c
  if low then
    (if 16 ≤ h.lowRun && (h.proof = .qualifying || h.proof = .proven) then s.declareDark d c .current else s)
  else s.tryProve d c

/-- A sample in an off step or a required-dark channel (R184). -/
def State.sampleOff (d : Die) (c : Chan) (uv : Nat) (s : State) : State :=
  let h := (s.die d).chan c
  if h.setpoint = 0 || belowHalf uv h.setpoint then s.modChan d c fun h => { h with litRun := 0 }
  else
    let s := s.modChan d c fun h => { h with litRun := min 16 (h.litRun + 1) }
    if 15 ≤ h.litRun && !h.litRaised then
      (s.modChan d c fun h => { h with litRaised := true }).dieRaise d fLitWhileDark (chanSubject d c) []
    else s

def State.sampleChan (d : Die) (uvs : List Nat) (c : Chan) (s : State) : State :=
  let h := (s.die d).chan c
  let uv := uvs.getD c.val 0
  let s := if uv = 0 then s.modChan d c fun h => { h with wheel := false } else s
  if h.target = 0 then s.sampleOff d c uv
  else if s.now < h.curBlankUntil || (s.die d).gapBlank then s
  else s.sampleOn d c (belowHalf uv h.target)

def execCurrentSample (d : Die) (senseUv : List Nat) (s : State) : Host.Outcome State Fault Refusal :=
  let x := s.die d
  if x.powered && x.drives then
    let s := s.until (x.sampleAt + us 1)
    let s := s.modDie d fun x => { x with sampleAt := s.now }
    .next ((List.finRange 12).foldl (fun t c => t.sampleChan d senseUv c) s)
  else .next s

/-! ### Light windows -/

/-- A ÷ E of a window: E = A_ref × (TGT ÷ T_CAL) × (PILOT_DEPTH ÷ D_CAL) (R186). -/
def windowOf (a target depth : Nat) (r : LightRef) : WindowRec :=
  let num := a * r.tCal * r.dCal
  let den := r.aPa * target * depth
  { ratio := if den = 0 then 65535 else min 65535 (num * 1024 / den), low := num * 100 < 60 * den,
    ok := 70 * den ≤ num * 100 }

/-- The window lies in one on step at one target and outside every blank of its channel (R186, Table 7.2). -/
def Channel.windowValid (now : Nat) (h : Channel) : Bool := h.target ≠ 0 && !h.cutNow && h.lightBlankUntil + cycleNs ≤ now

/-- No blank of the whole die covers its windows: a gap of a switch-over, or a cycle that a step shortens or lengthens (R193). -/
def LampDie.windowsOpen (x : LampDie) : Bool := !x.gapBlank && x.clock.stepTo.isNone

/-- A window adds its amplitude to the run at its target; the runs at other targets stand (R191). -/
def addCal (target a : Nat) : List CalRun → List CalRun
  | [] => [⟨target, a, 1⟩]
  | r :: l => if r.target = target then ⟨target, r.sum + a, r.count + 1⟩ :: l else r :: addCal target a l

def Channel.pushWindow (w : Window) (h : Channel) : Channel := { h with win1 := w, win2 := h.win1 }

def Channel.keepRatio (r : Nat) (h : Channel) : Channel := { h with ratios := (r :: h.ratios).take 64 }

/-- A reference is measured over 64 valid windows at one target; below 5 nA it is not stored (R191). -/
def State.calibrate (d : Die) (c : Chan) (own : Bool) (a : Nat) (s : State) : State :=
  let x := s.die d
  let h := x.chan c
  let waits := match h.calFailedAt with | some t => decide (s.now < t + ms 1000) | none => false
  if x.cd.frost || waits then s
  else
    let runs := addCal h.target a h.cal
    match runs.find? fun r => 64 ≤ r.count with
    | none => s.modChan d c fun h => { h with cal := runs }
    | some r =>
      let mean := r.sum / 64
      let e := x.entry c
      let s := s.modChan d c fun h => { h with cal := [] }
      if mean < 5000 then
        (s.modChan d c fun h => { h with calFailedAt := some s.now }).dieRaise d fCalFailed (chanSubject d c)
          (be32 (BitVec.ofNat 32 mean))
      else
        let r : LightRef := ⟨mean, h.target, e.pilotDepth.toNat, refCrc e⟩
        (s.modChan d c fun h => if own then { h with own := some r } else { h with cross := some r }).checkUncal d c

def bothLow (a : WindowRec) (b : Window) : Bool := a.low && match b with | some w => w.low | none => false

def bothOk (a : WindowRec) (b : Window) : Bool := a.ok && match b with | some w => w.ok | none => false

/-- A valid window of the driver (R187, R188). -/
def State.ownWindow (d : Die) (c : Chan) (a : Nat) (s : State) : State :=
  let x := s.die d
  let h := x.chan c
  match x.ownRef c with
  | some r =>
    let w := windowOf a h.target (x.entry c).pilotDepth.toNat r
    let s := s.modChan d c fun h => (h.pushWindow (some w)).keepRatio w.ratio
    if bothLow w h.win2 && (h.proof = .qualifying || h.proof = .proven) then s.declareDark d c .light
    else if bothOk w h.win2 then (s.modChan d c fun h => { h with lightProven := true }).tryProve d c
    else s
  | none =>
    let s := s.modChan d c (Channel.pushWindow none)
    if h.curProven then s.calibrate d c true a else s

/-- What the driver's proof says of a channel, as the standby's complete frame gives it. -/
def LampDie.frameProven (x : LampDie) (c : Chan) : Bool :=
  match x.mirror.complete with | some m => inMask m.provenMask c | none => false

def LampDie.frameDark (x : LampDie) (c : Chan) : Bool :=
  match x.mirror.complete with | some m => inMask m.darkMask c | none => false

/-- The run of valid windows in which view and proof disagree, or agree (R198). -/
def State.viewRun (d : Die) (c : Chan) (differ : Bool) (s : State) : State :=
  let s := s.modChan d c fun h =>
    if differ then { h with viewDiffer := h.viewDiffer + 1, viewAgree := 0 }
    else { h with viewAgree := h.viewAgree + 1, viewDiffer := 0 }
  if 64 ≤ ((s.die d).chan c).viewAgree then s.dieCond d fLightView (chanSubject d c) [] false else s

/-- A valid window of the standby's light view (R180, R198): two windows 125 µs apart make it proven or dark (R187, R188), and it
stays as it is until two others say otherwise. -/
def State.viewWindow (d : Die) (c : Chan) (a : Nat) (s : State) : State :=
  let x := s.die d
  let h := x.chan c
  match x.crossRef c with
  | some r =>
    let w := windowOf a h.target (x.entry c).pilotDepth.toNat r
    let low := bothLow w h.win2
    let lit := bothOk w h.win2
    let dark := low || (h.viewDark && !lit)
    let proven := lit || (h.viewProven && !low)
    let s := s.modChan d c fun h => ({ h with
      viewDark := dark, viewDarkAt := if dark && !h.viewDark then s.now else h.viewDarkAt,
      viewProven := proven }.pushWindow (some w)).keepRatio w.ratio
    s.viewRun d c ((x.frameProven c && w.low) || (x.frameDark c && w.ok))
  | none =>
    let s := s.modChan d c fun h => { h with viewDark := false, viewProven := false }.pushWindow none
    let s := if x.frameProven c then s.calibrate d c false a else s
    s.viewRun d c (x.frameProven c)

def State.windowChan (d : Die) (mid : Bool) (photo : List (List Int)) (c : Chan) (s : State) : State :=
  let x := s.die d
  let a := x.lightOf c mid photo
  if x.windowsOpen && (x.chan c).windowValid s.now then (if x.drives then s.ownWindow d c a else s.viewWindow d c a)
  else s.modChan d c (Channel.pushWindow none)

/-- A window closes at every boundary and every mid-cycle point (R186); a stepped cycle ends where R166 puts its boundary. `photo`
holds, for each channel, the mean photocurrent in pA over the sixteen quarter pilot periods of the window, after the front end. -/
def execLightWindowClose (d : Die) (photo : List (List Int)) (s : State) : Host.Outcome State Fault Refusal :=
  let x := s.die d
  if x.powered then
    let m := x.clock.boundaryAt + 62500
    let mid : Bool := s.now < m
    let s := s.until (if mid then m else x.clock.advance.boundaryAt)
    .next ((List.finRange 12).foldl (fun t c => t.windowChan d mid photo c) s)
  else .next s

/-! ### Faults of the light view and the margin -/

def execLightViewDisagrees (d : Die) (c : Chan) (s : State) : Host.Outcome State Fault Refusal :=
  let x := s.die d
  if x.powered && 64 ≤ (x.chan c).viewDiffer then .next (s.dieCond d fLightView (chanSubject d c) [] true) else .next s

def execLightMarginLow (d : Die) (s : State) : Host.Outcome State Fault Refusal :=
  let x := s.die d
  if x.powered && x.margin < 768 && 1024 ≤ x.marginLow && !x.conds.contains (fMarginLow.code, d.subject) then
    .next ((s.dieCond d fMarginLow d.subject (be16 (BitVec.ofNat 16 x.margin)) true).modDie d fun x =>
      { x with marginLow := 0 })
  else .next s

/-! ### The proving REPORT (Table 7.4) -/

def State.provingBytes (s : State) (d : Die) : List Byte :=
  let x := s.die d
  let drv := x.drives
  let proven := if drv then x.maskOf .proven else chMaskOf fun c => (x.chan c).viewProven
  let dark := if drv then x.darkMask else chMaskOf fun c => (x.chan c).viewDark
  let cal := chMaskOf fun c => if drv then (x.ownRef c).isSome else (x.crossRef c).isSome
  let lightOn := chMaskOf fun c => x.duty c && inMask cal c
  [0x10, flag drv 7 ||| flag x.plClosed 6] ++ be16 (maskHalf proven) ++ be16 (maskHalf dark) ++ be16 (maskHalf lightOn)
    ++ be16 (maskHalf cal) ++ be16 (BitVec.ofNat 16 x.margin) ++ be32 x.clock.cycle32

def LampDie.proofKey (x : LampDie) : ProofKey :=
  if x.drives then ⟨true, x.maskOf .proven, x.darkMask, x.maskOf .qualifying⟩
  else ⟨false, chMaskOf fun c => (x.chan c).viewProven, chMaskOf fun c => (x.chan c).viewDark, 0⟩

/-- At every change of a proof state or of the view, and otherwise every 64 cycles (R199). -/
def execProvingReportSend (d : Die) (s : State) : Host.Outcome State Fault Refusal :=
  let x := s.die d
  if x.powered then
    let s := if x.provingSent = some x.proofKey then s.until (x.provingAt + 64 * cycleNs) else s
    .next ((s.sendLink d.cdLink .second (.report (s.provingBytes d))).modDie d fun x => { x with
      provingSent := some x.proofKey, provingAt := s.now })
  else .next s

/-- A REPORT arrives at the CD; one of another KIND or length is discarded and counted in RXERR (R43, R199). -/
def State.cdReport (l : FLink) (kind : Byte) (payload : List Byte) (k : State → State) (s : State) :
    Host.Outcome State Fault Refusal :=
  if !(s.lend l .first).running then .next s
  else if payload.length ≠ 16 || byteAt payload 0 ≠ kind then (.next (s.discardFrame l .first))
  else .next (k (s.heard l .first))

def execProvingReportReceived (d : Die) (_seq : Byte) (payload : List Byte) (s : State) :
    Host.Outcome State Fault Refusal :=
  s.cdReport d.cdLink 0x10 payload fun s => s.modCd fun c =>
    match d with
    | .la => { c with provingA := payload }
    | .lb => { c with provingB := payload }

end Sys2Proof.Machine
end

