-- ==== Sys2Proof/Machine/Referee.lean ====
section
/-! DEFINITION. The rows of chapter 08 and the level-link rows of chapter 02: REF's start, grant, interlock, kill and
commands (R207 to R222, R229, R231), the lamp dies' grants, takeovers and health (R208 to R213, R220, R225, R230) as the single failures of Table 8.9 call for them (R232), the
mirror (R223, R224), and hold and fallback (R227). -/

namespace Sys2Proof.Machine

/-! ### REF's start (R214) -/

/-- At its reset REF sends nothing on GRANT and KILL and has read no DRIVE yet. -/
def State.clearRefLinks (s : State) : State :=
  let quiet := fun l t => State.drive l none t
  let unread := fun l t => State.modLevel l (fun x => { x with taken := false, silent := true, silentAt := s.now, raised := false }) t
  let fresh := fun l e t => State.modEnd l e (fun _ => LinkEnd.fresh true s.now) t
  let s := quiet .killB (quiet .killA (quiet .grantB (quiet .grantA s)))
  let s := unread .driveB (unread .driveA s)
  fresh .cdRef .second (fresh .refLb .first (fresh .refLa .first s))

def execRefReset (s : State) : Host.Outcome State Fault Refusal :=
  .next (({ s with ref := Ref.fresh s.now }.clearRefLinks).refRaise fRefReset 0x42 [])

/-- REF adopts a die that drives, under ADOPT, or under ORPHAN where its DIE_HEALTH said so (R230). -/
def State.adopt (d : Die) (s : State) : State :=
  let cause := if (s.ref.view d).orphan then causeOrphan else causeAdopt
  let s := (s.drive d.grantLink (some true)).drive d.other.grantLink (some false)
  (s.modRef fun r => { r with grant := .granted d, stepAt := s.now }).noteSwitch cause none (some d) false false

def execRefStartDecision (s : State) : Host.Outcome State Fault Refusal :=
  if s.ref.grant ≠ .boot then .next s
  else
    let s := s.until (s.ref.bootAt + us 8)
    let s := (s.drive .killA (some false)).drive .killB (some false)
    let p := s.refPreferred
    match s.refDriving .la, s.refDriving .lb with
    | true, false => .next (s.adopt .la).refEvent
    | false, true => .next (s.adopt .lb).refEvent
    | true, true => .next ((s.drive p.grantLink (some true)).beginSwitch p.other (some p) causeAdopt)
    | false, false =>
      .next ((((s.drive .grantA (some false)).drive .grantB (some false)).enterNoGrant).tryGrant)

/-! ### NO_GRANT (R215, R229) -/

def execNoGrantTimeout (s : State) : Host.Outcome State Fault Refusal :=
  let q := s.refPreferred.other
  match (s.ref.view q).readySince with
  | some t =>
    if s.ref.grant = .noGrant && s.mayGrant q && !s.mayGrant s.refPreferred then .next (s.until (t + ms 20)).tryGrant
    else .next s
  | none => .next s

def execNoGrantRetry (s : State) : Host.Outcome State Fault Refusal :=
  if s.ref.grant = .noGrant then
    let s := s.until (s.ref.stepAt + ms 10)
    let s := (s.modRef fun r => { r with stepAt := s.now }).tryGrant
    if s.ref.grant = .noGrant then
      .next ((s.modRef fun r => { r with noDriver := true }).refRaise fNoDriver noSubject [])
    else .next s
  else .next s

/-! ### The interlock's timers (R217, R216) -/

def execClearTimeout (s : State) : Host.Outcome State Fault Refusal :=
  match s.ref.grant with
  | .withdrawing x y c false n =>
    let s := s.until (s.ref.stepAt + us 4)
    .next ((s.modRef fun r => { r with grant := .withdrawing x y c true n }).killStuck x)
  | _ => .next s

/-- The die that was sent Granted may read Driving already (R214, both dies driving). -/
def State.settle (s : State) : State :=
  match s.ref.grant with
  | .granting _ y _ _ _ => if s.refDriving y then s.grantDone else s
  | _ => s

def execKillSettled (s : State) : Host.Outcome State Fault Refusal :=
  match s.ref.grant with
  | .withdrawing _ _ _ true _ => .next ((s.until (s.ref.stepAt + us 20)).dieIsClear).settle
  | _ => .next s

/-- The incoming die did not start; the outgoing die is granted back where it was left for a soft cause, is clear without
a kill and is switchable. -/
def execDriveStartTimeout (s : State) : Host.Outcome State Fault Refusal :=
  match s.ref.grant with
  | .granting src y c k _ =>
    let s := s.until (s.ref.stepAt + us 10)
    let back := match src with
      | some x => if softCause c && !k && s.switchable x then some x else none
      | none => none
    .next ((if back.isNone then s.lastResortRelease y.other else s).beginSwitch y back causeDropped)
  | _ => .next s

/-- Die d is the one REF waits for to be clear: once killed it is clear 20.0 µs after the kill, whatever its DRIVE reads. -/
def GrantState.waitsClear (g : GrantState) (d : Die) : Bool :=
  match g with | .withdrawing x _ _ false _ => decide (x = d) | _ => false

/-- Die d is the one REF waits for to drive. -/
def GrantState.waitsDrive (g : GrantState) (d : Die) : Bool :=
  match g with | .granting _ y _ _ _ => decide (y = d) | _ => false

/-- A state that the source does not send is not taken, whatever words the line makes of it (log entry 66). -/
def State.levelTaken (s : State) (l : LLink) (v : Bool) (words : List (BitVec 12)) : Bool :=
  (s.lv l).sent = some v && s.wordsTake l v words

def execDriveStateTaken (d : Die) (driving : Bool) (words : List (BitVec 12)) (s : State) :
    Host.Outcome State Fault Refusal :=
  if s.levelTaken d.driveLink driving words then
    let s := s.takeLevel d.driveLink driving words
    if driving && s.ref.grant.waitsDrive d then .next s.grantDone
    else if !driving && s.ref.grant.waitsClear d then .next s.dieIsClear.settle
    else .next s.refEvent
  else .next (s.hearWords d.driveLink words)

/-! ### Taking over (R197, R220, R225, R250) -/

/-- A mirror frame ends 66.5 µs after it starts (Table 8.6), so this many of the standby's cycles have begun since the
boundary it describes. -/
def mirrorNs : Nat := frameNs .mirror 256

def State.cyclesSince (s : State) (d : Die) : Nat := (s.now - (s.die d).mirror.completeAt + mirrorNs) / cycleNs

/-- With the time link lost the die takes the cycle number of its frame, counted on (R225). -/
def State.takeCycle (d : Die) (m : MirrorP) (s : State) : State :=
  let n := m.cycle + BitVec.ofNat 32 (s.cyclesSince d)
  if (s.lend d.timeLink .second).lost && (s.die d).clock.cycle32 ≠ n then
    s.modDie d fun x => { x with clock := { x.clock with
      boundaryTT := m.tt + BitVec.ofNat 64 (s.cyclesSince d * cycleNs) } }
  else s

/-- The channels DARK in the frame start DARK with their kind; every other one starts afresh. -/
def LampDie.takeProof (m : MirrorP) (x : LampDie) : LampDie :=
  x.mapChans fun c h =>
    if inMask m.darkMask c then { h with proof := .dark, kind := kindOf ((byteAt m.ch c.val).extractLsb' 4 2) }
    else { h with proof := .offDuty, kind := .none }

/-- A burst of the frame is continued where the rest of it is admitted, on this die's own store and steps (R225, R244). Else
the masked channels take their own pattern at the first boundary after the gap. -/
def State.takeBurstOver (d : Die) (m : MirrorP) (s : State) : State :=
  if m.burstRunning || m.burstWaiting then
    let x := s.die d
    let steps := x.slots[m.burstSlot.toNat]
    let begun := !ahead32 m.burstCycle x.clock.cycle32
    let gone := if begun then (x.clock.cycle32 - m.burstCycle).toNat else 0
    let first := if begun then x.clock.cycle else x.clock.cycle + (m.burstCycle - x.clock.cycle32).toNat
    let b : Burst := ⟨m.burstSlot, m.burstMask, m.burstCycle, begun, steps, false⟩
    let need := x.burstNeed b first (slotPeriod steps - gone)
    if slotPeriod steps ≤ gone then s.modDie d LampDie.endBurst
    else if x.store.feedOk && need + x.eRes ≤ x.store.eAvail then
      s.modDie d fun x => { x with burst := some b, store := { x.store with eCommit := need } }
    else
      (s.modDie d fun x => { x with
        burst := if begun then some { b with cutDue := true } else none,
        store := { x.store with eCommit := 0 } }).dieRaise d fBurstSwitch d.subject [m.burstSlot.zeroExtend 8]
  else s

/-- Hold and fallback of the frame go on (R225). -/
def State.takeHold (d : Die) (m : MirrorP) (s : State) : State :=
  if m.fallback then
    s.modDie d fun x =>
      let y := x.takeFallback
      { y with cd := { y.cd with leaveFrom := if x.cd.lost then x.cd.leaveFrom else x.heldCount } }
  else if m.holding then
    let left := m.holdLeft.toNat - s.cyclesSince d
    s.modDie d fun x => { x with cd := { x.cd with
      holding := true, holdUntil := s.now + left * cycleNs,
      leaveFrom := if x.cd.lost then x.cd.leaveFrom else x.heldCount } }
  else s

/-- The grant comes from a die that was driving (R225). -/
def State.fromDriver (s : State) : Bool :=
  match s.ref.grant with | .granting (some _) _ _ _ _ => true | _ => false

/-- The state with which an incoming die starts to drive, before it opens its gates. -/
def State.takeover (d : Die) (s : State) : State :=
  let x := s.die d
  let s := s.modDie d fun x => { x.mapChans fun _ h => { h with cal := [] } with
    gapViewProven := chMaskOf fun c => x.duty c && (x.chan c).viewProven }
  match x.mirror.complete with
    | some m =>
      let s := (s.takeCycle d m).modDie d fun x => { x.takeProof m with alarmSeq := m.alarmSeq + 16 }
      (s.takeBurstOver d m).takeHold d m
    | none =>
      let s := s.modDie d fun x => { x with alarmSeq := x.alarmSeq + 16 }
      if s.fromDriver then s.dieRaise d fNoMirrorTake d.subject [] else s

/-- In LAST the last-light set is shown from the first gate edge (R250). -/
def Store.lastNow (boundaryAt : Nat) (st : Store) : Store :=
  if st.inLast then { st with lastAt := min st.lastAt boundaryAt } else st

/-- The die starts to drive: it takes over, opens its gates, which ends the gap, and shows the present cycle. -/
def State.startDriving (d : Die) (s : State) : State :=
  (((s.takeover d).modDie d fun x => { x with store := x.store.lastNow x.clock.boundaryAt }).openGates d).showCycle d

/-! ### GRANT, KILL and boot at a lamp die (R208 to R210, R218) -/

/-- A state is new when it differs from the latched one; an orphan driver takes its grant without a new start (R230). -/
def execGrantTaken (d : Die) (words : List (BitVec 12)) (s : State) : Host.Outcome State Fault Refusal :=
  let x := s.die d
  if !x.powered then .next s
  else if s.levelTaken d.grantLink true words && (!x.grant || x.orphan || (s.lv d.grantLink).silent) then
    let s := s.takeLevel d.grantLink true words
    if x.grant then .next (s.modDie d fun x => { x with orphan := false })
    else .next ((s.modDie d fun x => { x with grant := true, orphan := false }).startDriving d)
  else .next (s.hearWords d.grantLink words)

def execWithdrawnTaken (d : Die) (words : List (BitVec 12)) (s : State) : Host.Outcome State Fault Refusal :=
  let x := s.die d
  if !x.powered then .next s
  else if s.levelTaken d.grantLink false words && (x.grant || (s.lv d.grantLink).silent) then
    let s := s.takeLevel d.grantLink false words
    if x.grant then
      let s := ((s.modDie d fun x => { x.standDown with
        grant := false, burst := none, store := { x.store with eCommit := 0 } }).closeGates d).beginGap
      .next (if x.store.phase = .finish && !x.shutdown then s.beginShutdown d else s)
    else .next s
  else .next (s.hearWords d.grantLink words)

/-- A driver that is killed leaves a gap as one whose grant is withdrawn does. -/
def execKillAssertedTaken (d : Die) (words : List (BitVec 12)) (s : State) : Host.Outcome State Fault Refusal :=
  let x := s.die d
  if !x.powered then .next s
  else if s.levelTaken d.killLink true words && (!x.killed || (s.lv d.killLink).silent) then
    let s := ((s.takeLevel d.killLink true words).modDie d fun x =>
      { x.standDown with killed := true, gateSupply := false }).closeGates d
    .next (if x.drives then s.beginGap else s)
  else .next (s.hearWords d.killLink words)

def execKillReleasedTaken (d : Die) (words : List (BitVec 12)) (s : State) : Host.Outcome State Fault Refusal :=
  let x := s.die d
  if s.levelTaken d.killLink false words && (x.killed || (s.lv d.killLink).silent) then
    let s := s.takeLevel d.killLink false words
    .next (if x.killed then s.endKill d else s)
  else .next (if x.powered then s.hearWords d.killLink words else s)

/-- What the self-check of a die found (R210): its lamp clock outside ±2%, its gate-drive supply outside its limits while it is
not killed, or its proof front end failing its test. -/
def LampDie.selfChecked (clockBad supplyBad frontBad : Bool) (x : LampDie) : LampDie :=
  let supply := supplyBad && !x.killed
  { x with clockBad := x.clockBad || clockBad, supplyBad := x.supplyBad || supply,
           failed := x.failed || clockBad || supply || frontBad }

/-- The die has read its record, and knows which words of its fuse copy it cannot correct (R283). -/
def LampDie.readFuses (badWords : ChMask) (badHold : Bool) (x : LampDie) : LampDie :=
  let y := { x with fuseBad := badWords, holdBad := badHold }
  if y.cd.fallback then { y with reqLit := y.fallbackMask } else y

/-- Gates that open here start an on step like any others, with its blanks (R193). -/
def execDieBootEnd (d : Die) (clockBad supplyBad frontBad : Bool) (badWords : ChMask) (badHold : Bool) (s : State) :
    Host.Outcome State Fault Refusal :=
  let x := s.die d
  if x.powered && !x.bootDone then
    let s := s.modDie d fun x => { (x.readFuses badWords badHold).selfChecked clockBad supplyBad frontBad with bootDone := true }
    .next (if x.drives && !(s.die d).failed then (s.openGates d).showCycle d else s)
  else .next s

def execLampDieSelfCheckFailed (d : Die) (clockBad supplyBad frontBad : Bool) (s : State) :
    Host.Outcome State Fault Refusal :=
  if (s.die d).powered && (s.die d).bootDone then .next (s.modDie d (LampDie.selfChecked clockBad supplyBad frontBad))
  else .next s

/-! ### DIE_HEALTH (R213, R216, R222, R230) -/

/-- At every change of the STATE byte or the DARK mask, and otherwise every 8 cycles of the die (R213). -/
def execDieHealthSend (d : Die) (s : State) : Host.Outcome State Fault Refusal :=
  let x := s.die d
  if !x.powered then .next s
  else if x.healthSent ≠ some (s.healthKey d) then .next (s.sendHealth d)
  else .next ((s.until (x.healthAt + 8 * cycleNs)).sendHealth d)

/-- The runs of reports that show a channel DARK, and when each began (R222). -/
def RefView.dark1 (now : Nat) (dark : ChMask) (v : RefView) : RefView :=
  { v with
    dark := dark,
    darkRuns := (List.range 12).map fun c => if dark.getLsbD c then min 8 (v.darkRuns.getD c 0 + 1) else 0,
    darkSince := (List.range 12).map fun c => if v.darkRuns.getD c 0 = 0 then now else v.darkSince.getD c 0 }

/-- "die failed" and "standby not ready" as the CD finds them in the last DIE_HEALTH (Table 8.9). -/
def State.healthConds (d : Die) (st : Byte) (s : State) : State :=
  let m := byteMode st
  let cond := fun (f : FaultDef) (holds clears : Bool) (t : State) =>
    if holds && !t.condOpen f.code d.subject then t.cdRaise f d.subject [st]
    else if clears then t.cdClear f d.subject else t
  cond fStandby (m = 2 || m = 6 || m = 7 || m = 8) (m = 1 || m = 3 || m = 4 || m = 5) (cond fDieFailed (m = 7) (m ≠ 7) s)

def ControlDie.health (c : ControlDie) : Die → List Byte | .la => c.healthA | .lb => c.healthB

def State.healthAtCd (d : Die) (payload : List Byte) (s : State) : State :=
  let was := bitOf (byteAt (s.cd.health d) 9) 7
  let s := s.modCd fun c =>
    match d with
    | .la => { c with healthA := payload }
    | .lb => { c with healthB := payload }
  if !s.cd.running then s
  else
    let s := s.healthConds d (byteAt payload 1)
    if bitOf (byteAt payload 9) 7 && !was then
      s.cdRaise fSwitchOver noSubject [causeOrphan, d.other.code, d.code, 0]
    else s

def execDieHealthReceived (d : Die) (atRef : Bool) (_seq : Byte) (payload : List Byte) (s : State) :
    Host.Outcome State Fault Refusal :=
  let st := byteAt payload 1
  if !atRef then s.cdReport d.cdLink 0x21 payload (State.healthAtCd d payload)
  else if !(s.lend d.refLink .first).running then .next s
  else if payload.length ≠ 16 || byteAt payload 0 ≠ 0x21 then (.next (s.discardFrame d.refLink .first))
  else
    let s := (s.heard d.refLink .first).modView d fun v =>
      { v.dark1 s.now ((half payload 4).extractLsb' 0 12) with orphan := bitOf (byteAt payload 9) 7 }
    .next ((s.refSees d st).refEvent)

/-! ### The mirror (R223, R224, R37) -/

def State.mirroring (s : State) : Option Die :=
  if s.la.powered && s.la.drives then some .la else if s.lb.powered && s.lb.drives then some .lb else none

/-- One frame for each boundary of the driver's lamp cycle (R223). -/
def execMirrorSend (s : State) : Host.Outcome State Fault Refusal :=
  match s.mirroring with
  | some d =>
    let m := s.mirrorOf d
    if ((s.die d).mirror.sent.map MirrorP.cycle) = some m.cycle then .next s
    else .next ((s.sendLink .mirror d.mirrorEnd (.mirror m)).modDie d fun x => { x with
      mirror := { x.mirror with sent := some m } })
  | none => .next s

/-- A frame is compared once: the map and the slots of a die change only at its boundaries, after the comparison there (R178).
The frame is the first, or newer than the complete one. -/
def LampDie.newerFrame (x : LampDie) (m : MirrorP) : Bool :=
  match x.mirror.complete with | some c => ahead32 m.cycle c.cycle | none => true

def State.takeFrame (d : Die) (m : MirrorP) (s : State) : State :=
  let x := s.die d
  let same := m.mapCrc = x.mapCrc && m.slotCrc = x.slotCrc
  let off : Int := (m.tt.toNat + mirrorNs : Nat) - ((s.dieTime d).toNat : Int)
  let s := s.modDie d fun x => { x with
    mirror := { x.mirror with complete := some m, completeAt := s.now, differ := if same then 0 else x.mirror.differ + 1 },
    clock := if x.clock.source = .freeRunning then x.clock.meet off false .mirror else x.clock }
  if same then s.dieCond d fMirrorDisagrees d.subject [] false else s

def execMirrorReceived (d : Die) (m : MirrorP) (s : State) : Host.Outcome State Fault Refusal :=
  let x := s.die d
  if x.powered && (s.lend .mirror d.mirrorEnd).running then
    let s := s.heard .mirror d.mirrorEnd
    .next (if !x.drives && m.version = 1 && x.newerFrame m then s.takeFrame d m else s)
  else .next s

/-- The standby's boundary has no frame 68.5 µs later. -/
def execMirrorFrameMissed (d : Die) (s : State) : Host.Outcome State Fault Refusal :=
  let x := s.die d
  let has := match x.mirror.complete with | some m => m.cycle = x.clock.cycle32 | none => false
  if x.powered && !x.drives && !has then
    .next ((s.until (x.clock.boundaryAt + 68500)).dieRaise d fMirrorMissed d.subject (be32 x.clock.cycle32))
  else .next s

def execMirrorDisagrees (d : Die) (s : State) : Host.Outcome State Fault Refusal :=
  let x := s.die d
  if x.powered && 8 ≤ x.mirror.differ && !x.conds.contains (fMirrorDisagrees.code, d.subject) then
    .next (s.dieCond d fMirrorDisagrees d.subject [] true)
  else .next s

/-! ### Hold and fallback (R227) -/

def execHoldExpiry (d : Die) (s : State) : Host.Outcome State Fault Refusal :=
  let x := s.die d
  if x.powered && x.cd.holding && !x.cd.fallbackDue then
    .next ((s.until x.cd.holdUntil).modDie d fun x => { x with cd := { x.cd with fallbackDue := true } })
  else .next s

def execFallbackEntry (d : Die) (s : State) : Host.Outcome State Fault Refusal :=
  let x := s.die d
  if x.powered && x.cd.fallbackDue && x.cd.holdUntil ≤ x.clock.boundaryAt then
    .next ((s.modDie d LampDie.takeFallback).showCycle d)
  else .next s

/-! ### Orphan takeover (R230) -/

/-- The required channels that the light view can speak for. -/
def LampDie.viewed (x : LampDie) (c : Chan) : Bool := x.required c && (x.crossRef c).isSome

def LampDie.allViewDark (x : LampDie) : Bool :=
  (List.finRange 12).all (fun c => !x.viewed c || (x.chan c).viewDark) && (List.finRange 12).any x.viewed

/-- The moment from which all of R230's conditions have held. -/
def State.orphanSince (s : State) (d : Die) : Nat :=
  (List.finRange 12).foldl (fun a c => if (s.die d).viewed c then max a ((s.die d).chan c).viewDarkAt else a)
    (max (s.lv d.grantLink).silentAt (max (s.lend d.refLink .second).lostAt (s.lend .mirror d.mirrorEnd).lostAt))

def State.orphaned (s : State) (d : Die) : Bool :=
  let x := s.die d
  x.powered && !x.grant && !x.killed && x.bootDone && (s.lv d.grantLink).silent && (s.lend d.refLink .second).lost
    && (s.lend .mirror d.mirrorEnd).lost && x.allViewDark

def execOrphanTakeover (d : Die) (s : State) : Host.Outcome State Fault Refusal :=
  if s.orphaned d then
    let s := s.until (s.orphanSince d + ms 10)
    .next (((s.modDie d fun x => { x with grant := true, orphan := true }).startDriving d).sendHealth d)
  else .next s

/-! ### REF commands (R231, Table 8.5) -/

def resNotReady : Byte := 6
def resNotStandby : Byte := 7

def State.refCommand (seq : Byte) (run : State → State × List Byte) (s : State) : Host.Outcome State Fault Refusal :=
  if (s.lend .cdRef .second).running then .next ((s.heard .cdRef .second).serveCommand .cdRef seq run) else .next s

def execRefConfig (seq : Byte) (policy : Byte) (s : State) : Host.Outcome State Fault Refusal :=
  s.refCommand seq fun s =>
    ((s.modRef fun r => { r with prefB := bitOf policy 7, darkSwitch := bitOf policy 6 }).refEvent, [0x50, resOk])

/-- Bytes 2 to 19 of the REF_STATUS answer. -/
def State.refStatusBytes (s : State) : List Byte :=
  let r := s.ref
  [r.state,
   flag ((s.lv .grantA).sent = some true) 7 ||| flag ((s.lv .grantB).sent = some true) 6 ||| flag (s.refDriving .la) 5
     ||| flag (s.refDriving .lb) 4 ||| flag r.killA 3 ||| flag r.killB 2 ||| flag (s.lv .driveA).silent 1
     ||| flag (s.lv .driveB).silent 0]
  ++ be16 (maskHalf r.pathBadA) ++ be16 (maskHalf r.pathBadB) ++ be32 r.switchovers ++ [r.lastCause, 0]
  ++ be32 r.lastSwitchCycle ++ be16 r.invalidWords

def execRefStatus (seq : Byte) (s : State) : Host.Outcome State Fault Refusal :=
  s.refCommand seq fun s => (s, [0x51, resOk] ++ s.refStatusBytes)

/-- SWITCH to a die: its result and what it starts. -/
def State.switchTo (y : Die) (s : State) : State × Byte :=
  let ready := s.switchable y && (s.ref.view y).ready
  match s.ref.grant with
  | .granted x =>
    if x = y then (s, resOk) else if ready then (s.beginSwitch x (some y) causeCommand, resOk) else (s, resNotReady)
  | .noGrant => if ready then (s.grantTo none y causeCommand false false, resOk) else (s, resNotReady)
  | .boot => (s, resNotReady)
  | _ => (s, resBusy)

def execSwitch (seq : Byte) (die : Byte) (s : State) : Host.Outcome State Fault Refusal :=
  s.refCommand seq fun s =>
    match dieOfCode die with
    | some y => ((s.switchTo y).1, [0x52, (s.switchTo y).2])
    | none => (s, [0x52, resBadField])

def execRefKillRelease (seq : Byte) (die : Byte) (s : State) : Host.Outcome State Fault Refusal :=
  s.refCommand seq fun s =>
    match dieOfCode die with
    | some y =>
      if s.ref.kill y then
        (((s.releaseKill y).modRef fun r => { r with
          lastResort := if r.lastResort = some y then none else r.lastResort }.setResorted y false).refEvent, [0x53, resOk])
      else (s, [0x53, resBadField])
    | none => (s, [0x53, resBadField])

/-- Die d holds no grant and is not about to be granted. -/
def GrantState.isStandby (g : GrantState) (d : Die) : Bool :=
  match g with
  | .boot => false
  | .noGrant => true
  | .granted x => x ≠ d
  | .withdrawing x y _ _ _ => x ≠ d && y ≠ some d
  | .granting _ y _ _ _ => y ≠ d

def execRefKillTest (seq : Byte) (die : Byte) (s : State) : Host.Outcome State Fault Refusal :=
  s.refCommand seq fun s =>
    match dieOfCode die with
    | some y =>
      if !s.ref.grant.isStandby y || s.ref.kill y then (s, [0x54, resNotStandby])
      else if s.ref.killTest.isSome then (s, [0x54, resBusy])
      else
        (((s.modRef fun r => { r.setKill y true with
            killTest := some y, killTestAt := s.now, killTestSeen := false }).drive y.killLink (some true)), [0x54, resOk])
    | none => (s, [0x54, resBadField])

def execKillTestEnd (s : State) : Host.Outcome State Fault Refusal :=
  match s.ref.killTest with
  | some d =>
    let fail := !s.ref.killTestSeen
    let s := ((s.until (s.ref.killTestAt + ms 1)).releaseKill d).modRef fun r => { r with killTest := none }
    let s := s.sendLink .cdRef .second (.report (killTestBytes d fail))
    .next (if fail then s.refRaise fKillTest d.subject [] else s).refEvent
  | none => .next s

def execRefPathClear (seq : Byte) (die : Byte) (mask : ChMask) (s : State) : Host.Outcome State Fault Refusal :=
  s.refCommand seq fun s =>
    match dieOfCode die with
    | some d => ((s.modRef fun r => r.setPathBad d (r.pathBad d &&& ~~~ mask)).refEvent, [0x55, resOk])
    | none => (s, [0x55, resBadField])

/-! ### REF's REPORTs at the CD (R317) -/

def execSwitchReportReceived (_seq : Byte) (payload : List Byte) (s : State) : Host.Outcome State Fault Refusal :=
  s.cdReport .cdRef 0x20 payload fun s => (s.modCd fun c => { c with swReport := payload }).setEvent evDriveSwitched

def execKillTestReportReceived (_seq : Byte) (payload : List Byte) (s : State) : Host.Outcome State Fault Refusal :=
  s.cdReport .cdRef 0x22 payload fun s => (s.modCd fun c => { c with ktReport := payload }).setEvent evDriveSwitched

end Sys2Proof.Machine
end

