-- ==== Sys2Proof/Machine/StoreEnergy.lean ====
section
/-! DEFINITION. The rows of chapter 09 at the lamp dies: the charger (R235), the measurement of the store (R238, R239),
feed loss, ride-through and last-light (R246 to R248), the spent store and the final record (R249, R251), the return of a
feed (R252), and the release of a lamp die's own reset (R208, R218, R239). -/

namespace Sys2Proof.Machine

/-! ### The charger and the measurement -/

/-- The charge stage runs at CHG_LIMIT below 74.0 V and holds from 75.0 V; it is off without a feed and while the store is
bled. -/
def Store.charger (mv : Nat) (st : Store) : Store :=
  let st := { st with storeMv := mv }
  if !st.feedOk || st.bleeding then { st with charging := false }
  else if 75000 ≤ mv then { st with charging := false }
  else if mv < 74000 then { st with charging := true }
  else st

def execStoreChargeControl (d : Die) (storeMv : Nat) (s : State) : Host.Outcome State Fault Refusal :=
  if (s.die d).powered then .next (s.modDie d fun x => { x with
    store := (x.store.charger storeMv).watchLow s.now x.bursting }) else .next s

/-- A C_MEAS in µF that may be used (R239). -/
def cUsable (c : Nat) : Bool := 400 ≤ c && c ≤ 12000

/-- The ESR of a charge; one above 2,000 mΩ is not valid (R238). The first valid one is the ESR_INITIAL of the die's life. -/
def Store.esrMeasured (esr : Nat) (st : Store) : Store :=
  if esr ≤ 2000 then { st with esr := some esr, esrInitial := some (st.esrInitial.getD esr) } else st

/-- The C_MEAS of a charge, and C_INITIAL (R239). -/
def Store.cMeasured (c : Nat) (st : Store) : Store :=
  { st with cMeas := some c, cFresh := true, cInitial := some (st.cInitial.getD c) }

/-- The hold voltage is 75.0 V ± 0.5 V (R235); a charge that ends within that band has reached it. -/
def holdMv : Nat := 74500

def half16 (n : Nat) : List Byte := be16 (BitVec.ofNat 16 (min n 65535))

def State.storeWear (d : Die) (s : State) : State :=
  let st := (s.die d).store
  let c := st.cMeas.getD 0
  let ci := st.cInitial.getD 0
  let r := st.esr.getD 0
  let ri := st.esrInitial.getD 0
  (s.dieCond d fStoreLow d.subject (half16 c ++ half16 ci) (10 * c < 8 * ci)).dieCond d fEsrHigh d.subject
    (half16 r ++ half16 ri) (2 * ri < r)

/-- A charge from at most 70.0 V has reached the hold voltage. C_MEAS = Q ÷ (V_end − V_start); the ESR is the first step of
store voltage, in µV, over CHG_LIMIT, in whole mΩ. A C_MEAS that is out of range is not used; the ESR of that charge is. -/
def execStoreMeasureDone (d : Die) (chargeUc startMv endMv esrStepUv : Nat) (s : State) :
    Host.Outcome State Fault Refusal :=
  let st := (s.die d).store
  if (s.die d).powered && st.feedOk && st.charging && startMv ≤ 70000 && holdMv ≤ endMv then
    let c := chargeUc * 1000 / (endMv - startMv)
    let s := s.modStore d fun st => { st with charging := false, storeMv := endMv }.esrMeasured
      (esrStepUv / (st.policy.chgLimit * 50))
    if cUsable c then .next ((s.modStore d (Store.cMeasured c)).storeWear d)
    else .next ((s.storeWear d).dieRaise d fStoreRange d.subject (half16 c))
  else .next s

def execStoreBleedDone (d : Die) (s : State) : Host.Outcome State Fault Refusal :=
  if (s.die d).powered && (s.die d).store.bleeding then
    .next (s.modStore d fun st => { st with bleeding := false, charging := st.feedOk, storeMv := min st.storeMv 69000 })
  else .next s

/-- 1.0 s below 70.0 V without a break (R237). -/
def execStoreOverdrawn (d : Die) (s : State) : Host.Outcome State Fault Refusal :=
  let x := s.die d
  match x.store.underSince with
  | some t => if x.powered then .next ((s.until (t + ms 1000)).dieCond d fOverdrawn d.subject [] true) else .next s
  | none => .next s

/-! ### Loss of the feed (R245, R246) -/

/-- A running burst at the loss of the feed: the rest, the present cycle included, is computed again with P_CHG = 0, and the burst
ends at the next boundary unless E_AVAIL − E_RES covers it. -/
def State.burstUnfed (d : Die) (s : State) : State :=
  let x := s.die d
  match x.burst with
  | some b =>
    if b.running && !b.cutDue then
      let gone := (x.clock.cycle32 - b.start).toNat
      let rest := x.burstNeed b x.clock.cycle (slotPeriod b.steps - gone)
      if rest + x.eRes ≤ x.store.eAvail then s.modStore d fun st => { st with eCommit := rest }
      else (s.modDie d fun x => { x with burst := some { b with cutDue := true } }).dieRaise d fBurstFeed d.subject
        [b.slot.zeroExtend 8]
    else s
  | none => s

/-- The feed has stayed below 14.0 V for 200 µs without a break. -/
def feedGone (feedDv heldNs : Nat) : Bool := feedDv < 140 && us 200 ≤ heldNs

/-- The feed has stayed at 15.5 V or more for 2.0 ms without a break. -/
def feedBack (feedDv heldNs : Nat) : Bool := 155 ≤ feedDv && ms 2 ≤ heldNs

def execFeedLost (d : Die) (feedDv heldNs : Nat) (s : State) : Host.Outcome State Fault Refusal :=
  let x := s.die d
  if feedGone feedDv heldNs && x.powered && x.store.feedOk && x.store.phase = .fed then
    let s := s.modStore d fun st => { st with
      feedOk := false, feedDv := feedDv, charging := false, underSince := none, phase := .ride, phaseAt := s.now, ready := true }
    let s := s.dieCond d fFeedLost d.subject (half16 feedDv) true
    .next (((s.modDie d LampDie.dropWaiting).burstUnfed d).checkSpent d)
  else .next s

/-- An interruption shorter than 200 µs is only counted. -/
def execFeedDip (d : Die) (feedDv heldNs : Nat) (s : State) : Host.Outcome State Fault Refusal :=
  if feedDv < 140 && heldNs < us 200 && (s.die d).powered && (s.die d).store.feedOk then .next (s.modStore d fun st => { st with dips := st.dips + 1 })
  else .next s

/-! ### RIDE, LAST and the spent store (R246 to R249) -/

def execRideEnd (d : Die) (s : State) : Host.Outcome State Fault Refusal :=
  let x := s.die d
  if x.powered && x.store.phase = .ride then
    let s := if x.store.eAvail ≤ x.eRes then s else s.until (x.store.phaseAt + ms x.store.policy.rideMs)
    let s := (s.modStore d fun st => { st with phase := .last, phaseAt := s.now, lastAt := s.now }).updatePl d
    let empty := (List.finRange 12).all fun c => !(s.die d).lastSet c
    .next (if empty then s.spendStore d 2 else s)
  else .next s

/-- The first boundary in LAST has come. -/
def execLastLightEntry (d : Die) (s : State) : Host.Outcome State Fault Refusal :=
  let x := s.die d
  if x.powered && x.store.phase = .last && x.store.lastAt ≤ x.clock.boundaryAt then .next (s.showCycle d) else .next s

def execShutdownTimeout (d : Die) (s : State) : Host.Outcome State Fault Refusal :=
  let x := s.die d
  match x.store.spentAt with
  | some t =>
    if x.powered && x.store.phase = .finish && !x.shutdown then .next ((s.until (t + us 125)).beginShutdown d) else .next s
  | none => .next s

/-- The slot that does not hold the record in force (R251). -/
def Store.writeFinal (r : FinalRecord) (st : Store) : Store :=
  if st.finalNow = st.finalA && st.finalA.isSome then { st with finalB := some r } else { st with finalA := some r }

/-- A die that stops: its gates are low, its links silent. -/
def State.stopDie (d : Die) (s : State) : State :=
  let stop := fun l e t => State.modEnd l e (fun x => { x with running := false }) t
  let s := s.modDie d fun x => { x.standDown with
    powered := false, gate := false, grant := false, gateSupply := false, burst := none,
    store := { x.store with phase := .off, writing := none, charging := false, bleeding := false } }
  let s := s.drive d.driveLink none
  stop .mirror d.mirrorEnd (stop d.refLink .second (stop d.timeLink .second (stop d.cdLink .second s)))

def execFinalRecordWritten (d : Die) (s : State) : Host.Outcome State Fault Refusal :=
  let x := s.die d
  match x.store.writing with
  | some r => if x.powered then .next ((s.modStore d (Store.writeFinal r)).stopDie d) else .next s
  | none => .next s

/-! ### The feed returns (Table 9.7) -/

/-- FED again, with STORE_READY as R243 has it. -/
def State.fedAgain (d : Die) (s : State) : State :=
  (s.modDie d fun x =>
    let x := { x with store := { x.store with
      phase := .fed, phaseAt := s.now, charging := !x.store.bleeding, spentAt := none } }
    { x with store := { x.store with ready := x.storeReady } }).updatePl d

def execFeedPresent (d : Die) (feedDv heldNs : Nat) (s : State) : Host.Outcome State Fault Refusal :=
  let x := s.die d
  if feedBack feedDv heldNs && x.powered && !x.store.feedOk then
    let s := (s.modStore d fun st => { st with feedOk := true, feedDv := feedDv }).dieCond d fFeedLost d.subject [] false
    let lastMs := (x.store.spentAt.getD s.now - x.store.lastAt) / ms 1
    match x.store.phase with
    | .ride => .next ((s.fedAgain d).dieRaise d fFeedInterrupted d.subject [])
    | .last => .next ((s.fedAgain d).dieRaise d fLastLight d.subject (half16 lastMs))
    | .finish =>
      if x.store.writing.isSome then .next s
      else .next ((s.fedAgain d).dieRaise d fLastLight d.subject (half16 lastMs))
    | _ => .next s
  else .next s

/-! ### LAMP_DIE_RESET_RELEASE (R37, R201, R206, R208, R218, R227, R239, R251) -/

/-- A die that lost its power in a record write leaves a slot whose CRC fails (R251). -/
def Store.torn (st : Store) : Store :=
  match st.writing with
  | some r => { st.writeFinal { r with crcOk := false } with writing := none }
  | none => st

/-- A resistance of the record in mΩ where it is valid (R238). -/
def esrOf (h : Half) : Option Nat := if h.toNat ≤ 2000 then some h.toNat else none

/-- The store as the die finds it at its start: what its final record holds, and whether it bleeds first (R239). -/
def Store.restart (mv : Nat) (now : Nat) (was : Store) : Store :=
  let old := was.torn
  let base := { Store.fresh with storeMv := mv, finalA := old.finalA, finalB := old.finalB, phaseAt := now }
  let st := match old.finalNow with
    | some r => { base with
        cMeas := if cUsable r.cMeas.toNat then some r.cMeas.toNat else none, esr := esrOf r.esr,
        cInitial := if r.cInitial = 0 then none else some r.cInitial.toNat, esrInitial := esrOf r.esrInitial,
        k := r.k.toNat, dips := r.dips.toNat }
    | none => base
  if st.cMeas.isNone && 70000 < mv then { st with charging := false, bleeding := true }
  else { st with charging := mv < 75000 }

/-- Everything of a die but its fuses, its light references and its final record restarts; the kill acts on its supply. -/
def LampDie.restart (mv now : Nat) (killed : Bool) (old : LampDie) : LampDie :=
  let x := { LampDie.fresh with
    fuses := old.fuses, fuseBad := old.fuseBad, holdUnits := old.holdUnits, holdBad := old.holdBad, killed := killed,
    gateSupply := !killed, store := old.store.restart mv now,
    clock := { LampDie.fresh.clock with boundaryAt := now },
    chans := ch12 fun c => { Channel.fresh with own := (old.chan c).own, cross := (old.chan c).cross } }
  { x with reqLit := x.fallbackMask }

def execLampDieResetRelease (d : Die) (storeMv : Nat) (s : State) : Host.Outcome State Fault Refusal :=
  let killed := (s.lv d.killLink).sent = some true
  let up := fun l e t => State.modEnd l e (fun _ => LinkEnd.fresh true s.now) t
  let s := s.modDie d (LampDie.restart storeMv s.now killed)
  let s := s.modLevel d.grantLink fun x => { x with taken := false, silent := true, silentAt := s.now, raised := false }
  let s := s.modLevel d.killLink fun x => { x with taken := killed, silent := x.sent.isNone, silentAt := s.now, raised := false }
  let s := s.drive d.driveLink (some false)
  let s := up .mirror d.mirrorEnd (up d.refLink .second (up d.timeLink .second (up d.cdLink .second s)))
  .next (s.showCycle d)

end Sys2Proof.Machine
end

