-- ==== Sys2Proof/Machine/Images.lean ====
section
/-! DEFINITION. What the NVM and the fuse array hold: the fuse check (R282), the start counter (R297), the option block and
its checks (R298, R299, R349, R352), firmware images and their checks (R379 to R381), and the boot record (R382). -/

namespace Sys2Proof.Machine

/-! ### Fuses (R282, R380, R381) -/

/-- FUSE_CRC: CRC-32C over bytes 91 down to 0 of the image, held in bits [767:736]. -/
def State.fuseCrcOk (s : State) : Bool :=
  crc32c ((fit s.ao.fuses 92).reverse) = BitVec.ofNat 32 (s.fuseNat 736 32)

/-- KEY_HASH, first byte first. -/
def State.keyHash (s : State) : List Byte := (slice s.ao.fuses 60 32).reverse

/-- RB_FUSED: the index of the highest set bit of ROLLBACK plus one. -/
def State.rbFused (s : State) : Nat :=
  (List.range 64).foldl (fun a i => if s.fuseBit (768 + i) then i + 1 else a) 0

/-- Programs one fuse bit. -/
def programBit (l : List Byte) (n : Nat) : List Byte :=
  (List.range (max l.length (n / 8 + 1))).map fun i =>
    if i = n / 8 then byteAt l i ||| ((1 : Byte) <<< (n % 8)) else byteAt l i

/-- The lamp fuse field of a channel (Table 11.4). -/
def lampFuseOf (fuses : List Byte) (c : Nat) : LampFuse :=
  let b := 12 + 4 * c
  { fmode := (byteAt fuses b).extractLsb' 0 2, fem := bitOf (byteAt fuses b) 2, fend := bitOf (byteAt fuses b) 3,
    fsig := (byteAt fuses b).extractLsb' 4 3, fset := byteAt fuses (b + 1), fsw := byteAt fuses (b + 2),
    fdead := (byteAt fuses (b + 3)).extractLsb' 0 4, fpilot := (byteAt fuses (b + 3)).extractLsb' 4 4 }

/-- A lamp die's own copy of HOLD_TIME and LAMP, written at final test from the same fuse order (R283). A die that is in
fallback from its reset then requires its fallback set. -/
def LampDie.fused (fuses : List Byte) (x : LampDie) : LampDie :=
  let y := { x with
    fuses := ch12 fun c => lampFuseOf fuses c.val, holdUnits := (byteAt fuses 8).toNat % 32 }
  if x.cd.fallback then { y with reqLit := y.fallbackMask } else y

/-! ### The start counter (R297) -/

def counterEntry (seq count : Byte) : Word := seq ++ count ++ crc16 [seq, count]

def entrySeq (w : Word) : Byte := w.extractLsb' 24 8

def entryCount (w : Word) : Byte := w.extractLsb' 16 8

def entryErased (w : Word) : Bool := w = 0xFFFFFFFF

def entryValid (w : Word) : Bool := !entryErased w && w.extractLsb' 0 16 = crc16 [entrySeq w, entryCount w]

def entryTorn (w : Word) : Bool := !entryErased w && !entryValid w

/-- SEQ a is newer than SEQ b: (a − b) modulo 256 lies in 1 to 127. -/
def newer8 (a b : Byte) : Bool := 1 ≤ (a - b).toNat && (a - b).toNat ≤ 127

/-- The location of the newest valid entry. -/
def counterAt (v : Vector Word 64) : Option (Fin 64) :=
  (List.finRange 64).foldl (fun a i =>
    if entryValid v[i.val] then
      match a with
      | some j => if newer8 (entrySeq v[i.val]) (entrySeq v[j.val]) then some i else a
      | none => some i
    else a) none

def satUp (b : Byte) : Byte := if b = 0xFF then b else b + 1

/-- COUNT as a start reads it. Torn entries with no valid one read as 1 (log entry 33). -/
def counterRead (v : Vector Word 64) : Byte :=
  match counterAt v with
  | some i => if entryTorn v[(i.val + 1) % 64]! then satUp (entryCount v[i.val]) else entryCount v[i.val]
  | none => if v.toList.any entryTorn then 1 else 0

def counterWrite (count : Byte) (v : Vector Word 64) : Vector Word 64 :=
  match counterAt v with
  | some i => v.set! ((i.val + 1) % 64) (counterEntry (entrySeq v[i.val] + 1) count)
  | none => v.set! 0 (counterEntry 0 count)

def State.writeCount (n : Byte) (s : State) : State :=
  s.modNvm fun m => { m.wrote areaCounter with counter := counterWrite n m.counter }

/-! ### The option block (R298, R299) -/

def optBytes (m : Mem) : List Byte := m.bytes 0xFF 0 8192

def optEmpty (l : List Byte) : Bool := word l 0 = 0xFFFFFFFF

def optLength (l : List Byte) : Nat := (half l 8).toNat

def optSeq (l : List Byte) : Word := word l 12

def optHeaderOk (l : List Byte) : Bool :=
  word l 0 = 0xB8560B0C && byteAt l 4 = 1 && 64 ≤ optLength l && optLength l ≤ 8128 && optLength l % 4 = 0

def optCrcOk (l : List Byte) : Bool :=
  crc32c ((l.take 16) ++ zeros 4 ++ ((l.drop 20).take (optLength l - 20))) = word l 16

/-- LEN of each record type (Table 11.13). -/
def recordLen (t : Byte) : Option Nat :=
  if t = 0x01 then some 1 else if t = 0x07 then some 1 else if t = 0x06 then some 2 else if t = 0x09 then some 8
  else if t = 0x08 then some 1 else if t = 0x0A then some 8 else if t = 0x02 then some 192 else if t = 0x03 then some 255
  else if t = 0x04 then some 48 else if t = 0x05 then some 1 else none

/-- The records from an offset to an end: TYPE and payload. The index of the first one that fails, where one does. -/
def walkFrom : Nat → List Byte → Nat → Nat → List (Byte × List Byte) → (List (Byte × List Byte)) ⊕ Nat
  | 0, _, _, _, acc => .inr acc.length
  | fuel + 1, l, off, last, acc =>
    if off = last then .inl acc
    else
      let t := byteAt l off
      let n := (half l (off + 2)).toNat
      let next := off + 4 + (n + 3) / 4 * 4
      if off + 4 ≤ last && next ≤ last && recordLen t = some n && !acc.any (fun r => r.1 = t) then
        walkFrom fuel l next last (acc ++ [(t, slice l (off + 4) n)])
      else .inr acc.length

/-- The record walk of R299: the records, or the index of the one that failed (0xFF for the number of records). -/
def optWalk (l : List Byte) : (List (Byte × List Byte)) ⊕ Byte :=
  match walkFrom 17 l 64 (optLength l) [] with
  | .inl r => if r.length = (half l 6).toNat then .inl r else .inr 0xFF
  | .inr i => .inr (BitVec.ofNat 8 i)

/-- The LOCAL_PORT payload (R352). -/
def localPortOk (l : List Byte) : Bool :=
  let a := (byteAt l 0).extractLsb' 0 4
  let an := bitOf (byteAt l 0) 7
  let twin := bitOf (byteAt l 1) 7
  (an || a = 0 || a = 1 || a = 2 || a = 4 || a = 8) && (!twin || a.toNat < 4)

/-- GPIO state codes 0b101 to 0b111 are refused (R352). -/
def gpioOk (l : List Byte) : Bool := (List.range 8).all fun n => ((byteAt l n).extractLsb' 0 3).toNat ≤ 4

def slotRecord (l : List Byte) (n : Nat) : Nat × List Half := ((byteAt l (17 * n)).toNat, stepsOf l (17 * n + 1))

/-- The field check of one record (R349). -/
def recordOk (t : Byte) (l : List Byte) : Bool :=
  if t = 0x02 then (List.range 12).all fun c => entryOk (entryOf (slice l (16 * c) 16))
  else if t = 0x03 then (List.range 15).all fun n => slotOk (slotRecord l n).1 (slotRecord l n).2
  else if t = 0x04 then (policyOf l).ok
  else if t = 0x06 then localPortOk l
  else if t = 0x0A then gpioOk l
  else true

/-- The index of the first record that fails a check. -/
def firstBad (ok : Byte → List Byte → Bool) : List (Byte × List Byte) → Nat → Option Byte
  | [], _ => none
  | (t, l) :: r, i => if ok t l then firstBad ok r (i + 1) else some (BitVec.ofNat 8 i)

/-! ### Firmware images (R379, R380) -/

def Nvm.bank (n : Nvm) (b : Bool) : Mem := if b then n.bankB else n.bankA

def imgBytes (m : Mem) (a n : Nat) : List Byte := m.bytes 0xFF a n

def imgLength (m : Mem) : Nat := (word (imgBytes m 12 4) 0).toNat

def imgHeaderOk (m : Mem) : Bool :=
  let h := imgBytes m 0 16
  word h 0 = 0x4D590856 && byteAt h 4 = 1 && 1024 ≤ imgLength m && imgLength m ≤ 98304 && imgLength m % 4 = 0

def imgKey (m : Mem) : List Byte := imgBytes m 32 64

def imgRelease (m : Mem) : Byte × Byte := (m.get 0xFF 6, m.get 0xFF 7)

def imgRbVer (m : Mem) : Nat := (m.get 0xFF 10).toNat

def State.keyOk (s : State) (m : Mem) : Bool := Config.sha256 (imgKey m) = s.keyHash

def imgSigned (m : Mem) : Bool :=
  let n := imgLength m
  Config.ecdsaVerify (imgKey m) (Config.sha256 (imgBytes m 0 96 ++ imgBytes m 160 (n - 160))) (imgBytes m 96 32)
    (imgBytes m 128 32)

/-- The first check of Table 14.6 that fails; 0x00 when every check passes. -/
def State.imgCheck (s : State) (m : Mem) : Byte :=
  if !imgHeaderOk m then 1
  else if m.get 0xFF 5 ≠ 0xB2 then 2
  else if crc32c (imgBytes m 256 (imgLength m - 256)) ≠ word (imgBytes m 16 4) 0 then 3
  else if !s.keyOk m then 4
  else if !imgSigned m then 5
  else if imgRbVer m < s.rbFused || 64 < imgRbVer m then 6
  else 0

/-- The option block's signature, with the key of bank A or else of bank B (R380). -/
def State.optSigned (s : State) (l : List Byte) : Bool :=
  let verify := fun m => Config.ecdsaVerify (imgKey m) (Config.sha256 (l.take (optLength l))) (slice l 8128 32)
    (slice l 8160 32)
  if s.keyOk s.nvmSeen.bankA then verify s.nvmSeen.bankA
  else if s.keyOk s.nvmSeen.bankB then verify s.nvmSeen.bankB
  else false

/-- The checks of R299 in their order: the records, or the check that failed and the record's index. -/
def State.optCheck (s : State) (l : List Byte) : (List (Byte × List Byte)) ⊕ (Byte × Byte) :=
  if !optHeaderOk l then .inr (1, 0xFF)
  else if !optCrcOk l then .inr (2, 0xFF)
  else if !s.optSigned l then .inr (3, 0xFF)
  else match optWalk l with
    | .inl r => .inl r
    | .inr i => .inr (4, i)

/-! ### The boot record (R382) -/

def BootRecord.standard : BootRecord := ⟨false, none, false, 0, true⟩

def goodBoot (r : Option BootRecord) : Option BootRecord :=
  match r with | some v => if v.crcOk then some v else none | none => none

/-- The slot whose CRC passes and whose SEQ is newer; PRIMARY A with no trial when no slot is valid. -/
def Nvm.boot (n : Nvm) : BootRecord :=
  match goodBoot n.bootA, goodBoot n.bootB with
  | some a, some b => if newer16 b.seq a.seq then b else a
  | some a, none => a
  | none, some b => b
  | none, none => .standard

/-- A write goes to the slot that does not hold the record in force, with the next SEQ. -/
def Nvm.writeBoot (r : BootRecord) (n : Nvm) : Nvm :=
  let v := { r with seq := n.boot.seq + 1, crcOk := true }
  if (goodBoot n.bootA).isSome && some n.boot = goodBoot n.bootA then { n.wrote areaBootB with bootB := some v }
  else { n.wrote areaBootA with bootA := some v }

def bankCode (b : Bool) : Byte := if b then 1 else 0

def trialCode : Option Bool → Byte | some b => bankCode b | none => 0xFF

end Sys2Proof.Machine
end

