-- ==== Sys2Proof/Machine/ResetOps.lean ====
section
/-! DEFINITION. The reset controller's operations: requests and how they meet (R280), what each level clears (R274, R291,
R292, R294), the backup registers (R293), Frost (R303, R304), and entering and leaving power states (R56, R261, R265). -/

namespace Sys2Proof.Machine

/-! ### Backup registers (Table 11.8) -/

def bkp0Of (source level : Nat) (failsafe pending : Bool) (resets : Half) : Word :=
  (BitVec.ofNat 4 source) ++ (BitVec.ofNat 2 level) ++ (if failsafe then 1#1 else 0#1) ++ (if pending then 1#1 else 0#1)
    ++ 0#8 ++ resets

def AlwaysOn.failsafe (a : AlwaysOn) : Bool := a.bkp0.getLsbD 25

def AlwaysOn.pendingBit (a : AlwaysOn) : Bool := a.bkp0.getLsbD 24

def AlwaysOn.resets (a : AlwaysOn) : Half := a.bkp0.extractLsb' 0 16

/-- The books of a reset: level 0 clears every register, then BKP0 is written; a restart at a lower level within one
sequence is not counted again. -/
def AlwaysOn.noteReset (source level : Nat) (a : AlwaysOn) : AlwaysOn :=
  if level = 0 then
    { a with bkp0 := bkp0Of source 0 false false 0, bkp1 := 0, bkp2 := 0, bkp3 := 0, bkp4 := 0, bkp5 := 0, bkp6 := 0,
             bkp7 := 0 }
  else
    { a with bkp0 := bkp0Of source level a.failsafe a.pendingBit (if a.reset.active then a.resets else satHalf a.resets) }

/-! ### What a reset clears (Table 11.1) -/

/-- The control core, mailboxes, bridge and host-port framer; what NVM and retained SRAM hold stays, and
the limit of R391 goes on counting (log entry 88). -/
def ControlDie.cleared (level now : Nat) (c : ControlDie) : ControlDie :=
  { ControlDie.fresh with
    milestone := c.milestone, lastVerified := c.lastVerified, nvm := c.nvm, port := .fresh now,
    retained := if level = 0 then .blank else c.retained,
    faults := if level = 0 then { FaultBook.empty with written := c.faults.written }
      else { FaultBook.empty with opened := c.faults.opened, summaries := c.faults.summaries, written := c.faults.written },
    gpio := c.gpio, optState := c.optState }

/-- The pins' fuse reset states; Hi-Z at POR (R291). -/
def State.fusePins (s : State) : List Byte := (List.range 8).map s.pinReset

/-- Crossings of the control core and the host port come to rest (R41, R290). -/
def controlCrossing : Crossing → Bool
  | .coreToCtl => true | .ctlToCore => true | .hostToCtl => true | .ctlToHost => true | .aoToCtl => true | .ctlToAo => true
  | _ => false

def State.stopEnd (l : FLink) (e : LEnd) (s : State) : State := s.modEnd l e fun _ => LinkEnd.fresh false s.now

def State.runEnd (l : FLink) (e : LEnd) (s : State) : State := s.modEnd l e fun _ => LinkEnd.fresh true s.now

/-- The LD, its lanes and its time links, and the CD link endpoints: reset at levels 0 and 1. -/
def State.clearLogic (pins : List Byte) (s : State) : State :=
  let s := s.modLd fun _ => LineDie.fresh s.now 0 0 [0x8F, 0] []
  let s := ((((s.stopEnd .cdLa .first).stopEnd .cdLb .first).stopEnd .cdRef .first).stopEnd .ldLa .first).stopEnd .ldLb .first
  { (s.modCd fun c => { c with gpio := pins }).fenceCrossings fun _ => true with fences := [] }

/-- At level 2 the endpoints keep their open COMMANDs, but the functions that issued them are gone. -/
def State.disown (l : FLink) (s : State) : State :=
  s.modEnd l .first fun x => { x with opened := x.opened.map fun o => { o with issuer := .plain } }

/-- A reset of the logic side begins at a level (R274). -/
def State.enterReset (source level : Nat) (s : State) : State :=
  let s := s.modAo fun a => { a.noteReset source level with
    reset := ⟨true, level, BitVec.ofNat 8 source, s.now, a.reset.holdRst, a.reset.holdThermal, false⟩ }
  let s := s.modCd (ControlDie.cleared level s.now)
  if level ≤ 1 then s.clearLogic (if source = 0 then zeros 8 else s.fusePins)
  else
    let s := ((s.disown .cdLa).disown .cdLb).disown .cdRef
    { s.fenceCrossings controlCrossing with fences := s.fences.filter (· ≠ .bridge) }

/-- A request that arrives in a reset at its own level or a lower one is absorbed; of two that came at one instant and level the lower
source code is recorded (R280). -/
def State.meetReset (source level : Nat) (s : State) : State :=
  let r := s.ao.reset
  if r.level = level && r.at_ = s.now && source < r.source.toNat then
    s.modAo fun a => { a with
      bkp0 := (BitVec.ofNat 4 source : BitVec 4) ++ (a.bkp0.extractLsb' 0 28 : BitVec 28), reset := { r with source := BitVec.ofNat 8 source } }
  else s

/-- A request meets the reset in progress and the last-word window (R280): it is dropped in the window unless it is POR,
brownout or the return of VIN_L, absorbed at the same or a lower level, and else begins. -/
def State.requestReset (source level : Nat) (s : State) : State :=
  if s.cd.lastWord && source ≠ 0 && source ≠ 1 && source ≠ 9 then s
  else if s.ao.reset.active && s.ao.reset.level ≤ level then s.meetReset source level
  else s.enterReset source level

/-- A full reset in Frost writes COUNT = 0 before the next start (R305). -/
def State.fullResetFrom (source : Nat) (s : State) : State :=
  if s.cd.lastWord then s
  else (if s.cd.frost then s.writeCount 0 else s).requestReset source (s.sourceLevel source)

/-! ### Power states (R261, R265, R288) -/

/-- A lane goes to OFF (R78): an eye scan of it ends, and its stream stops. -/
def State.laneOff (p : Port) (s : State) : State := ((s.leaveUp p).stopStream p).modLane p (Lane.switchedOff s.now)

def State.lanesOff (s : State) : State := s.forPorts Port.all State.laneOff

def State.lanesDetect (ps : List Port) (s : State) : State := s.forPorts ps State.toDetect

/-- The node wakes: a start at level 1 under source 0x8, with the code of its burst. -/
def State.wake (code : GustCode) (byGust : Bool) (s : State) : State :=
  (s.enterReset 8 1).modLd fun l => { l with
    gustDue := some code, wokenByGust := byGust, wakeTarget := if byGust then some code else none }

/-- WAKE_DEFAULT as retained SRAM keeps it (R266). -/
def Retained.wakeCode (r : Retained) : GustCode := if r.wakeDefault then .lull else .active

/-- The node enters Standby, draining (R261, steps 1 and 2). -/
def State.enterDraining (s : State) : State :=
  let s := s.setPower .draining
  (s.modLd fun l => { l with sleepAsked := some s.now, sleepAnswered := false, request := none, requestFrom := none,
                             ownTarget := none }).originateBeacon

/-- The node takes a state by Table 10.2 or its own command. -/
def State.takePower (p : PowerState) (s : State) : State :=
  match p with
  | .draining => s.enterDraining
  | _ => s.setPower p

/-- CALM: links stopped, lanes OFF, HLP asserted, the wake detector armed (R261, R272). -/
def State.enterCalm (s : State) : State :=
  let s := (((((s.stopEnd .cdLa .first).stopEnd .cdLb .first).stopEnd .cdRef .first).stopEnd .ldLa .first).stopEnd .ldLb
    .first).lanesOff
  let s := (s.modTime .la fun t => { t with running := false }).modTime .lb fun t => { t with running := false }
  let s := s.modCd fun c => { c with running := false, goingDark := false, port := HostPort.fresh s.now }
  (s.setPower .calm).modLd fun l => { l with
    hlpFore := true, hlpAft := true, wakeArmed := true, gustDue := none, gustBusy := false,
    probingFore := false, probingAft := false,
    sleepAsked := none, sleepAnswered := false }

/-! ### Books at the end of a run (R253, R261) -/

/-- The CD writes every pending summary (R390). -/
def State.writeSummaries (s : State) : State :=
  let l := s.cd.faults.summaries
  ((l.filter fun x => x.1.sev = 3) ++ l.filter fun x => x.1.sev ≠ 3).foldl (fun t x => t.writeSummary x.1)
    (s.modBook fun b => { b with summaries := [] })

/-- The last committed epoch goes to retained SRAM; an unnumbered node keeps the one there. -/
def State.keepEpoch (s : State) : State :=
  match s.commit? with
  | some c => s.modCd fun x => { x with retained := { x.retained with lastEpoch := c.epoch } }
  | none => s

/-! ### Frost (R303, R304) -/

/-- The INAUG record counts in Frost when the block passes its CRC check. -/
def State.frostOptions (s : State) : Byte :=
  let l := optBytes s.nvmSeen.option
  if optHeaderOk l && optCrcOk l then
    match optWalk l with
    | .inl r => match r.find? fun x => x.1 = 0x01 with | some x => byteAt x.2 0 | none => 0
    | .inr _ => 0
  else 0

/-- A probe ends: the lanes of its end go to DETECT (R268, R271). -/
def State.endProbe (e : VEnd) (s : State) : State :=
  if s.ld.probing e then
    (s.modLd fun l => match e with
      | .fore => { l with probingFore := false }
      | .aft => { l with probingAft := false }).lanesDetect e.ports
  else s

/-- A node in Frost sends no probe, and its lanes run as in Active (R273, R304). -/
def State.endProbes (s : State) : State := (s.endProbe .fore).endProbe .aft

/-- The node enters Frost: the record, the options, and IDENTITY to the lamp dies whose links stand. -/
def State.enterFrost (s : State) : State :=
  let s := s.modCd fun c => { c with frost := true }
  let s := (s.cdRaise fFrost noSubject (be32 s.ao.bkp2)).modEng fun g => { g with options := s.frostOptions }
  let s := s.endProbes.modLd fun l => { l with request := none, requestFrom := none, ownTarget := none }
  (((s.configureDie .la).configureDie .lb).engineEvent)

end Sys2Proof.Machine
end

