-- ==== Sys2Proof/Machine/Power.lean ====
section
/-! DEFINITION. The rows of chapter 10 but HOST_WAKE, and LAST_WORD_ENTRY of chapter 9: following position 1 (R258, R259),
the states in which the host's deadline and the lamp dies run on (R257, R260), going to sleep (R261, R262), Gusts and probes (R268 to R271), the fail-safe path (R272), the last word (R253). -/

namespace Sys2Proof.Machine

/-- State requests, Gusts, probes and power commands act neither in Frost nor in the last-word window (R255, R273). -/
def State.powerActs (s : State) : Bool := s.ldRuns && !s.cd.frost && !s.cd.lastWord

/-! ### Following position 1 (Table 10.2) -/

/-- The next state of a node that sees position 1 ask for a state; none where nothing changes. -/
def followed (own asked : PowerState) : Option PowerState :=
  match own, asked with
  | .active, .lull => some .lull
  | .active, .draining => some .draining
  | .lull, .active => some .active
  | .lull, .draining => some .draining
  | .waking, .active => some .active
  | .waking, .lull => some .lull
  | _, _ => none

/-- At its cycle boundary a node takes its own host's command (R370), or the request of its lead; a commit of that boundary applies
first, and the request is then tested against the new lead (R258). -/
def execPowerStateFollow (s : State) : Host.Outcome State Fault Refusal :=
  if !s.powerActs || s.ld.power = .draining then .next s
  else match s.ld.ownTarget with
    | some p =>
      let s := (s.until (s.momentOf s.ld.ownAt)).modLd fun l => { l with ownTarget := none }
      .next (if s.position = 1 || s.position = 0 then s.takePower p else s)
    | none =>
      match s.ld.request, s.ld.requestFrom with
      | some p, some id =>
        let at_ := s.ld.requestAt
        let s := (s.until (s.momentOf at_)).modLd fun l => { l with request := none, requestFrom := none }
        let s := match s.ld.engine.switch with
          | some w => if w.boundary.toNat ≤ at_.toNat then s.runSwitch w else s
          | none => s
        if s.commit?.isSome && s.leadId = id && s.position ≠ 1 then
          match followed s.ld.power p with
          | some q => .next (s.takePower q)
          | none => .next s
        else .next s
      | _, _ => .next s

/-- Position 1, as its BEACON last showed it, is still in Standby; without a BEACON it counts as in Standby. -/
def State.leadInStandby (s : State) : Bool :=
  s.position = 1 || match s.ld.engine.beacons.find? fun b => b.beacon.position = 1 && b.beacon.nodeId = s.leadId with
    | some b => b.beacon.stateCode = 1
    | none => true

def execWakeTargetTimeout (s : State) : Host.Outcome State Fault Refusal :=
  match s.ld.wakeTarget with
  | some g =>
    if s.powerActs && s.ld.power = .waking && s.commit?.isSome && s.leadInStandby then
      .next ((s.until (s.ld.numberedAt + ms 1000)).setPower (gustPower g))
    else .next s
  | none => .next s

/-! ### Going to sleep (R261) -/

/-- Step 2: the request in progress is finished; the summaries and the epoch are written; then the CD answers. -/
def execSleepAnswer (s : State) : Host.Outcome State Fault Refusal :=
  if s.powerActs && s.ld.power = .draining && s.ld.sleepAsked.isSome && !s.ld.sleepAnswered && s.cd.running
      && s.cd.serving.isNone then
    .next ((s.writeSummaries.keepEpoch).modLd fun l => { l with sleepAnswered := true })
  else .next s

/-- Steps 3 and 4: the CD's HEARTBEATs show GOING_DARK from here on. -/
def execDrainComplete (s : State) : Host.Outcome State Fault Refusal :=
  if s.powerActs && s.ld.power = .draining && s.ld.sleepAnswered && !s.cd.goingDark then
    let s := s.until (s.ld.powerAt + ms 8)
    .next ((s.modCd fun c => { c with goingDark := true }).modLd fun l => { l with drainStartAt := s.now })
  else .next s

/-- Steps 4 and 5, eight cycles later. An island stops its clock only with every crossing at rest, so a transfer toward the host port
that waits for SCLK holds the entry off (R41). -/
def execCalmEntry (s : State) : Host.Outcome State Fault Refusal :=
  if s.powerActs && s.ld.power = .draining && s.cd.goingDark && s.crossingsRest then
    .next (s.until (s.ld.drainStartAt + 8 * cycleNs)).enterCalm
  else .next s

/-! ### Gusts (R264, R268, R269, R271) -/

/-- `segments` are those the detector of a lane has timed, oldest first, up to the edge that ends the last; `others` those of lanes
that complete a Gust in the same cycle of the always-on clock, where different codes give ACTIVE. -/
def execGustRecognised (_p : Port) (segments : List (Bool × Nat)) (others : List (List (Bool × Nat))) (s : State) :
    Host.Outcome State Fault Refusal :=
  match gustOf segments with
  | some code =>
    if s.ld.power = .calm && s.ld.wakeArmed then
      .next (s.wake (if others.any fun l => gustOf l = some .active then .active else code) true)
    else .next s
  | none => .next s

/-- A burst leaves on lanes in OFF, whose transmit filter is set for it (R57, R268). -/
def State.sendGust (g : GustCode) (ps : List Port) (s : State) : State :=
  (s.emits (ps.map fun p => gustEmission p g)).forPorts ps fun p t => t.modLane p fun l => { l with taps := gustTaps }

/-- The burst starts once the lane transmitters are released, on all four lanes. -/
def execGustBurstStart (s : State) : Host.Outcome State Fault Refusal :=
  match s.ld.gustDue with
  | some g =>
    if s.ldRuns && !s.ld.gustBusy then
      .next ((s.sendGust g Port.all).modLd fun l => { l with gustBusy := true, gustAt := s.now })
    else .next s
  | none => .next s

/-- The length of a burst, 8.0 ms. -/
def gustNs : Nat := 16 * 500000

/-- The end whose probe began first, of those that send one. -/
def LineDie.firstProbe (l : LineDie) : Option VEnd :=
  if l.probingFore && (!l.probingAft || l.probeAtFore.getD 0 ≤ l.probeAtAft.getD 0) then some .fore
  else if l.probingAft then some .aft else none

/-- 16 periods have passed since the burst, or the probe that began first; its lanes go to DETECT. -/
def execGustBurstEnd (s : State) : Host.Outcome State Fault Refusal :=
  if s.ldRuns && s.ld.gustBusy then
    let s := (s.until (s.ld.gustAt + gustNs)).modLd fun l => { l with gustBusy := false, gustDue := none }
    .next (s.lanesDetect Port.all)
  else match s.ld.firstProbe with
    | some e =>
      if s.ldRuns then .next ((s.until ((s.ld.probeAt e).getD s.now + gustNs)).endProbe e) else .next s
    | none => .next s

/-- The code of the node's own state. -/
def powerGust : PowerState → Option GustCode | .active => some .active | .lull => some .lull | _ => none

def LineDie.setProbing (e : VEnd) (l : LineDie) : LineDie :=
  match e with
  | .fore => { l with probingFore := true }
  | .aft => { l with probingAft := true }

/-- The first probe of an end in BROKEN goes at once, each further one 1.0 s after the last. -/
def execProbeBurst (e : VEnd) (s : State) : Host.Outcome State Fault Refusal :=
  match powerGust s.ld.power with
  | some g =>
    if s.powerActs && (s.vend e).verdict = .broken && !s.laneUp e.near && !s.laneUp e.skip && !s.ld.probing e then
      let s := match s.ld.probeAt e with | some t => s.until (t + ms 1000) | none => s
      let s := (s.forPorts e.ports State.laneOff).sendGust g e.ports
      .next (s.modLd fun l => (l.setProbeAt e (some s.now)).setProbing e)
    else .next s
  | none => .next s

/-! ### The power word and the fail-safe path (R272) -/

def execPowerWordAck (s : State) : Host.Outcome State Fault Refusal :=
  if s.cd.running && s.ldRuns then .next (s.modLd fun l => { l with powerAckAt := s.now }) else .next s

/-- Every control frame that waits leaves, in the order of R94. -/
def State.sendControl (p : Port) (s : State) : State :=
  (List.range (s.port p).control.length).foldl (fun t _ => t.transmit p) s

/-- A BEACON with STATE "going dark". -/
def State.originateDark (s : State) : State :=
  let b := { s.beaconNow with stateCode := 4 }
  let q := s.ld.seqBeacon + 1
  let s := s.modLd fun l => { l with seqBeacon := q, beaconLast := some b, beaconAt := s.now }
  let f : LineFrame := ⟨s.hdr 0 q, .beacon b⟩
  (s.addKey (floodKey f s.now)).forPorts Port.all fun p t => t.sendFlood p { f with body := .beacon (txPort p b) }

/-- The moment at which the CD has been silent for too long. -/
def LineDie.failsafeAt (l : LineDie) : Nat :=
  match l.sleepAsked with
  | some t => if l.sleepAnswered then l.powerAckAt + ms 500 else min (t + ms 500) (l.powerAckAt + ms 500)
  | none => l.powerAckAt + ms 500

def execFailsafeToCalm (s : State) : Host.Outcome State Fault Refusal :=
  if s.powerActs && (s.ld.power = .waking || s.ld.power = .draining) && !s.cd.goingDark then
    let s := s.until s.ld.failsafeAt
    let n := s.now
    let s := (List.range 8).foldl (fun t i =>
      ((t.originateDark.forPorts Port.all State.sendControl).until (n + (i + 1) * cycleNs)).flushAll) s
    .next (((s.fenceCrossings controlCrossing).enterCalm).modAo fun a => { a with bkp0 := a.bkp0 ||| (1 : Word) <<< 25 })
  else .next s

/-! ### The last word (R253) -/

/-- `heldNs` is how long VIN_L has stayed at `vinMv` or below; a shorter dip leaves the node out of the window (R254). -/
def execLastWordEntry (vinMv heldNs : Nat) (s : State) : Host.Outcome State Fault Refusal :=
  if 2600 ≤ vinMv || heldNs < us 5 || !s.ldRuns || s.cd.lastWord then .next s
  else
    let s := (s.modCd fun c => { c with lastWord := true }).originateBeacon
    .next (if s.cd.running then (s.writeSummaries).cdRaise fGoingDark noSubject (half16 vinMv) else s)

end Sys2Proof.Machine
end

