-- ==== Sys2Proof/Machine/Registers.lean ====
section
/-! DEFINITION. Attention (R317), the local register map (R330, R332, Table 12.10) with the mailbox's slots and MBX_CTRL
(R335 to R337), and the register maps of the high-voltage dies (R333, Table 12.11). -/

namespace Sys2Proof.Machine

/-! ### Attention (Table 12.5) -/

def attnGoingDark : Nat := 1
def attnFrost : Nat := 2
def attnStarting : Nat := 3
def attnMailbox : Nat := 11
def attnFar : Nat := 12
def attnCalm : Nat := 13

def bitIf (b : Bool) (k : Nat) : Half := if b then (1 : Half) <<< k else 0

def State.starting (s : State) : Bool :=
  s.ao.reset.active || s.cd.port.pendingReset || decide (s.cd.milestone.toNat < 6)

def State.doneWaits (s : State) : Bool := s.cd.slots.toList.any fun x => x.st = .done

def State.tagHeld (s : State) : Bool := s.cd.tags.toList.any fun x => x.st = .held

/-- ATTN_PENDING: the events, and the conditions while their causes hold. -/
def State.attnPending (s : State) : Half :=
  s.cd.port.events ||| bitIf s.cd.lastWord attnGoingDark ||| bitIf s.cd.frost attnFrost ||| bitIf s.starting attnStarting
    ||| bitIf s.doneWaits attnMailbox ||| bitIf s.tagHeld attnFar ||| bitIf (s.ld.power = .calm) attnCalm

/-- Codes 4 to 12 can be masked (R317). -/
def attnMaskable : Half := 0x1FF0

/-- The codes that ATTN may show. -/
def State.attnShown (s : State) : Half := s.attnPending &&& ~~~(s.cd.port.mask &&& attnMaskable)

/-- ATTN: the lowest-numbered code that is pending and not masked, else 0. -/
def State.attn (s : State) : BitVec 4 :=
  match (List.range 14).find? fun k => 1 ≤ k && s.attnShown.getLsbD k with
  | some k => BitVec.ofNat 4 k
  | none => 0

/-- Event codes 4 to 10 are cleared by a write of 1 (R318). -/
def eventCodes : Half := 0x07F0

def State.ackEvents (v : Half) (s : State) : State :=
  s.modPortH fun p => { p with events := p.events &&& ~~~(v &&& eventCodes) }

/-! ### The words of Table 12.10 -/

def powerNibble (s : State) : BitVec 4 :=
  if s.cd.frost then 6
  else match s.ld.power with | .waking => 2 | .draining => 3 | .lull => 4 | .active => 5 | .off => 0 | .calm => 0

def nodeStateWord (s : State) : Word :=
  powerNibble s ++ (if s.cd.lastWord then 1#1 else 0#1) ++ (if s.cd.port.absent then 1#1 else 0#1)
    ++ (if s.lineBroken then 1#1 else 0#1) ++ (0 : BitVec 3) ++ s.position ++ s.epoch

def flagsNibble (f : RoundFlags) : BitVec 4 := (roundFlagsByte f).extractLsb' 4 4

def trainWord (s : State) : Word :=
  match s.commit? with
  | some c => (0 : BitVec 2) ++ c.lastPos ++ flagsNibble c.flags ++ (0 : BitVec 20)
  | none => 0

def hpLastWord (p : HostPort) : Word :=
  p.lastCmd ++ p.lastRcode ++ (0 : BitVec 6) ++ p.prev ++ (0 : BitVec 7) ++ (if p.lastApplied then 1#1 else 0#1)

def placeW (v : Word) (k : Nat) : Word := v <<< k

def TagState.code : TagState → Word | .free => 0 | .fetching => 1 | .held => 2

def bridgeTagsWord (c : ControlDie) : Word :=
  (List.finRange 8).foldl (fun (w : Word) t => w ||| placeW (c.tags[t.val]).st.code (4 * t.val)) 0

def MbxState.code : MbxState → Word | .free => 0 | .filling => 1 | .busy => 2 | .done => 3

def mbxCtrlWord (c : ControlDie) : Word :=
  (List.finRange 4).foldl (fun (w : Word) n => w ||| placeW (c.slots[n.val]).st.code (8 + 2 * n.val)) 0

def AlwaysOn.bkp (a : AlwaysOn) : Nat → Word
  | 0 => a.bkp0 | 1 => a.bkp1 | 2 => a.bkp2 | 3 => a.bkp3 | 4 => a.bkp4 | 5 => a.bkp5 | 6 => a.bkp6 | _ => a.bkp7

/-- A byte of a slot, and whether the manual leaves it undefined (Table 13.1, R336). -/
def MbxSlot.byte (x : MbxSlot) (i : Nat) : Byte × Bool :=
  if x.st = .done then (byteAt x.resp i, decide (x.resp.length ≤ i)) else (x.bytes.get 0 i, false)

def openByte (b : Bool) : Byte := if b then 0xFF else 0

/-- A word of a slot, and the bits of it that are undefined. -/
def MbxSlot.word (x : MbxSlot) (o : Nat) : Word × Word :=
  let b := fun i => x.byte (o + i)
  ((b 0).1 ++ (b 1).1 ++ (b 2).1 ++ (b 3).1, openByte (b 0).2 ++ openByte (b 1).2 ++ openByte (b 2).2 ++ openByte (b 3).2)

def isSlotAddr (a : Nat) : Bool := 0x1000 ≤ a && a ≤ 0x13FC

def slotOfAddr (a : Nat) : Fin 4 := Fin.ofNat 4 ((a - 0x1000) / 256)

/-- The content of each word, and the bits of it whose reading is undefined (R306): reserved fields and ATTN_ACK. -/
def State.regWord (s : State) (a : Nat) : Option (Word × Word) :=
  if isSlotAddr a then some ((s.cd.slots[(slotOfAddr a).val]).word (a % 256))
  else match a with
    | 0x00 => some (0x0856B201, 0)
    | 0x04 => some (nodeStateWord s, 0x01C00000)
    | 0x08 => some ((s.nodeId.extractLsb' 32 16).zeroExtend 32, 0xFFFF0000)
    | 0x0C => some (s.nodeId.extractLsb' 0 32, 0)
    | 0x10 => some (s.trainTime.extractLsb' 32 32, 0)
    | 0x14 => some (s.trainTime.extractLsb' 0 32, 0)
    | 0x18 => some (trainWord s, 0xC00FFFFF)
    | 0x1C => some ((s.leadId.extractLsb' 32 16).zeroExtend 32, 0xFFFF0000)
    | 0x20 => some (s.leadId.extractLsb' 0 32, 0)
    | 0x24 => some (s.ghosts.extractLsb' 32 32, 0)
    | 0x28 => some (s.ghosts.extractLsb' 0 32, 0)
    | 0x30 => some (s.attnPending.zeroExtend 32, 0xFFFF0001)
    | 0x34 => some (0, 0xFFFFFFFF)
    | 0x38 => some (s.cd.port.mask.zeroExtend 32, 0xFFFFE00F)
    | 0x3C => some (hpLastWord s.cd.port, 0x0000FCFE)
    | 0x40 => some (bridgeTagsWord s.cd, 0)
    | 0x44 => some (s.cd.bridgeTimeouts ++ s.cd.bridgeExpired ++ s.cd.bridgeLate ++ s.cd.bridgeBusy, 0)
    | 0x60 => some (s.ao.bkp0, 0x00FF0000)
    | 0x64 => some (s.ao.bkp1, 0x0000FE00)
    | 0x68 => some (s.ao.bkp2, 0x0000FFFF)
    | 0x6C => some (s.ao.bkp3, 0)
    | 0x70 => some (s.ao.bkp4, 0)
    | 0x74 => some (s.ao.bkp5, 0)
    | 0x78 => some (s.ao.bkp6, 0)
    | 0x7C => some (s.ao.bkp7, 0)
    | 0x80 => some (mbxCtrlWord s.cd, 0xFFFF0000)
    | _ => none

/-- A word with its undefined bits taken from the i-th free value. -/
def fillOpen (w : Word × Word) (free : Word) : Word := (w.1 &&& ~~~w.2) ||| (free &&& w.2)

def wordAddrs (a words : Nat) : List Nat := (List.range words).map fun i => a + 4 * i

/-- Every word of an access is mapped and aligned (R330, Table 12.6). -/
def State.mapped (s : State) (a words : Nat) : Bool :=
  a % 4 = 0 && (wordAddrs a words).all fun x => (s.regWord x).isSome

/-- The words of a read, sampled at one instant (R330). -/
def State.readWords (s : State) (a words : Nat) : List Byte :=
  (List.range words).flatMap fun i =>
    be32 (fillOpen ((s.regWord (a + 4 * i)).getD (0, 0)) (Config.freeWord (s.freeCount + i)))

def State.drewFree (n : Nat) (s : State) : State := { s with freeCount := s.freeCount + n }

/-! ### Writing (R329, R330, R336) -/

/-- The permit allows far writes from a position (Table 13.6, BRIDGE). -/
def State.permits (s : State) (p : Position) : Bool := s.cd.shadow.permit.getLsbD p.toNat && p ≠ 0

/-- A word that lies in a region a far writer may reach: BKP3 to BKP7, MBX_CTRL and the slots (Table 12.10). -/
def farRegion (a : Nat) : Bool := (0x6C ≤ a && a ≤ 0x7C) || a = 0x80 || isSlotAddr a

/-- Words the host may write: those and the attention registers. -/
def hostRegion (a : Nat) : Bool := a = 0x34 || a = 0x38 || farRegion a

/-- A slot takes bytes when it is FREE, or FILLING with the writer as owner (R336). -/
def MbxSlot.takes (w : Writer) (x : MbxSlot) : Bool := x.st = .free || (x.st = .filling && x.owner = some w)

def State.wordAllowed (w : Writer) (a : Nat) (s : State) : Bool :=
  (match w with | .host => hostRegion a | .far p => farRegion a && s.permits p)
    && (!isSlotAddr a || (s.cd.slots[(slotOfAddr a).val]).takes w)

/-- The RCODE that refuses a whole write: BAD_ADDRESS before NOT_PERMITTED (R330). -/
def State.writeRefused (w : Writer) (a words : Nat) (s : State) : Option Byte :=
  if !s.mapped a words then some 6
  else if (wordAddrs a words).all fun x => s.wordAllowed w x then none
  else some 5

def State.modSlot (n : Fin 4) (f : MbxSlot → MbxSlot) (s : State) : State :=
  s.modCd fun c => { c with slots := c.slots.set n.val (f c.slots[n.val]) }

/-- SUBMIT and RELEASE of one slot (R337). -/
def State.slotControl (w : Writer) (v : Word) (s : State) (n : Fin 4) : State :=
  let sub := v.getLsbD n.val
  let rel := v.getLsbD (4 + n.val)
  let x := s.cd.slots[n.val]
  if sub = rel || x.owner ≠ some w then s
  else if sub then
    if x.st = .filling then
      (s.modSlot n fun x => { x with st := .busy, submitAt := s.now, missed := false }).modCd fun c =>
        { c with order := c.order ++ [n] }
    else s
  else if x.st = .filling || x.st = .done then s.modSlot n MbxSlot.freed
  else s

/-- The owner's RELEASE of the slot that answered FULL_RESET begins the reset of source 0x4 (R378). -/
def State.releasedReset (v : Word) (s t : State) : State :=
  match s.cd.fullReset with
  | some (n, _) =>
    if v.getLsbD (4 + n.val) && (s.cd.slots[n.val]).st = .done && (t.cd.slots[n.val]).st = .free then t.fullResetFrom 4
    else t
  | none => t

def State.mbxControl (w : Writer) (v : Word) (s : State) : State :=
  State.releasedReset v s ((List.finRange 4).foldl (State.slotControl w v) s)

/-- Bytes written into a slot; the first write makes the writer its owner (Table 13.2). -/
def State.slotBytes (w : Writer) (n : Fin 4) (o : Nat) (data : List Byte) (s : State) : State :=
  s.modSlot n fun x => { x with st := .filling, owner := some w, bytes := x.bytes.fill 0 o data, at_ := s.now }

def AlwaysOn.setBkp (n : Nat) (v : Word) (a : AlwaysOn) : AlwaysOn :=
  match n with
  | 3 => { a with bkp3 := v } | 4 => { a with bkp4 := v } | 5 => { a with bkp5 := v }
  | 6 => { a with bkp6 := v } | 7 => { a with bkp7 := v } | _ => a

/-- One word of an allowed write takes effect. -/
def State.writeWord (w : Writer) (a : Nat) (v : Word) (s : State) : State :=
  if isSlotAddr a then s.slotBytes w (slotOfAddr a) (a % 256) (be32 v)
  else if a = 0x34 then s.ackEvents (v.extractLsb' 0 16)
  else if a = 0x38 then s.modPortH fun p => { p with mask := v.extractLsb' 0 16 &&& attnMaskable }
  else if a = 0x80 then s.mbxControl w v
  else s.modAo (AlwaysOn.setBkp ((a - 0x60) / 4) v)

def State.writeWords (w : Writer) (a : Nat) (data : List Byte) (s : State) : State :=
  (List.range (data.length / 4)).foldl (fun t i => t.writeWord w (a + 4 * i) (word data (4 * i))) s

/-- A whole write: applied, or refused with nothing applied (R330). -/
def State.writeRegs (w : Writer) (a : Nat) (data : List Byte) (s : State) : State × Byte :=
  match s.writeRefused w a (data.length / 4) with
  | some r => (s, r)
  | none => (s.writeWords w a data, 0)

/-- The CD's registers can be written: the control core runs, and the framer or the bridge reaches them. -/
def State.regsLive (s : State) : Bool := s.cd.running && !s.ao.reset.active

/-! ### The maps of the dies (Table 12.11) -/

/-- A byte the manual leaves undefined on reading, chosen by its address. -/
def State.freeByte (s : State) (a : Nat) : Byte := (Config.freeWord (s.freeCount + a)).extractLsb' 0 8

def State.freeBytes (s : State) (a n : Nat) : List Byte := (List.range n).map fun i => s.freeByte (a + i)

def refPa : Option LightRef → List Byte | some r => be32 (BitVec.ofNat 32 r.aPa) | none => ones 4

/-- Bytes 64 to 75 of the last MIRROR frame sent or completed; undefined before the first. -/
def State.mirrorBox (s : State) (d : Die) : List Byte :=
  let x := s.die d
  match (if x.drives then x.mirror.sent else x.mirror.complete) with
  | some m => slice (mirrorBytes m) 64 12
  | none => s.freeBytes 0x24 12

def slotReg (s : State) (v : Slot) (a : Nat) : List Byte :=
  [BitVec.ofNat 8 v.count] ++ s.freeBytes (a + 1) 3 ++ (slotBytes v).drop 1 ++ s.freeBytes (a + 20) 12

/-- The regions of a lamp die's map: address and bytes. A payload or record that does not exist yet reads as free values. -/
def State.dieRegs (s : State) (d : Die) : List (Nat × List Byte) :=
  let x := s.die d
  [(0x000, [d.subject, 0x01] ++ s.freeBytes 2 2),
   (0x004, ((List.finRange 12).map x.statusByte) ++ be32 x.clock.cycle32),
   (0x014, (if x.healthLast.isEmpty then s.freeBytes 0x14 15 else (fit x.healthLast 16).drop 1) ++ s.freeBytes 0x23 1),
   (0x024, s.mirrorBox d ++ be32 (BitVec.ofNat 32 x.store.eRes)),
   (0x040, policyBytes x.store.policy),
   (0x100, (List.finRange 12).flatMap fun c => entryBytes (x.ownEntry c)),
   (0x200, (List.finRange 16).flatMap fun n => slotReg s x.slots[n.val] (0x200 + 32 * n.val)),
   (0x400, (List.finRange 12).flatMap fun c => refPa (x.ownRef c) ++ refPa (x.crossRef c)),
   (0x500, match x.store.finalNow with | some r => finalBytes r | none => s.freeBytes 0x500 32)]

def State.refRegs (s : State) : List (Nat × List Byte) :=
  [(0x000, [0x42, 0x01] ++ s.freeBytes 2 2), (0x004, s.refStatusBytes ++ s.freeBytes 0x16 2), (0x018, if s.ref.vinput.isEmpty then s.freeBytes 0x18 8 else fit s.ref.vinput 8)]

def State.hvRegs (s : State) : HvDie → List (Nat × List Byte)
  | .la => s.dieRegs .la
  | .lb => s.dieRegs .lb
  | .ref => s.refRegs

def regByte (m : List (Nat × List Byte)) (a : Nat) : Option Byte :=
  m.findSome? fun r => if r.1 ≤ a && a < r.1 + r.2.length then some (byteAt r.2 (a - r.1)) else none

/-- The bytes of a read, none where one of them is unmapped. -/
def regBytes (m : List (Nat × List Byte)) (a n : Nat) : Option (List Byte) :=
  if (List.range n).all fun i => (regByte m (a + i)).isSome then
    some ((List.range n).map fun i => (regByte m (a + i)).getD 0)
  else none

/-- The addresses of Table 12.11 (R333): start and length of each region. -/
def hvMap : HvDie → List (Nat × Nat)
  | .ref => [(0, 0x20)]
  | _ => [(0, 0x34), (0x40, 0x30), (0x100, 0xC0), (0x200, 0x200), (0x400, 0x60), (0x500, 0x20)]

def hvMapped (d : HvDie) (a n : Nat) : Bool :=
  (List.range n).all fun i => (hvMap d).any fun r => r.1 ≤ a + i && a + i < r.1 + r.2

def countOk (count : Byte) (top : Nat) : Bool := 4 ≤ count.toNat && count.toNat ≤ top && count.toNat % 4 = 0

/-- REG_READ at a die (R331). -/
def State.serveRegRead (d : HvDie) (count : Byte) (address : Word) (s : State) : State × List Byte :=
  let a := address.toNat
  match (if countOk count 32 && a % 4 = 0 then regBytes (s.hvRegs d) a count.toNat else none) with
  | some l => (s.drewFree 0x600, [0x60, resOk, count, 0] ++ l)
  | none => (s, [0x60, resBadField])

/-- REG_WRITE reaches only the store policy block, which takes effect at the next boundary when it passes (R236). -/
def State.serveRegWrite (d : Die) (count : Byte) (address : Word) (data : List Byte) (s : State) : State × List Byte :=
  let a := address.toNat
  let n := count.toNat
  let st := (s.die d).store
  let old := policyBytes (st.nextPolicy.getD st.policy)
  let new := old.take (a - 0x40) ++ data ++ old.drop (a - 0x40 + n)
  if countOk count 48 && a % 4 = 0 && 0x40 ≤ a && a + n ≤ 0x70 && data.length = n && (policyOf new).ok then
    (s.modStore d fun st => { st with nextPolicy := some (policyOf new) }, [0x61, resOk])
  else (s, [0x61, resBadField])

def execRegRead (d : HvDie) (seq : Byte) (count : Byte) (address : Word) (s : State) : Host.Outcome State Fault Refusal :=
  match d with
  | .la => s.dieCommand .la seq (State.serveRegRead .la count address)
  | .lb => s.dieCommand .lb seq (State.serveRegRead .lb count address)
  | .ref => s.refCommand seq (State.serveRegRead .ref count address)

def execRegWrite (d : HvDie) (seq : Byte) (count : Byte) (address : Word) (data : List Byte) (s : State) :
    Host.Outcome State Fault Refusal :=
  match d with
  | .la => s.dieCommand .la seq (State.serveRegWrite .la count address data)
  | .lb => s.dieCommand .lb seq (State.serveRegWrite .lb count address data)
  | .ref => s.refCommand seq fun s => (s, [0x61, resBadField])

/-! ### Rows that act on one register (R318, R329, R335 to R337) -/

/-- A write as one of the rows below makes it: nothing where it is refused. -/
def State.writeRow (w : Writer) (a : Nat) (data : List Byte) (s : State) : State :=
  if s.regsLive then (s.writeRegs w a data).1 else s

def execAttnAck (value : Word) (s : State) : Host.Outcome State Fault Refusal := .next (s.writeRow .host 0x34 (be32 value))

def execMbxSubmit (w : Writer) (slots : BitVec 4) (s : State) : Host.Outcome State Fault Refusal :=
  .next (s.writeRow w 0x80 (be32 (slots.zeroExtend 32)))

def execMbxRelease (w : Writer) (slots : BitVec 4) (s : State) : Host.Outcome State Fault Refusal :=
  .next (s.writeRow w 0x80 (be32 (slots.zeroExtend 32 <<< 4)))

/-- Whole words from an address of a slot. -/
def execMbxSlotWrite (w : Writer) (address : Word) (data : List Byte) (s : State) : Host.Outcome State Fault Refusal :=
  let a := address.toNat
  if isSlotAddr a && data.length % 4 = 0 && data.length ≠ 0 then .next (s.writeRow w a data) else .next s

def execRegisterWrite (w : Writer) (address : Word) (data : Word) (s : State) : Host.Outcome State Fault Refusal :=
  .next (s.writeRow w address.toNat (be32 data))

end Sys2Proof.Machine
end

