-- ==== Sys2Proof/Machine/HostPort.lean ====
section
/-! DEFINITION. The rows of chapter 12: host frames (R307 to R316, R320 to R322), the bridge and its tags (R323 to R328), the
node as responder (R329), and the host heartbeat (R321). In Calm nothing of a frame is executed (R263). One row is one whole frame, from HP_CS_N's fall to its rise. -/

namespace Sys2Proof.Machine

/-! ### Result codes (Table 12.6) -/

def rcOk : Byte := 0x00
def rcRetry : Byte := 0x01
def rcBusy : Byte := 0x02
def rcTimeout : Byte := 0x03
def rcEpochChanged : Byte := 0x04
def rcNotPermitted : Byte := 0x05
def rcBadAddress : Byte := 0x06
def rcTargetError : Byte := 0x07
def rcLockRejected : Byte := 0x08
def rcNoRoute : Byte := 0x09
def rcNotExecuted : Byte := 0x0A
def rcBadCommand : Byte := 0x0B
def rcCrcError : Byte := 0x0C
def rcLengthError : Byte := 0x0D

def cmdNop : Byte := 0
def cmdRead : Byte := 1
def cmdWrite : Byte := 2
def cmdRmw : Byte := 3

/-! ### The request part (Tables 12.1 to 12.3) -/

/-- Words the frame names. -/
def frameWords (f : HostFrame) : Nat := f.words.toNat + 1

/-- Data bytes of the request part. -/
def requestData (cmd : Byte) (f : HostFrame) : Nat := if cmd = cmdWrite then 4 * frameWords f else if cmd = cmdRmw then 8 else 0

/-- The request part without its CRC, as HP_MOSI carried it. -/
def requestBytes (cmd : Byte) (f : HostFrame) : List Byte :=
  [cmd, f.target, f.unit, f.reserved3 ++ f.words] ++ be32 f.address ++ fit f.data (requestData cmd f)

def requestOk (cmd : Byte) (f : HostFrame) : Bool := crc16 (requestBytes cmd f) = f.crc

/-- Data bytes of the reply part, for a command that has one. -/
def replyData (cmd : Byte) (f : HostFrame) : Option Nat :=
  if cmd = cmdRead then some (4 * frameWords f) else if cmd = cmdRmw then some 4 else none

/-- Length of the frame (Table 12.3). -/
def frameLength (cmd : Byte) (f : HostFrame) : Nat :=
  let n := 4 * frameWords f
  if cmd = cmdNop then 10 else if cmd = cmdRead then 15 + n else if cmd = cmdWrite then 10 + n
  else if cmd = cmdRmw then 27 else 2

/-- HP_CS_N rose at the exact length (R308, R314). -/
def exactLength (cmd : Byte) (f : HostFrame) : Bool := f.bits = 8 * frameLength cmd f

/-- The frame went on to the end of its request part, so its CRC has been checked (R314). -/
def requestWhole (cmd : Byte) (f : HostFrame) : Bool := 8 * (10 + requestData cmd f) ≤ f.bits

/-- Position of RCODE, which is the length of what comes before it. -/
def rcodeAt (cmd : Byte) : Nat := if cmd = cmdRead then 12 else 20

/-! ### What the node sends (R311, R312, R315, R320) -/

/-- The status byte as latched at the fall of HP_CS_N. -/
def State.statusByte (s : State) : Byte := (0b10 : BitVec 2) ++ s.attn ++ s.cd.port.prev

/-- HP_MISO of an executed frame. Every data byte of a reply whose RCODE is not OK is 0xFF (R316). -/
def State.misoOf (s : State) (cmd : Byte) (f : HostFrame) (rcode : Byte) (data : List Byte) : List Byte :=
  match replyData cmd f with
  | some n =>
    let m := [s.statusByte] ++ zeros (rcodeAt cmd - 1) ++ [rcode] ++ (if rcode = rcOk then fit data n else ones n)
    m ++ be16 (crc16 m)
  | none => [s.statusByte] ++ zeros (frameLength cmd f - 1)

/-- The whole bytes that HP_MISO has carried when HP_CS_N rises. -/
def State.sendMiso (f : HostFrame) (l : List Byte) (s : State) : State := s.emit (.miso (l.take (f.bits / 8)))

/-- The always-on island's answer in the states of Table 12.7: the byte, then 0xFF in every further byte (R320). -/
def State.fixedReply (b : Byte) (f : HostFrame) (s : State) : State := s.sendMiso f ([b] ++ ones (f.bits / 8))

/-! ### The heartbeat (R321) -/

/-- A frame whose request CRC passes ends the host's absence. -/
def State.hostHeard (s : State) : State :=
  let was := s.cd.port.absent
  let s := s.modPortH fun p => { p with heartbeatAt := s.now, absent := false }
  if was then (s.cdClear fHostAbsent noSubject).originateBeacon else s

/-- The deadline runs in Standby, Lull, Active and Frost, not in the last-word window or Calm (R255, R321). -/
def execHostAbsent (s : State) : Host.Outcome State Fault Refusal :=
  if s.regsLive && !s.cd.port.pendingReset && !s.cd.lastWord && !s.cd.port.absent then
    let s := (s.until (s.cd.port.heartbeatAt + ms 100)).modPortH fun p => { p with absent := true }
    .next ((s.cdRaise fHostAbsent noSubject []).originateBeacon)
  else .next s

/-! ### Addressing (R322, Table 12.8) -/

/-- Where a frame's TARGET and UNIT lead. -/
inductive Target | here | own (d : HvDie) | far (p : Position) (unit : Byte) | bad
  deriving DecidableEq, Repr

def hvOfCode (b : Byte) : Option HvDie :=
  if b = 0x40 then some .la else if b = 0x41 then some .lb else if b = 0x42 then some .ref else none

def State.targetOf (s : State) (target unit : Byte) : Target :=
  let p : Position := target.extractLsb' 0 6
  if s.position ≠ 0 && target = s.position.zeroExtend 8 then
    (if unit = 0 then .here else match hvOfCode unit with | some d => .own d | none => .bad)
  else if target = 0 then (if unit = 0 then .here else .bad)
  else if target.toNat ≤ 0x3F then (if unit = 0 || (hvOfCode unit).isSome then .far p unit else .bad)
  else match hvOfCode target with
    | some d => if unit = 0 then .own d else .bad
    | none => .bad

/-- A position that R91 has no route to (R322). -/
def State.unroutable (s : State) (p : Position) : Bool := isGhost s.ghosts p || (s.route p).isNone

/-! ### Tags (R323 to R328) -/

def Tag.sameRequest (cmd : Byte) (f : HostFrame) (t : Tag) : Bool := t.st ≠ .free && requestBytes t.cmd t.frame = requestBytes cmd f

def ControlDie.tagFor (c : ControlDie) (cmd : Byte) (f : HostFrame) : Option (Fin 8) :=
  (List.finRange 8).find? fun t => (c.tags[t.val]).sameRequest cmd f

def ControlDie.freeTag (c : ControlDie) : Option (Fin 8) := (List.finRange 8).find? fun t => (c.tags[t.val]).st = .free

def State.modTag (t : Fin 8) (g : Tag → Tag) (s : State) : State :=
  s.modCd fun c => { c with tags := c.tags.set t.val (g c.tags[t.val]) }

/-- The tag becomes HELD with a result; only OK carries data. -/
def Tag.hold (now : Nat) (rcode : Byte) (data : List Byte) (t : Tag) : Tag :=
  { t with st := .held, at_ := now, rcode := rcode, data := if rcode = rcOk then data else [], parts := [] }

def State.holdTag (t : Fin 8) (rcode : Byte) (data : List Byte) (s : State) : State := s.modTag t (Tag.hold s.now rcode data)

/-- The pieces of at most 32 bytes in which a die's registers are read (R326). -/
def readParts (a n : Nat) : List (Word × Nat) :=
  (List.range ((n + 31) / 32)).map fun i => (BitVec.ofNat 32 (a + 32 * i), min 32 (n - 32 * i))

/-- The next piece of a read goes out as a REG_READ; with none left nothing is sent. -/
def State.sendPart (d : HvDie) (i : Issuer) (parts : List (Word × Nat)) (s : State) : State :=
  match parts with
  | (a, n) :: _ => s.sendCommand d.cdLink i (cmdRegRead n a)
  | [] => s

/-- A far request takes the lowest free tag and leaves (Table 12.9, R326). -/
def State.allocate (cmd : Byte) (f : HostFrame) (g : Target) (s : State) : State :=
  match s.cd.freeTag with
  | none => s
  | some t =>
    let n := 4 * frameWords f
    let parts := match g with | .own _ => readParts f.address.toNat n | _ => []
    let s := s.modTag t fun _ => ⟨.fetching, cmd, f, cmd = cmdWrite, s.now, 0, [], parts⟩
    match g with
    | .own d => s.sendPart d (.bridge t) parts
    | .far p unit =>
      let w : Bool := cmd = cmdWrite
      s.sendMgmt p ⟨if w then 2 else 1, BitVec.ofNat 3 t.val, unit, 0, f.address, BitVec.ofNat 16 n,
        if w then fit f.data n else []⟩
    | _ => s

def State.countBusy (s : State) : State := s.modCd fun c => { c with bridgeBusy := satByte c.bridgeBusy }

/-- What a far request is answered, with its data, and what it does when it takes effect (R324). -/
def State.farAnswer (cmd : Byte) (f : HostFrame) (g : Target) (s : State) : Byte × List Byte × (State → State) :=
  match s.cd.tagFor cmd f with
  | some t =>
    let x := s.cd.tags[t.val]
    if x.st = .fetching then (rcRetry, [], id) else (x.rcode, x.data, fun s => s.modTag t fun _ => Tag.free)
  | none =>
    if s.cd.bridgeInReset then (rcTargetError, [], id)
    else if s.cd.freeTag.isNone then (rcBusy, [], State.countBusy)
    else (rcRetry, [], State.allocate cmd f g)

/-! ### Executing a frame (R313, R314, R320) -/

/-- What a local request is answered and does. LOCKED_RMW is answered the old word (R313). -/
def State.localAnswer (cmd : Byte) (f : HostFrame) (s : State) : Byte × List Byte × (State → State) :=
  let a := f.address.toNat
  if cmd = cmdRead then
    (if s.mapped a (frameWords f) then (rcOk, s.readWords a (frameWords f), id) else (rcBadAddress, [], id))
  else if cmd = cmdWrite then
    let data := fit f.data (4 * frameWords f)
    match s.writeRefused .host a (frameWords f) with
    | some r => (r, [], id)
    | none => (rcOk, [], State.writeWords .host a data)
  else
    match s.writeRefused .host a 1 with
    | some r => (r, [], id)
    | none =>
      let old := s.readWords a 1
      let m := word f.data 0
      let v := (word old 0 &&& ~~~m) ||| (word f.data 4 &&& m)
      (rcOk, old, State.writeWords .host a (be32 v))

/-- The RCODE, the data and the effect of a frame whose request CRC passed (R316, R320, R322, R328). -/
def State.answerFrame (cmd : Byte) (f : HostFrame) (s : State) : Byte × List Byte × (State → State) :=
  let g := s.targetOf f.target f.unit
  let no := fun r : Byte => ((r, [], id) : Byte × List Byte × (State → State))
  if cmd = cmdNop then no rcOk
  else if s.cd.lastWord && !(cmd = cmdRead && g = .here) then no rcNotExecuted
  else if s.cd.frost && g ≠ .here then no rcNotExecuted
  else if cmd = cmdRmw && f.words ≠ 0 then no rcBadCommand
  else match g with
    | .bad => no rcBadAddress
    | .here => s.localAnswer cmd f
    | .own _ =>
      if cmd = cmdRmw then no rcLockRejected
      else if f.address.toNat % 4 ≠ 0 then no rcBadAddress
      else if cmd = cmdWrite then no rcNotPermitted
      else s.farAnswer cmd f g
    | .far p _ =>
      if cmd = cmdRmw then no rcLockRejected
      else if s.unroutable p then no rcNoRoute
      else if f.address.toNat % 4 ≠ 0 then no rcBadAddress
      else s.farAnswer cmd f g

def prevOf (rcode : Byte) : BitVec 2 := if rcode = rcOk then 0 else if rcode = rcRetry then 1 else 2

/-- HP_LAST and PREV of a frame that has ended (Tables 12.4 and 12.10). -/
def State.endFrame (cmd rcode : Byte) (prev : BitVec 2) (applied : Bool) (s : State) : State :=
  s.modPortH fun p => { p with lastCmd := cmd, lastRcode := rcode, prev := prev, lastApplied := applied }

/-- A local read takes a free value for each word it returns, where the manual leaves bits of it open. -/
def readsFree (cmd : Byte) (f : HostFrame) : Nat :=
  if cmd = cmdRead then frameWords f else if cmd = cmdRmw then 1 else 0

/-- A frame in a state in which frames are executed (R314). -/
def State.runFrame (cmd : Byte) (f : HostFrame) (s : State) : State :=
  if !requestWhole cmd f then
    (s.sendMiso f ([s.statusByte] ++ zeros (f.bits / 8))).endFrame cmd rcLengthError 3 false
  else if !requestOk cmd f then (s.sendMiso f (s.misoOf cmd f rcCrcError [])).endFrame cmd rcCrcError 3 false
  else
    let (rcode, data, act) := s.answerFrame cmd f
    let t := ((s.sendMiso f (s.misoOf cmd f rcode data)).drewFree (readsFree cmd f)).hostHeard
    if exactLength cmd f then (act (t.endFrame cmd rcode (prevOf rcode) true))
    else if cmd = cmdRmw && rcode = rcOk then act (t.endFrame cmd rcLengthError 3 true)
    else t.endFrame cmd rcLengthError 3 false

/-- A host frame wakes a node in Calm when its CMD is not reserved and its request CRC passes (R264, R320). -/
def State.calmFrame (cmd : Byte) (f : HostFrame) (s : State) : State :=
  let s := s.fixedReply 0xB6 f
  if cmd.toNat ≤ 3 && requestWhole cmd f && requestOk cmd f then s.wake s.cd.retained.wakeCode false else s

/-- The framer's reset completes, and the host's deadline runs from here (R285, R321). -/
def State.framerReady (s : State) : State :=
  s.modPortH fun p => { p with pendingReset := false, edges := 0, heartbeatAt := s.now }

/-- The SCLK edges of a frame carry the framer's reset on, once the islands before it are released; it completes at the 16th, and the
frame is not executed (R285, R286). -/
def State.framerEdges (n : Nat) (s : State) : State :=
  if s.regsLive && s.cd.port.pendingReset then
    (if 16 ≤ s.cd.port.edges + n then s.framerReady else s.modPortH fun p => { p with edges := p.edges + n })
  else s

/-- One host frame, whatever the node's state (Table 12.7). -/
def State.hostFrame (cmd : Byte) (f : HostFrame) (s : State) : State :=
  if s.ld.power = .calm && !s.ao.reset.active then s.calmFrame cmd f
  else if !s.regsLive || s.cd.port.pendingReset then (s.fixedReply 0x8E f).framerEdges f.bits
  else if 3 < cmd.toNat then
    (s.sendMiso f ([s.statusByte] ++ zeros (f.bits / 8))).endFrame cmd rcBadCommand 2 false
  else s.runFrame cmd f

def execNop (f : HostFrame) (s : State) : Host.Outcome State Fault Refusal := .next (s.hostFrame cmdNop f)

def execRead (f : HostFrame) (s : State) : Host.Outcome State Fault Refusal := .next (s.hostFrame cmdRead f)

def execWrite (f : HostFrame) (s : State) : Host.Outcome State Fault Refusal := .next (s.hostFrame cmdWrite f)

def execLockedRmw (f : HostFrame) (s : State) : Host.Outcome State Fault Refusal := .next (s.hostFrame cmdRmw f)

/-- A READ whose TARGET and UNIT lead beyond the node's own map (Table 12.8); the frame itself says so. -/
def execFarRead (f : HostFrame) (s : State) : Host.Outcome State Fault Refusal := .next (s.hostFrame cmdRead f)

def execFarWrite (f : HostFrame) (s : State) : Host.Outcome State Fault Refusal := .next (s.hostFrame cmdWrite f)

/-- A CMD above 0x03; the row carries no other CMD. -/
def execReservedCmdFrame (cmd : Byte) (f : HostFrame) (s : State) : Host.Outcome State Fault Refusal :=
  if 3 < cmd.toNat then .next (s.hostFrame cmd f) else .next s

/-- The host frame that wakes a node from Calm (R264). -/
def execHostWake (cmd : Byte) (f : HostFrame) (s : State) : Host.Outcome State Fault Refusal :=
  if s.ld.power = .calm then .next (s.hostFrame cmd f) else .next s

/-! ### Tags in time (Table 12.9) -/

def execTagTimeout (tag : Fin 8) (s : State) : Host.Outcome State Fault Refusal :=
  let x := s.cd.tags[tag.val]
  if x.st = .fetching then
    let s := (s.until (x.at_ + ms 2)).holdTag tag rcTimeout []
    let s := s.modCd fun c => { c with bridgeTimeouts := satByte c.bridgeTimeouts }
    .next (s.cdRaise fFarTimeout (0x80 + BitVec.ofNat 8 tag.val) ([x.frame.target, x.frame.unit] ++ be32 x.frame.address))
  else .next s

def execTagHoldExpiry (tag : Fin 8) (s : State) : Host.Outcome State Fault Refusal :=
  let x := s.cd.tags[tag.val]
  if x.st = .held then
    .next (((s.until (x.at_ + ms 10)).modTag tag fun _ => Tag.free).modCd fun c =>
      { c with bridgeExpired := satByte c.bridgeExpired })
  else .next s

/-! ### MGMT responses (R327) -/

/-- RESULT as the bridge maps it. -/
def rcodeOfResult (r : Byte) : Byte :=
  if r = 0 then rcOk else if r = 1 then rcNotPermitted else if r = 2 then rcBadAddress else rcTargetError

def mgmtLenOk (m : MgmtP) : Bool := if m.op = 0x81 then m.data.length = m.count.toNat else m.data.isEmpty

/-- The response answers the request of a tag that fetches; its OP is the answer to that request's OP (DEDUCED, log entry 86). -/
def Tag.answeredBy (src : Position) (m : MgmtP) (t : Tag) : Bool :=
  t.st = .fetching && t.parts.isEmpty && (m.op = 0x81 || m.op = 0x82) && (m.op = 0x82) = t.isWrite
    && t.frame.target = src.zeroExtend 8 && m.target = t.frame.unit && m.address = t.frame.address
    && m.count.toNat = 4 * frameWords t.frame && mgmtLenOk m

def State.countLate (s : State) : State := s.modCd fun c => { c with bridgeLate := satByte c.bridgeLate }

def State.mgmtAnswer (h : LineHdr) (m : MgmtP) (s : State) : State :=
  let t : Fin 8 := Fin.ofNat 8 m.tag.toNat
  if !s.regsLive || s.cd.bridgeInReset then s
  else if (s.cd.tags[t.val]).answeredBy h.src m then s.holdTag t (rcodeOfResult m.result) m.data
  else s.countLate

/-- A response goes to the bridge and takes no place in the management queue (R99, R327). -/
def execMgmtResponseReceived (p : Port) (h : LineHdr) (m : MgmtP) (whole : Bool) (s : State) :
    Host.Outcome State Fault Refusal :=
  .next (s.ingress p ⟨h, .mgmt m⟩ whole (State.mgmtAnswer h m))

/-! ### The node as responder (R329) -/

/-- Every field of a request but OP, RESULT and DATA comes back; a failed READ carries ones. -/
def responseOf (m : MgmtP) (result : Byte) (data : List Byte) : MgmtP :=
  { m with op := m.op ||| 0x80, result := result,
           data := if m.op = 0x01 then (if result = 0 then fit data m.count.toNat else ones m.count.toNat) else [] }

def State.respond (src : Position) (m : MgmtP) (result : Byte) (data : List Byte) (s : State) : State :=
  s.sendMgmt src (responseOf m result data)

/-- COUNT and ADDRESS have the form of Table 4.5, and a WRITE carries COUNT bytes. -/
def mgmtFormOk (m : MgmtP) : Bool :=
  4 ≤ m.count.toNat && m.count.toNat ≤ 256 && m.count.toNat % 4 = 0 && m.address.toNat % 4 = 0
    && (m.op ≠ 0x02 || m.data.length = m.count.toNat)

/-- A request for TARGET 0x00. -/
def State.serveLocal (src : Position) (m : MgmtP) (s : State) : State :=
  let a := m.address.toNat
  let n := m.count.toNat / 4
  if m.op = 0x01 then
    (if s.mapped a n then (s.drewFree n).respond src m 0 (s.readWords a n) else s.respond src m 2 [])
  else match s.writeRefused (.far src) a n with
    | none => (s.writeWords (.far src) a m.data).respond src m 0 []
    | some r => s.respond src m (if r = rcBadAddress then 2 else 1) []

/-- One request taken from the management queue. -/
def State.serveMgmt (src : Position) (m : MgmtP) (s : State) : State :=
  if m.op ≠ 0x01 && m.op ≠ 0x02 then s
  else if s.cd.frost then s.respond src m 1 []
  else if !mgmtFormOk m then s.respond src m 2 []
  else if m.target = 0 then s.serveLocal src m
  else match hvOfCode m.target with
    | none => s.respond src m 2 []
    | some d =>
      if m.op = 0x02 then
        s.respond src m (if hvMapped d m.address.toNat m.count.toNat then 1 else 2) []
      else
        let parts := readParts m.address.toNat m.count.toNat
        (s.modCd fun c => { c with responding := some ⟨src, m, d, parts, []⟩ }).sendPart d (.responder d) parts

def execMgmtRequestServe (s : State) : Host.Outcome State Fault Refusal :=
  match s.ld.mgmtQueue with
  | (_, h, m) :: rest =>
    if s.regsLive && s.ldRuns && s.cd.responding.isNone then
      .next ((s.modLd fun l => { l with mgmtQueue := rest }).serveMgmt h.src m)
    else .next s
  | [] => .next s

end Sys2Proof.Machine
end

