-- ==== Sys2Proof/Machine/Mailbox.lean ====
section
/-! DEFINITION. How the mailbox serves a request (R334 to R342, R345, R363, R364): the table of commands, the order of the
checks, the responses, and the rows that time alone brings about. -/

namespace Sys2Proof.Machine

/-! ### Result codes (Table 13.3) -/

def mbOk : Byte := 0x00
def mbBadOpcode : Byte := 0x01
def mbBadLength : Byte := 0x02
def mbBadField : Byte := 0x03
def mbNotInFrost : Byte := 0x04
def mbBadState : Byte := 0x05
def mbDieRefused : Byte := 0x06
def mbOneDie : Byte := 0x07
def mbDieAbsent : Byte := 0x08
def mbBlockInvalid : Byte := 0x09
def mbNvmError : Byte := 0x0A

/-! ### Tables 13.4 and 14.1 -/

/-- One row: the range of the request's LEN, whether its response has one fixed LEN, whether Frost accepts it, and
whether it is served from milestone 0x02 (R340). -/
structure MbxRow where
  lo : Nat
  hi : Nat
  fixed : Bool
  frost : Bool
  early : Bool
  deriving DecidableEq, Repr

def rowOf (n : Nat) (fixed frost early : Bool) : Option MbxRow := some ⟨n, n, fixed, frost, early⟩

/-- The row of an OPCODE; none where the OPCODE is in neither table. -/
def mbxRow (op : Half) : Option MbxRow :=
  match op.toNat with
  | 0x0001 => rowOf 0 true true true
  | 0x0010 => rowOf 8 false true true
  | 0x0011 => rowOf 0 true true true
  | 0x0012 => some ⟨12, 248, true, true, true⟩
  | 0x0013 => rowOf 0 true true false
  | 0x0014 => rowOf 4 true true false
  | 0x0020 => rowOf 24 true false false
  | 0x0021 => rowOf 4 true false false
  | 0x0022 => rowOf 24 true false false
  | 0x0023 => rowOf 4 true false false
  | 0x0024 => rowOf 4 true false false
  | 0x0025 => rowOf 4 true false false
  | 0x0026 => rowOf 0 true false false
  | 0x0030 => rowOf 4 true false false
  | 0x0031 => rowOf 0 true false false
  | 0x0040 => rowOf 4 true false false
  | 0x0041 => rowOf 0 true false false
  | 0x0042 => rowOf 8 true false false
  | 0x0043 => rowOf 0 true false false
  | 0x0050 => rowOf 52 true false false
  | 0x0051 => rowOf 0 true false false
  | 0x0060 => rowOf 8 true false false
  | 0x0061 => rowOf 0 true false false
  | 0x0100 => rowOf 4 false false false
  | 0x0110 => rowOf 8 true false false
  | 0x0120 => rowOf 4 true false false
  | 0x0121 => rowOf 4 true false false
  | 0x0122 => rowOf 4 true false false
  | 0x0123 => rowOf 4 true false false
  | 0x0124 => rowOf 0 true false false
  | 0x0130 => rowOf 4 true false false
  | 0x0140 => rowOf 4 false false false
  | 0x0150 => rowOf 4 true false false
  | 0x0151 => rowOf 0 true false false
  | 0x0152 => rowOf 4 false false false
  | 0x0160 => rowOf 8 false true false
  | 0x0170 => rowOf 0 true true false
  | 0x0180 => rowOf 4 false true false
  | 0x0181 => some ⟨8, 244, true, true, false⟩
  | 0x0190 => rowOf 4 true true false
  | 0x01A0 => rowOf 4 true true false
  | 0x01A1 => some ⟨12, 248, true, true, false⟩
  | 0x01A2 => rowOf 0 true true false
  | 0x01A3 => rowOf 0 true true false
  | 0x01A4 => rowOf 4 true true false
  | _ => none

def mbxEarly (op : Half) : Bool := match mbxRow op with | some r => r.early | none => false

/-! ### The request in a slot (Table 13.1) -/

def MbxSlot.head (x : MbxSlot) : List Byte := x.bytes.bytes 0 0 8

def MbxSlot.opcode (x : MbxSlot) : Half := half x.head 0

def MbxSlot.len (x : MbxSlot) : Nat := (half x.head 2).toNat

def MbxSlot.payload (x : MbxSlot) : List Byte := x.bytes.bytes 0 8 (min x.len 248)

def State.slot (s : State) (n : Fin 4) : MbxSlot := s.cd.slots[n.val]

/-- The node writes the response: DONE, or FREE where a commit took the slot from its far owner (R338). -/
def State.respondMbx (n : Fin 4) (result : Byte) (payload : List Byte) (s : State) : State :=
  let x := s.slot n
  let r := be16 x.opcode ++ be16 (BitVec.ofNat 16 payload.length) ++ slice x.head 4 2 ++ [result, 0] ++ payload
  (s.modSlot n fun x => if x.orphaned then x.freed else { x with st := .done, resp := r, at_ := s.now }).modCd fun c =>
    { c with order := c.order.erase n, serving := none }

/-- A response whose RESULT is not OK has LEN 0, unless its LEN is fixed (R342). -/
def State.failMbx (n : Fin 4) (result : Byte) (payload : List Byte) (s : State) : State :=
  match mbxRow (s.slot n).opcode with
  | some r => s.respondMbx n result (if r.fixed then payload else [])
  | none => s.respondMbx n result []

/-! ### Which request is served, and when (R339 to R341, R364) -/

/-- Recovery ROM in Frost serves at once; else a request waits for its milestone. -/
def State.heldBack (s : State) (op : Half) : Bool :=
  !s.cd.frost && decide (s.cd.milestone.toNat < if mbxEarly op then 2 else 6)

/-- The slot whose request is served next: the oldest BUSY one, while nothing else is being served. -/
def State.nextSlot (s : State) : Option (Fin 4) :=
  if s.regsLive && !s.cd.lastWord && s.cd.fullReset.isNone && s.cd.serving.isNone then
    match s.cd.order with
    | n :: _ => if s.heldBack (s.slot n).opcode then none else some n
    | [] => none
  else none

def State.draining (s : State) : Bool := s.ld.power = .draining

/-- A request is checked in the order of R342 and then executed. `lenOk` and `fieldOk` are the command's own checks;
`refused` is the payload of a refusal whose LEN is fixed. -/
def State.serveSlot (n : Fin 4) (r : MbxRow) (lenOk fieldOk : List Byte → Bool) (refused : State → List Byte → List Byte)
    (run : Fin 4 → List Byte → State → State) (s : State) : State :=
  let x := s.slot n
  let p := x.payload
  let no := fun code : Byte => (s.drewFree 0x600).failMbx n code (refused s p)
  if s.cd.frost && !r.frost then no mbNotInFrost
  else if x.len < r.lo || r.hi < x.len || !lenOk p then no mbBadLength
  else if !fieldOk p then no mbBadField
  else if s.draining then no mbBadState
  else run n p s

/-- The row of one command: it serves the next request when that request's OPCODE is its own. -/
def State.mbxCommand (op : Half) (lenOk fieldOk : List Byte → Bool) (refused : State → List Byte → List Byte)
    (run : Fin 4 → List Byte → State → State) (s : State) : Host.Outcome State Fault Refusal :=
  match s.nextSlot, mbxRow op with
  | some n, some r =>
    if (s.slot n).opcode = op then .next (s.serveSlot n r lenOk fieldOk refused run) else .next s
  | _, _ => .next s

def anyPayload : List Byte → Bool := fun _ => true

def noPayload : State → List Byte → List Byte := fun _ _ => []

/-- A command that only answers: the payload is computed from the state, and a refusal of fixed LEN carries it too. -/
def State.mbxGet (op : Half) (payload : State → List Byte) (s : State) : Host.Outcome State Fault Refusal :=
  s.mbxCommand op anyPayload anyPayload (fun s _ => payload s) fun n _ s => (s.drewFree 0x600).respondMbx n mbOk (payload s)

/-- An OPCODE in neither table is refused once it would be served (R342). -/
def execBadOpcodeRequest (s : State) : Host.Outcome State Fault Refusal :=
  match s.nextSlot with
  | some n =>
    if (mbxRow (s.slot n).opcode).isNone then .next (s.respondMbx n (if s.cd.frost then mbNotInFrost else mbBadOpcode) [])
    else .next s
  | none => .next s

/-! ### Rows of time (Table 13.2, R340) -/

def execSlotFillTimeout (slot : Fin 4) (s : State) : Host.Outcome State Fault Refusal :=
  if (s.slot slot).st = .filling then
    .next ((s.until ((s.slot slot).at_ + ms 100)).modSlot slot MbxSlot.freed)
  else .next s

def execSlotDoneExpiry (slot : Fin 4) (s : State) : Host.Outcome State Fault Refusal :=
  if (s.slot slot).st = .done then
    .next (((s.until ((s.slot slot).at_ + ms 1000)).modSlot slot MbxSlot.freed).modCd fun c =>
      { c with mbxExpiries := satAdd c.mbxExpiries 1 })
  else .next s

/-- The moment from which the deadline of a request runs (R340). -/
def State.deadlineFrom (s : State) (n : Fin 4) : Nat :=
  let x := s.slot n
  if s.cd.frost then x.submitAt else max x.submitAt (if mbxEarly x.opcode then s.cd.stone2At else s.cd.stone6At)

def execMailboxDeadlineMissed (slot : Fin 4) (s : State) : Host.Outcome State Fault Refusal :=
  let x := s.slot slot
  if s.regsLive && !s.cd.lastWord && x.st = .busy && !x.missed && !s.heldBack x.opcode then
    let s := (s.until (s.deadlineFrom slot + ms 10)).modSlot slot fun x => { x with missed := true }
    .next (s.cdRaise fMbxDeadline (0x90 + BitVec.ofNat 8 slot.val) (be16 x.opcode))
  else .next s

/-! ### Requests that wait for dies (R353, R361, R367 to R369) -/

def Serving.answer (v : Serving) : HvDie → Option (List Byte) | .la => v.la | .lb => v.lb | .ref => v.ref

def Serving.set (d : HvDie) (a : List Byte) (v : Serving) : Serving :=
  match d with
  | .la => { v with la := some a }
  | .lb => { v with lb := some a }
  | .ref => { v with ref := some a }

/-- A die owes one more answer, and what has been learnt so far is kept. -/
def Serving.wait (d : HvDie) (v : Serving) : Serving :=
  match d with
  | .la => { v with la := none }
  | .lb => { v with lb := none }
  | .ref => { v with ref := none }

def Serving.keep (info : List Byte) (v : Serving) : Serving := { v with info := info }

/-- No die that was asked still owes an answer. -/
def Serving.complete (v : Serving) : Bool := v.la.isSome && v.lb.isSome && v.ref.isSome

/-- RESULT of a die; 0xFF for one that was not addressed or not reached. -/
def dieResult : Option (List Byte) → Byte | some l => if l.isEmpty then 0xFF else byteAt l 1 | none => 0xFF

def tookIt (b : Byte) : Bool := b = resOk || b = resLate

/-- The mailbox RESULT from the RESULTs of the dies that were addressed (R353, R361). -/
def mbxResult (v : List Byte) : Byte :=
  if v.any fun b => b ≠ 0xFF && !tookIt b then mbDieRefused
  else if v.all tookIt then mbOk
  else if v.any tookIt then mbOneDie
  else mbDieAbsent

/-- A COMMAND goes to each die named whose link stands; a die whose link is lost counts as not reached. -/
def State.askDies (n : Fin 4) (op : Half) (info : List Byte) (asks : List (HvDie × List Byte)) (s : State) : State :=
  let owes := fun d : HvDie => if asks.any fun x => x.1 = d && !(s.lend d.cdLink .first).lost then none else some []
  let s' := s.modCd fun c => { c with serving := some ⟨n, op, owes .la, owes .lb, owes .ref, info⟩ }
  asks.foldl (fun t x => if (s.lend x.1.cdLink .first).lost then t else t.sendCommand x.1.cdLink (.mailbox x.1) x.2) s'

end Sys2Proof.Machine
end

