-- ==== Sys2Proof/Machine/LampPage.lean ====
section
/-! DEFINITION. LAMP_STATE page 0 (R365, Table 14.2), which the CD builds from the REPORTs the lamp dies last sent it and from the
register words of Table 12.11, read from the driver while the request is served. -/

namespace Sys2Proof.Machine

def ControlDie.proving (c : ControlDie) : Die → List Byte | .la => c.provingA | .lb => c.provingB

/-- A REPORT as the CD last received it; before the first its fields are free values. -/
def State.lastReport (s : State) (a : Nat) (l : List Byte) : List Byte := if l.isEmpty then s.freeBytes a 16 else l

def State.provingShown (s : State) (d : Die) : List Byte := s.lastReport (if d = .la then 0x20 else 0x30) (s.cd.proving d)

def State.healthShown (s : State) (d : Die) : List Byte := s.lastReport (if d = .la then 0x40 else 0x50) (s.cd.health d)

def State.cdLost (s : State) (d : Die) : Bool := (s.lend d.cdLink .first).lost

/-- PL of a die as its proving REPORT shows it; 1 while the die's CD link is lost. -/
def State.plShown (s : State) (d : Die) : Bool := s.cdLost d || bitOf (byteAt (s.provingShown d) 1) 6

def State.stateShown (s : State) (d : Die) : Byte := if s.cdLost d then 0xFF else byteAt (s.healthShown d) 1

def maskAt (l : List Byte) (i : Nat) : ChMask := (half l i).extractLsb' 0 12

/-- REQ_LIT at the driver, as its DIE_HEALTH gives it. -/
def State.litShown (s : State) (d : Die) : ChMask := maskAt (s.healthShown d) 6

/-- Of the channels required lit that can light, those neither PROVEN nor DARK are QUALIFYING (R181). -/
def State.qualifyingShown (s : State) (d : Die) : ChMask :=
  let p := s.provingShown d
  chMaskOf fun c =>
    inMask (s.litShown d) c && entryLights s.cd.shadow.map[c.val] && !inMask (maskAt p 2) c && !inMask (maskAt p 4) c

/-- The kind of a standing declaration: that of the channel's "lamp dark" record, which stands under either die's SUBJECT (R394); a
free value where the CD holds none. -/
def State.kindShown (s : State) (c : Chan) : BitVec 2 :=
  match s.cd.faults.opened.find? fun r =>
      r.isFor fLampDark.code (chanSubject .la c) || r.isFor fLampDark.code (chanSubject .lb c) with
  | some r => if byteAt r.data 0 = 4 then 3 else (byteAt r.data 0).extractLsb' 0 2
  | none => (s.freeByte (0x60 + c.val)).extractLsb' 0 2

/-- CH of a channel (Table 8.8): STEP and IN_BURST from its STATUS byte (Table 6.8). -/
def State.chShown (s : State) (d : Die) (status : Byte) (c : Chan) : Byte :=
  let p := s.provingShown d
  let dark := inMask (maskAt p 4) c
  let proof : BitVec 2 := if dark then 3 else if inMask (maskAt p 2) c then 2 else if inMask (s.qualifyingShown d) c then 1 else 0
  proof ++ (if dark then s.kindShown c else 0) ++ (status.extractLsb' 3 3 : BitVec 3) ++ (status.extractLsb' 2 1 : BitVec 1)

/-- The last ALARM_SEQ the driver used, as far as its records tell; a free value while the node holds none of them. -/
def State.seqShown (s : State) : Half :=
  match s.ld.ownRecord with | some r => r.seq | none => half (s.freeBytes 0x70 2) 0

/-- What the driver fills: bytes 4 to 35, and bytes 40 to 47. `words` are its registers 0x0004 to 0x0013 and 0x0024 to 0x0033. -/
def State.driverPart (s : State) (words : Option (Die × List Byte)) : List Byte × List Byte :=
  match words with
  | none => (ones 32, ones 8)
  | some (d, w) =>
    let p := s.provingShown d
    (be16 (maskHalf (s.litShown d)) ++ slice p 2 4 ++ be16 (maskHalf (s.qualifyingShown d)) ++ slice p 6 4
      ++ ((List.finRange 12).map fun c => s.chShown d (byteAt w c.val) c) ++ slice p 10 2 ++ be16 s.seqShown ++ slice p 12 4,
     slice w 20 4 ++ slice w 28 4)

/-- Holding and fallback are modes of Table 8.1. A die that the CD has configured since its start has left the Frost set; of another the
CD cannot tell, so the bit is a free value. -/
def State.driverFlags (s : State) (words : Option (Die × List Byte)) : Byte :=
  match words with
  | none => 0x38
  | some (d, _) =>
    let m := byteMode (byteAt (s.healthShown d) 1)
    flag (m = 4) 5 ||| flag (m = 5) 4 ||| (if s.cd.configured &&& hvBit d.hv = 0 then s.freeByte 0x78 &&& 0x08 else 0)

/-- Page 0; `words` are none where no die drives or the driver cannot be reached. -/
def State.lampPage0 (s : State) (words : Option (Die × List Byte)) : List Byte :=
  let part := s.driverPart words
  [0x00, match s.cd.driver with | some d => d.code | none => 0xFF,
   flag (s.plShown .la) 7 ||| flag (s.plShown .lb) 6 ||| s.driverFlags words, 0]
    ++ part.1 ++ [s.stateShown .la, s.stateShown .lb, 0, 0] ++ part.2

/-- The reads of the driver's register words, in the order in which they are sent. -/
def lampReads : List (List Byte) := [cmdRegRead 16 0x04, cmdRegRead 16 0x24]

/-- A request for page 0 that is being served: its four bytes, the driver's code, and the words read so far. -/
def lampDie (info : List Byte) : Die := if byteAt info 4 = Die.code .la then .la else .lb

def lampWords (info : List Byte) : List Byte := info.drop 5

/-- The read that a request for page 0 waits for; none when all have been answered. -/
def lampNext (info : List Byte) : Option (List Byte) := lampReads[(lampWords info).length / 16]?

end Sys2Proof.Machine
end

