-- ==== Sys2Proof/Machine/Ledger.lean ====
section
/-! DEFINITION. The items of the endurance ledger (R427 to R429, Table 16.18), and LEDGER_READ's payload (R376). The store items come
from each lamp die's final record, which the CD reads over the die's CD link. -/

namespace Sys2Proof.Machine

/-! ### The endurance ledger (R427 to R430) -/

/-- exp(x) in units of 2^-40, x in units of 2^-40 and |x| small against 2^16: (1 + x ÷ 2^16)^(2^16). -/
def expFix (x : Int) : Nat :=
  let one : Nat := 1099511627776
  let y : Nat := ((one : Int) + x / 65536).toNat
  (List.range 16).foldl (fun a _ => a * a / one) y

/-- An Arrhenius factor in thousandths: exp(E × (1 ÷ T_ref − 1 ÷ T)), E in tenths of a kelvin, T_ref in hundredths of a
kelvin, the temperature in degrees Celsius (R427). -/
def arrhenius (e10 ref100 : Nat) (tempC : Int) : Nat :=
  let t : Int := tempC * 100 + 27315
  if t ≤ 0 then 0
  else expFix ((e10 : Int) * 10 * (t - ref100) * 1099511627776 / (ref100 * t)) * 1000 / 1099511627776

/-- AF of 0.70 eV referred to 105 °C, and AF₁ of 1.10 eV referred to 85 °C (R427, R431). -/
def wearFactor (tempC : Int) : Nat := arrhenius 81235 37815 tempC

def retentionFactor (tempC : Int) : Nat := arrhenius 127655 35815 tempC

def hundred : Nat := 100000000

/-- a ÷ b of the budget, clamped to 0% to 100%, in units of 10^-8. -/
def consumedOf (a b : Nat) : Nat := if b = 0 then 0 else min hundred (a * hundred / b)

/-- The highest write count of any NVM location: the log's ring and the start counter spread their writes. -/
def Nvm.highestWrites (n : Nvm) : Nat :=
  let w := fun k => n.writes.getD k 0
  [w areaOption, w areaBankA, w areaBankB, w areaBootA, w areaBootB, (w areaLog + 1535) / 1536, (w areaCounter + 63) / 64,
    w areaLedgerA, w areaLedgerB].foldl max 0

/-- The lowest MARGIN of the last 24 powered hours; 0 where the die has reported none. -/
def lowestMargin (l : List (Nat × Nat)) : Nat :=
  match l with
  | [] => 0
  | x :: r => r.foldl (fun a y => min a y.2) x.2

/-- Light proving applies to a channel of the path: LIGHT_ON of the die's last proving REPORT (Table 7.4). -/
def lightApplies (proving : List Byte) : Bool := half proving 6 &&& 0x0FFF ≠ 0

/-- An item: VALUE, CONSUMED in units of 10^-8, and whether it is valid (Table 16.18). -/
structure Wear where
  value : Nat
  consumed : Nat
  valid : Bool
  deriving DecidableEq, Repr

/-- An initial value of a final record as the CD read it; 0 and 0xFFFF stand for a value never measured (log entry 70). -/
def wornHalf (final : List Byte) (i : Nat) : Option Nat :=
  if final.isEmpty || half final i = 0xFFFF || half final i = 0 then none else some (half final i).toNat

def storeC (final : List Byte) : Wear :=
  let c := (half final 12).toNat
  match wornHalf final 16 with
  | some i => ⟨c, consumedOf (i - c) (i / 5), true⟩
  | none => ⟨c, 0, false⟩

def storeEsr (final : List Byte) : Wear :=
  let e := (half final 14).toNat
  match wornHalf final 18 with
  | some i => ⟨e, consumedOf (e - i) i, true⟩
  | none => ⟨e, 0, false⟩

def marginWear (proving : List Byte) (l : List (Nat × Nat)) : Wear :=
  ⟨lowestMargin l, consumedOf (1024 - lowestMargin l) 256, lightApplies proving && !l.isEmpty⟩

/-- The eleven items of Table 14.4 in their order. -/
def State.wear (s : State) : List Wear :=
  let b := s.cd.nvm.ledger.book
  [⟨b.line / 60000, consumedOf b.line (192723 * 60000), true⟩, ⟨b.loc / 60000, consumedOf b.loc (192723 * 60000), true⟩,
   ⟨b.driveA / 60, consumedOf b.driveA (109575 * 60), true⟩, ⟨b.driveB / 60, consumedOf b.driveB (109575 * 60), true⟩,
   ⟨s.cd.nvm.highestWrites, consumedOf s.cd.nvm.highestWrites 10000000, true⟩,
   storeC s.cd.finalA, storeEsr s.cd.finalA, storeC s.cd.finalB, storeEsr s.cd.finalB,
   marginWear s.cd.provingA b.marginA, marginWear s.cd.provingB b.marginB]

/-- The entry of the history from which the rate is taken: the newest that is 2,000 powered hours old, else the oldest. -/
def LedgerBook.base (b : LedgerBook) : Nat × List Nat :=
  match b.history.find? fun h => h.1 + 120000 ≤ b.minutes with
  | some h => h
  | none => b.history.getLast?.getD (0, [])

/-- REMAINING in units of 0.1 year of 8,766 powered hours (R429). -/
def LedgerBook.remaining (b : LedgerBook) (i consumed : Nat) : Nat :=
  let h := b.base
  let grown := consumed - h.2.getD i 0
  if grown = 0 then 65535
  else min 65535 ((hundred - consumed) * (b.minutes - h.1) * 10 / (grown * 8766 * 60))

/-- One entry of LEDGER_READ (R376). -/
def ledgerEntry (b : LedgerBook) (i : Nat) (w : Wear) : List Byte :=
  let rem := b.remaining i w.consumed
  let warn : Bool := 80000000 ≤ w.consumed || rem < 20
  [BitVec.ofNat 8 (i + 1), flag w.valid 7 ||| flag warn 6] ++ be16 (BitVec.ofNat 16 (w.consumed / 10000))
    ++ be16 (BitVec.ofNat 16 rem) ++ [0, 0] ++ be32 (BitVec.ofNat 32 (min w.value 4294967295))

def State.ledgerBytes (s : State) : List Byte :=
  let b := s.cd.nvm.ledger.book
  be32 (BitVec.ofNat 32 (min (b.minutes / 60) 4294967295)) ++ [11, 0, 0, 0]
    ++ (List.range 11).flatMap (fun i => ledgerEntry b i (s.wear.getD i ⟨0, 0, false⟩)) ++ zeros 60

/-! ### The final records as the CD reads them (R251, R428) -/

def cmdFinalRead : List Byte := cmdRegRead 32 0x500

/-- The answer to that read: a record whose CRC passes is kept for the die. -/
def State.takeFinal (d : Die) (answer : List Byte) (s : State) : State :=
  let r := slice answer 4 32
  if byteAt answer 1 = resOk && answer.length = 36 && word r 28 = crc32c (r.take 28) then
    s.modCd fun c => match d with | .la => { c with finalA := r } | .lb => { c with finalB := r }
  else s

end Sys2Proof.Machine
end

