-- ==== Sys2Proof/Machine/MailboxConfig.lean ====
section
/-! DEFINITION. The configuration commands of chapter 13 (Table 13.4): identity, the option block (R344, R351), map and slots, scene and
host lamps, inauguration, lanes and permit, power policy and GPIO. -/

namespace Sys2Proof.Machine

/-! ### Identity (R346) -/

/-- The bank the identity describes: the running one, or in Frost the one last verified. -/
def ControlDie.shownBank (c : ControlDie) : Option Bool := if c.frost then c.lastVerified else c.runningBank

/-- FW_MAJOR, FW_MINOR and FW_BUILD of the bank. -/
def ControlDie.fwBytes (c : ControlDie) : List Byte :=
  match c.shownBank with | some b => imgBytes (c.nvm.bank b) 6 4 | none => ones 4

def State.linkFlags (s : State) : Byte :=
  flag (!(s.lend .cdLa .first).lost) 7 ||| flag (!(s.lend .cdLb .first).lost) 6 ||| flag (!(s.lend .cdRef .first).lost) 5

def State.optValid (s : State) (l : List Byte) : Bool := match s.optCheck l with | .inl _ => true | .inr _ => false

def State.identityBytes (s : State) : List Byte :=
  let l := optBytes s.nvmSeen.option
  [0x08, 0x56, 0xB2, 0] ++ s.cd.fwBytes ++ [0x04, match s.cd.shownBank with | some b => bankCode b | none => 0xFF]
    ++ be48 s.nodeId ++ [flag s.cd.frost 7 ||| flag s.ao.fuseOk 6, s.cd.optState, s.linkFlags, 0]
    ++ be32 (if !optEmpty l && s.optValid l then optSeq l else 0) ++ be32 (if optEmpty l then 0 else word l 16)
    ++ be16 Config.romVersion ++ [0, 0]

def execIdentity (s : State) : Host.Outcome State Fault Refusal := s.mbxGet 0x0001 State.identityBytes

/-! ### The option block (R347 to R350) -/

/-- OFFSET and COUNT of a read or write: multiples of 4, COUNT from 4 to 240, inside an area of `size` bytes. -/
def spanOk (size : Nat) (p : List Byte) : Bool :=
  let o := (word p 0).toNat
  let n := (half p 4).toNat
  o % 4 = 0 && 4 ≤ n && n ≤ 240 && n % 4 = 0 && o + n ≤ size

def execOptRead (s : State) : Host.Outcome State Fault Refusal :=
  s.mbxCommand 0x0010 anyPayload (spanOk 8192) noPayload fun n p s =>
    s.respondMbx n mbOk (fit p 8 ++ s.nvmSeen.option.bytes 0xFF (word p 0).toNat (half p 4).toNat)

def State.slotOwner (s : State) (n : Fin 4) : Writer := (s.slot n).owner.getD .host

def execOptBegin (s : State) : Host.Outcome State Fault Refusal :=
  s.mbxCommand 0x0011 anyPayload anyPayload noPayload fun n _ s =>
    (s.modCd fun c => { c with staging := some (.blank, s.slotOwner n) }).respondMbx n mbOk []

/-- The staging buffer, if the requester owns it (R348). -/
def State.staged (s : State) (n : Fin 4) : Option Mem :=
  match s.cd.staging with
  | some (m, w) => if w = s.slotOwner n then some m else none
  | none => none

def execOptStage (s : State) : Host.Outcome State Fault Refusal :=
  s.mbxCommand 0x0012 anyPayload (fun p => spanOk 8192 p && (half p 4).toNat + 8 = p.length) noPayload fun n p s =>
    match s.staged n with
    | some m =>
      (s.modCd fun c => { c with staging := some (m.fill 0xFF (word p 0).toNat (p.drop 8), s.slotOwner n) }).respondMbx n
        mbOk []
    | none => s.failMbx n mbBadState []

/-- CHECK, index and the SEQ now in NVM. -/
def State.commitBytes (s : State) (check index : Byte) : List Byte :=
  let l := optBytes s.nvmSeen.option
  [check, index, 0, 0] ++ be32 (if optEmpty l then 0 else optSeq l)

/-- The first failing check of R349 before the write: CHECK and the record's index. -/
def State.commitCheck (s : State) (l : List Byte) : Option (Byte × Byte) :=
  match s.optCheck l with
  | .inr e => some e
  | .inl r =>
    match firstBad recordOk r 0 with
    | some i => some (5, i)
    | none =>
      let old := optBytes s.nvmSeen.option
      let crcOk := !optEmpty old && 64 ≤ optLength old && optLength old ≤ 8128 && optLength old % 4 = 0 && optCrcOk old
      if crcOk && !ahead32 (optSeq l) (optSeq old) then some (6, 0xFF) else none

/-- Bytes 0 to LENGTH − 1 and 8,128 to 8,191 of the block; the rest is erased (R349). -/
def optImage (l : List Byte) : Mem :=
  ((Mem.blank.fill 0xFF 0 (l.take (optLength l))).fill 0xFF 8128 (slice l 8128 64))

/-- What a write whose read-back fails leaves is not stated: one byte of the area is a free value. -/
def State.spoil (s : State) (m : Mem) : Mem :=
  m.put 0xFF (Config.freeNat s.freeCount % 8192) (s.freeByte 1)

/-- The option area is written or erased; the read-back passes or fails. -/
def State.writeOption (m : Mem) (ok : Bool) (s : State) : State :=
  (s.drewFree 2).modNvm fun n => { n.wrote areaOption with option := if ok then m else s.spoil m }

def execOptCommit (readBackOk : Bool) (s : State) : Host.Outcome State Fault Refusal :=
  s.mbxCommand 0x0013 anyPayload anyPayload (fun s _ => s.commitBytes 0xFF 0xFF) fun n _ s =>
    match s.staged n with
    | none => s.failMbx n mbBadState (s.commitBytes 0xFF 0xFF)
    | some m =>
      let l := optBytes m
      let s := s.modCd fun c => { c with staging := none }
      match s.commitCheck l with
      | some (c, i) => s.respondMbx n mbBlockInvalid (s.commitBytes c i)
      | none =>
        let s := s.writeOption (optImage l) readBackOk
        if readBackOk && !s.cd.nvm.inReset then s.respondMbx n mbOk (s.commitBytes 0 0xFF)
        else s.respondMbx n mbNvmError (s.commitBytes 7 0xFF)

def execOptErase (readBackOk : Bool) (s : State) : Host.Outcome State Fault Refusal :=
  s.mbxCommand 0x0014 anyPayload (fun p => word p 0 = 0xE5A50B0C) noPayload fun n _ s =>
    (s.writeOption .blank readBackOk).respondMbx n (if readBackOk && !s.cd.nvm.inReset then mbOk else mbNvmError) []

/-! ### Map and slots (R353, R354) -/

/-- EFFECT_CYCLE: 0, or 1 to 80,000 cycles after the node's current cycle. -/
def State.effectOk (s : State) (e : Word) : Bool := e = 0 || (1 ≤ (e - s.cycle32).toNat && (e - s.cycle32).toNat ≤ 80000)

/-- A SET command to both lamp dies with no response yet carries 0xFF for each. -/
def twoDies : List Byte := [0xFF, 0xFF, 0, 0]

def threeDies : List Byte := [0xFF, 0xFF, 0xFF, 0]

def bothLamps (cmd : List Byte) : List (HvDie × List Byte) := [(.la, cmd), (.lb, cmd)]

def mapSetEntry (p : List Byte) : MapEntry := entryOf (p.drop 8)

def slotSetSlot (p : List Byte) : Slot := slotStored (byteAt p 1).toNat (stepsOf p 8)

def State.answerLedger (n : Fin 4) (s : State) : State := s.respondMbx n mbOk s.ledgerBytes

/-- All dies asked have answered or are not reached: the response is written, and the shadow takes the change. LAMP_STATE goes on
with its next read. -/
def State.finishServing (s : State) : State :=
  match s.cd.serving with
  | none => s
  | some v =>
    let a := dieResult v.la
    let b := dieResult v.lb
    let r := dieResult v.ref
    let two := mbxResult [a, b]
    let kept := two = mbOk || two = mbOneDie
    let p := v.info
    let entry := fun (x : Option (List Byte)) (o n : Nat) =>
      if dieResult x = resOk then slice (x.getD []) o n else ones n
    let done := fun (r : Byte) (l : List Byte) (s : State) => s.respondMbx v.slot r l
    if !v.complete then s
    else match v.opcode.toNat with
      | 0x0020 =>
        done two [a, b, 0, 0] (if kept then s.modCd fun c => { c with shadow := { c.shadow with
          map := c.shadow.map.set! (byteAt p 0).toNat (mapSetEntry p) } } else s)
      | 0x0022 =>
        done two [a, b, 0, 0] (if kept then s.modCd fun c => { c with shadow := { c.shadow with
          slots := c.shadow.slots.set! (byteAt p 0).toNat (slotSetSlot p) } } else s)
      | 0x0021 =>
        let valid := fun (x : Option (List Byte)) (k : Nat) =>
          if dieResult x = resOk then flag (bitOf (byteAt (x.getD []) 3) 7) k else flag true k
        done two ([byteAt p 0, valid v.la 7 ||| valid v.lb 6, 0, 0] ++ entry v.la 4 16 ++ entry v.lb 4 16) s
      | 0x0023 =>
        done two ([byteAt p 0, 0, 0, 0] ++ entry v.la 3 1 ++ [0, 0, 0] ++ entry v.la 4 16 ++ entry v.lb 3 1 ++ [0, 0, 0]
          ++ entry v.lb 4 16) s
      | 0x0050 =>
        let asked := (if bitOf (byteAt p 0) 2 then [a, b] else []) ++ (if bitOf (byteAt p 0) 1 then [r] else [])
        let s := if bitOf (byteAt p 0) 2 && (tookIt a || tookIt b) then s.modCd fun c => { c with shadow := { c.shadow with
          store := policyOf (p.drop 4) } } else s
        let s := if bitOf (byteAt p 0) 1 && tookIt r then s.modCd fun c => { c with shadow := { c.shadow with
          ref := byteAt p 2 &&& 0xC0 } } else s
        done (mbxResult asked) [a, b, r, 0] s
      | 0x0100 =>
        let d := lampDie p
        let a := match v.answer d.hv with | some l => l | none => []
        if dieResult (some a) ≠ resOk then (s.drewFree 0x600).respondMbx v.slot mbOk (s.lampPage0 none)
        else
          let got := p ++ slice a 4 16
          match lampNext got with
          | some cmd => (s.modCd fun c => { c with serving := some ((v.wait d.hv).keep got) }).sendCommand d.cdLink (.mailbox d.hv) cmd
          | none => (s.drewFree 0x600).respondMbx v.slot mbOk (s.lampPage0 (some (d, lampWords got)))
      | 0x0170 => ((s.takeFinal .la (v.la.getD [])).takeFinal .lb (v.lb.getD [])).answerLedger v.slot
      | 0x0110 =>
        let d := if byteAt p 8 = 0 then a else b
        done mbOk (slice p 4 4 ++ [d] ++ slice p 9 2 ++ [0]) s
      | 0x0124 =>
        let rep := fit (s.cd.swReport.drop 1) 15 ++ [0] ++ fit (s.cd.ktReport.drop 1) 2 ++ [0, 0]
        if r = 0xFF then done mbDieAbsent (ones 18 ++ [0, 0] ++ rep) s
        else done mbOk (slice (v.ref.getD []) 2 18 ++ [0, 0] ++ rep) s
      | _ => done (if r = resOk then mbOk else if r = 0xFF then mbDieAbsent else mbDieRefused) [r, 0, 0, 0] s

/-- The answer of a die to the request being served, or its absence (an empty answer). -/
def State.dieAnswered (d : HvDie) (a : List Byte) (s : State) : State :=
  (s.modCd fun c => { c with serving := c.serving.map (Serving.set d a) }).finishServing

/-- A request that needs dies: asked, and finished at once where no die can be reached. -/
def State.askAndFinish (n : Fin 4) (info : List Byte) (asks : List (HvDie × List Byte)) (s : State) : State :=
  (s.askDies n (s.slot n).opcode info asks).finishServing

def State.mbxLamps (op : Half) (fieldOk : State → List Byte → Bool) (refused : List Byte → List Byte)
    (cmd : List Byte → List Byte) (s : State) : Host.Outcome State Fault Refusal :=
  s.mbxCommand op anyPayload (fieldOk s) (fun _ p => refused p) fun n p s => s.askAndFinish n p (bothLamps (cmd p))

def execMapSet (s : State) : Host.Outcome State Fault Refusal :=
  s.mbxLamps 0x0020 (fun s p => (byteAt p 0).toNat ≤ 11 && s.effectOk (word p 4) && entryOk (mapSetEntry p))
    (fun _ => twoDies) (fun p => cmdMapWrite (byteAt p 0).toNat (word p 4) (mapSetEntry p))

def execMapGet (s : State) : Host.Outcome State Fault Refusal :=
  s.mbxLamps 0x0021 (fun _ p => (byteAt p 0).toNat ≤ 11) (fun p => [byteAt p 0, 0xC0, 0, 0] ++ ones 32)
    (fun p => cmdMapRead (byteAt p 0).toNat)

def execSlotSet (s : State) : Host.Outcome State Fault Refusal :=
  s.mbxLamps 0x0022
    (fun s p => 1 ≤ (byteAt p 0).toNat && (byteAt p 0).toNat ≤ 15 && s.effectOk (word p 4)
      && slotOk (byteAt p 1).toNat (stepsOf p 8))
    (fun _ => twoDies) (fun p => cmdSlotWrite (byteAt p 0).toNat (word p 4) (slotSetSlot p))

def execSlotGet (s : State) : Host.Outcome State Fault Refusal :=
  s.mbxLamps 0x0023 (fun _ p => (byteAt p 0).toNat ≤ 15)
    (fun p => [byteAt p 0, 0, 0, 0] ++ [0xFF, 0, 0, 0] ++ ones 16 ++ [0xFF, 0, 0, 0] ++ ones 16)
    (fun p => cmdSlotRead (byteAt p 0).toNat)

/-! ### Scene, host lamps and roles (R355 to R357) -/

/-- Reserved bits of a scene are sent as 0. -/
def execSceneSet (s : State) : Host.Outcome State Fault Refusal :=
  s.mbxCommand 0x0024 anyPayload anyPayload (fun _ _ => zeros 4) fun n p s =>
    if s.position = 1 then
      (s.modLd fun l => { l with sceneHost := some (byteAt p 0 &&& 1) }).respondMbx n mbOk [1, 0, 0, 0]
    else s.respondMbx n mbOk (zeros 4)

def State.hostOnBytes (s : State) : List Byte := be16 (maskHalf s.cd.hostOn) ++ [0, 0]

def execLampHost (s : State) : Host.Outcome State Fault Refusal :=
  s.mbxCommand 0x0025 anyPayload anyPayload (fun s _ => s.hostOnBytes) fun n p s =>
    let m : ChMask := (half p 0).extractLsb' 0 12
    let v : ChMask := (half p 2).extractLsb' 0 12
    let s := (s.modCd fun c => { c with hostOn := (c.hostOn &&& ~~~m) ||| (v &&& m) }).sendLit
    s.respondMbx n mbOk s.hostOnBytes

/-- The standing of an end and whether end markers are required lit there (R28, R357). -/
def EndState.roleByte (e : EndState) : Byte := e.standing.code ++ (if e.markerLit then 1#1 else 0#1) ++ 0#5

def State.roleBytes (s : State) : List Byte :=
  be16 (maskHalf s.cd.reqLit) ++ be16 (maskHalf s.cd.hostOn) ++ [(s.vend .fore).roleByte, (s.vend .aft).roleByte]
    ++ be16 s.epoch

def execRoleGet (s : State) : Host.Outcome State Fault Refusal := s.mbxGet 0x0026 State.roleBytes

/-! ### Inauguration options (R358) -/

/-- The LD takes the new options at its next cycle boundary, and evaluates the effective cab again. -/
def execInaugSet (s : State) : Host.Outcome State Fault Refusal :=
  s.mbxCommand 0x0030 anyPayload anyPayload noPayload fun n p s =>
    let b := byteAt p 0 &&& 0xE0
    let s := (s.modCd fun c => { c with shadow := { c.shadow with inaug := b } }).respondMbx n mbOk []
    ((s.until (s.momentOf s.nextBoundary)).modEng fun g => { g with options := b }).engineEvent

def Round.code : Round → Byte | .idle => 0 | .called => 1 | .launched => 2 | .held => 3 | .tailed => 4 | .switching => 5

def State.endByte (s : State) (e : VEnd) : Byte :=
  (s.vend e).verdict.code.extractLsb' 0 3 ++ (s.vend e).standing.code ++ 0#3

def State.inaugBytes (s : State) : List Byte :=
  let g := s.ld.engine
  [g.options, flag s.effectiveCab 7, s.endByte .fore, s.endByte .aft, g.round.code]
    ++ (if g.inputs.isEmpty then s.freeBytes 0 2 else fit g.inputs 2) ++ zeros 5

def execInaugGet (s : State) : Host.Outcome State Fault Refusal := s.mbxGet 0x0031 State.inaugBytes

/-! ### Lanes, local port and permit (R359, R360) -/

/-- The NRZ limits are followed at each lane's next full bring-up. -/
def LineDie.limits (b : Byte) (l : LineDie) : LineDie :=
  { l with
    laneFN := { l.laneFN with nrzLimit := bitOf b 7 }, laneFS := { l.laneFS with nrzLimit := bitOf b 6 },
    laneAN := { l.laneAN with nrzLimit := bitOf b 5 }, laneAS := { l.laneAS with nrzLimit := bitOf b 4 } }

def localBytes (p : List Byte) : List Byte := [byteAt p 0 &&& 0x8F, byteAt p 1 &&& 0x80]

/-- A changed LOCAL_PORT restarts the local port, also while it is off (R359). -/
def execLinkSet (s : State) : Host.Outcome State Fault Refusal :=
  s.mbxCommand 0x0040 anyPayload (fun p => localPortOk (p.drop 1)) noPayload fun n p s =>
    let b := byteAt p 0 &&& 0xF0
    let loc := localBytes (p.drop 1)
    let s := (s.modCd fun c => { c with shadow := { c.shadow with lanes := b, localPort := loc } }).modLd (LineDie.limits b)
    if loc = s.ld.localCfg then s.respondMbx n mbOk []
    else (((s.respondMbx n mbOk []).restartLocal .eth).restartLocal .twin).modLd fun l => { l with localCfg := loc }

def State.linkBytes (s : State) : List Byte := [s.cd.shadow.lanes] ++ fit s.cd.shadow.localPort 2 ++ [0]

def execLinkGet (s : State) : Host.Outcome State Fault Refusal := s.mbxGet 0x0041 State.linkBytes

def execPermitSet (s : State) : Host.Outcome State Fault Refusal :=
  s.mbxCommand 0x0042 anyPayload anyPayload noPayload fun n p s =>
    (s.modCd fun c => { c with shadow := { c.shadow with permit := long p 0 } }).respondMbx n mbOk []

def execPermitGet (s : State) : Host.Outcome State Fault Refusal := s.mbxGet 0x0043 fun s => be64 s.cd.shadow.permit

/-! ### Power policy and GPIO (R361, R362) -/

/-- POWER goes to retained SRAM at once. -/
def State.applyPower (b : Byte) (s : State) : State :=
  s.modCd fun c => { c with
    shadow := { c.shadow with power := b &&& 0x80 }, retained := { c.retained with wakeDefault := bitOf b 7 } }

def applyBits (p : List Byte) : Byte := byteAt p 0 &&& 7

def execPowerPolicySet (s : State) : Host.Outcome State Fault Refusal :=
  s.mbxCommand 0x0050 anyPayload (fun p => applyBits p ≠ 0 && (!bitOf (byteAt p 0) 2 || (policyOf (p.drop 4)).ok))
    (fun _ _ => threeDies) fun n p s =>
      let s := if bitOf (byteAt p 0) 0 then s.applyPower (byteAt p 1) else s
      let ref := if bitOf (byteAt p 0) 1 then [(HvDie.ref, cmdRefConfig (byteAt p 2))] else []
      let lamps := if bitOf (byteAt p 0) 2 then bothLamps (cmdRegWrite 0x40 (policyBytes (policyOf (p.drop 4)))) else []
      s.askAndFinish n p (ref ++ lamps)

def State.policyPayload (s : State) : List Byte :=
  [0, s.cd.shadow.power, s.cd.shadow.ref, 0] ++ policyBytes s.cd.shadow.store

def execPowerPolicyGet (s : State) : Host.Outcome State Fault Refusal := s.mbxGet 0x0051 State.policyPayload

def pinBytes (p : List Byte) : List Byte := (fit p 8).map fun b => b &&& 7

def execGpioSet (s : State) : Host.Outcome State Fault Refusal :=
  s.mbxCommand 0x0060 anyPayload gpioOk noPayload fun n p s =>
    (s.modCd fun c => { c with gpio := pinBytes p, shadow := { c.shadow with gpio := pinBytes p } }).respondMbx n mbOk []

def execGpioGet (s : State) : Host.Outcome State Fault Refusal := s.mbxGet 0x0061 fun s => fit s.cd.gpio 8

end Sys2Proof.Machine
end

