-- ==== Sys2Proof/Machine/Books.lean ====
section
/-! DEFINITION. The books of chapters 15 and 16 that time writes: fault summaries and overflow (R390, R391), the reading of the
fault log (R375, R393), and the endurance ledger (R427 to R431). -/

namespace Sys2Proof.Machine

/-! ### The fault log as FAULT_READ walks it (R375, R393) -/

/-- The locations with their LOG_SEQ, newest first. A torn location stands one above the location before it in the ring;
one with nothing before it has no LOG_SEQ. -/
def logWalk : List LogLoc → List (Word × List Byte)
  | [] => []
  | .valid r :: rest => (r.seq, faultBytes r) :: logWalk rest
  | .torn :: rest =>
    match logWalk rest with
    | [] => []
    | (q, b) :: older => (q + 1, ones 32) :: (q, b) :: older

def isTorn : LogLoc → Bool | .torn => true | .valid _ => false

/-- A torn location after the newest valid record holds no record and is never returned. -/
def Nvm.logRecords (n : Nvm) : List (Word × List Byte) := logWalk (n.log.dropWhile isTorn)

def Nvm.newestSeq (n : Nvm) : Word := match n.logRecords with | (q, _) :: _ => q | [] => 0

/-! ### Summaries and overflow (R390, R391) -/

/-- The summary whose last repeat lies furthest back is written 1.0 s after that repeat. -/
def execFaultSummaryWrite (s : State) : Host.Outcome State Fault Refusal :=
  match s.cd.faults.summaries with
  | (r, t) :: rest =>
    if s.regsLive then
      let s := (s.until (t + ms 1000)).modBook fun b => { b with summaries := rest }
      .next (s.writeSummary r)
    else .next s
  | [] => .next s

/-- The log has room for a record that is not of SEV safety (R391). -/
def State.logRoomAt (s : State) : Nat :=
  let live := s.cd.faults.written.filter fun x => s.now < x.1 + ms 1000
  if live.length < 12 then s.now
  else match live.drop 11 with
    | x :: _ => x.1 + ms 1000
    | [] => s.now

/-- The count of dropped records, as REPEAT and as DATA, goes out as the summary of "fault log overflow" at the first moment the limit allows. -/
def execLogOverflowWrite (s : State) : Host.Outcome State Fault Refusal :=
  if s.regsLive && s.cd.faults.dropped ≠ 0 then
    let s := s.until s.logRoomAt
    let n : Half := BitVec.ofNat 16 (min 65535 s.cd.faults.dropped)
    .next ((s.modBook fun b => { b with dropped := 0 }).writeRec
      (s.faultRec fLogOverflow 2 noSubject 0 s.trainTime n (be16 n)))
  else .next s

/-! ### Rows of the endurance ledger (R428 to R431) -/

def State.modLedger (f : Ledger → Ledger) (s : State) : State := s.modNvm fun n => { n with ledger := f n.ledger }

/-- The CD saw a die in a DRIVING mode, and the MARGIN its last proving REPORT gave (R199). -/
def sawDriving (health : List Byte) : Bool :=
  health ≠ [] && 3 ≤ (byteMode (byteAt health 1)).toNat && (byteMode (byteAt health 1)).toNat ≤ 5

def keepMargin (minute : Nat) (driving : Bool) (proving : List Byte) (l : List (Nat × Nat)) : List (Nat × Nat) :=
  let l := l.filter fun x => minute < x.1 + 1440
  if driving && !proving.isEmpty then (minute, (half proving 10).toNat) :: l else l

/-- The CD reads a die's final record where the die's link stands. -/
def State.readFinal (d : Die) (s : State) : State :=
  if (s.lend d.cdLink .first).lost then s else s.sendCommand d.cdLink (.ledger d) cmdFinalRead

/-- One powered minute at the highest junction temperature of the logic side (R428, R431). The final records are read afresh with
it, outside Frost (log entry 90). -/
def execLedgerSample (junctionC : Int) (s : State) : Host.Outcome State Fault Refusal :=
  if s.regsLive then
    let af := wearFactor junctionC
    let lanes := Port.all.any fun p => (s.lane p).st ≠ .off
    let drives := fun h => !s.cd.frost && sawDriving h
    let s' := s.modLedger fun l => { l with book :=
      let b := l.book
      let m := b.minutes + 1
      { b with
        minutes := m, line := b.line + (if lanes then af else 0), loc := b.loc + (if s.localOn then af else 0),
        driveA := b.driveA + (if drives s.cd.healthA then 1 else 0),
        driveB := b.driveB + (if drives s.cd.healthB then 1 else 0),
        marginA := keepMargin m (sawDriving s.cd.healthA) s.cd.provingA b.marginA,
        marginB := keepMargin m (sawDriving s.cd.healthB) s.cd.provingB b.marginB } }
    let s' := s'.modNvm fun n => { n with retention := n.retention.map fun r => r + retentionFactor junctionC }
    .next (if s.cd.frost then s' else (s'.readFinal .la).readFinal .lb)
  else .next s

/-- The slot whose SEQ is newer, and the next SEQ (R430). -/
def Ledger.newestB (l : Ledger) : Bool :=
  match l.slotA, l.slotB with
  | some (a, _), some (b, _) => newer16 b a
  | none, some _ => true
  | _, _ => false

def Ledger.nextSeq (l : Ledger) : Half :=
  match (if l.newestB then l.slotB else l.slotA) with | some (q, _) => q + 1 | none => 0

/-- Every 24 powered hours the ledger goes to the slot that does not hold the newest copy; CONSUMED joins the history. -/
def execLedgerWrite (s : State) : Host.Outcome State Fault Refusal :=
  let l := s.cd.nvm.ledger
  if s.regsLive && l.writtenAt + 1440 ≤ l.book.minutes then
    let used := s.wear.map (·.consumed)
    let book := { l.book with history := ((l.book.minutes, used) :: l.book.history).take 90 }
    let v := some (l.nextSeq, book)
    let toB := !l.newestB && l.slotA.isSome
    .next (s.modNvm fun n => { n.wrote (if toB then areaLedgerB else areaLedgerA) with ledger :=
      if toB then { l with book := book, writtenAt := book.minutes, slotB := v }
      else { l with book := book, writtenAt := book.minutes, slotA := v } })
  else .next s

/-- After a loss of power the ledger goes on from its newest slot (R430). -/
def Ledger.reload (l : Ledger) : Ledger :=
  match (if l.newestB then l.slotB else l.slotA) with
  | some (_, b) => { l with book := b, writtenAt := b.minutes }
  | none => { l with book := .blank, writtenAt := 0 }

/-- Half of 25 years at 85 °C, in thousandths of a minute. -/
def retentionLimit : Nat := 219150 * 60 * 1000 / 2

/-- An area that has used half its retention is rewritten from a verified copy; a bank only while the other bank passes,
the option area only while its block passes (R431). -/
def execRetentionRewrite (area : Nat) (s : State) : Host.Outcome State Fault Refusal :=
  let n := s.cd.nvm
  let may : Bool :=
    if area = areaOption then s.optValid (optBytes n.option)
    else if area = areaBankA then s.imgCheck n.bankB = 0
    else if area = areaBankB then s.imgCheck n.bankA = 0
    else area < 9
  if s.regsLive && may && retentionLimit ≤ n.retention.getD area 0 then .next (s.modNvm (Nvm.wrote area)) else .next s

end Sys2Proof.Machine
end

