-- ==== Sys2Proof/Machine/MailboxOps.lean ====
section
/-! DEFINITION. The operational and diagnostic commands of chapter 14 (Table 14.1): lamp state and alarms, bursts, redundancy,
power, counters, the eye scan, the fault log and ledger, retained data, and the full reset. -/

namespace Sys2Proof.Machine

/-! ### Lamp state and the train alarm table (R365, R366) -/

/-- Insertion by SRC_ID, ascending. -/
def insertAlarm (e : AlarmEntry) : List AlarmEntry → List AlarmEntry
  | [] => [e]
  | x :: r => if e.srcId.toNat ≤ x.srcId.toNat then e :: x :: r else x :: insertAlarm e r

def sortAlarms (l : List AlarmEntry) : List AlarmEntry := l.foldr insertAlarm []

def State.alarmEntryBytes (s : State) (e : AlarmEntry) : List Byte :=
  be48 e.srcId ++ be16 (BitVec.ofNat 16 (min 65535 ((s.now - e.at_) / ms 1))) ++ alarmBytes e.record

def State.alarmPage (s : State) (page : Nat) : List Byte :=
  let l := ((sortAlarms s.ld.alarms).drop (10 * (page - 1))).take 10
  fit ([BitVec.ofNat 8 page, BitVec.ofNat 8 l.length, BitVec.ofNat 8 s.ld.alarms.length, 0] ++ be32 s.ld.alarmGen
    ++ l.flatMap s.alarmEntryBytes) 248

/-- Page 0 waits for the driver's register words, the alarm table's pages are at hand. -/
def execLampState (s : State) : Host.Outcome State Fault Refusal :=
  s.mbxCommand 0x0100 anyPayload (fun p => (byteAt p 0).toNat ≤ 7) noPayload fun n p s =>
    if byteAt p 0 ≠ 0 then s.respondMbx n mbOk (s.alarmPage (byteAt p 0).toNat)
    else match s.cd.driver with
      | some d => s.askAndFinish n (fit p 4 ++ [d.code]) [(d.hv, cmdRegRead 16 0x04)]
      | none => (s.drewFree 0x600).respondMbx n mbOk (s.lampPage0 none)

/-! ### Bursts (R367) -/

def burstRefused (s : State) : List Byte := s.freeBytes 0 4 ++ [0xFF, 0, 0, 0]

/-- BURST_CYCLE: DELAY cycles on, or one more where its low 32 bits are 0. -/
def State.burstCycleAt (s : State) (delay : Word) : Word := skipZero (s.cycle32 + delay)

def execBurst (s : State) : Host.Outcome State Fault Refusal :=
  s.mbxCommand 0x0110 anyPayload
    (fun p => 1 ≤ (byteAt p 0).toNat && (byteAt p 0).toNat ≤ 15 && 4 ≤ (word p 4).toNat && (word p 4).toNat ≤ 80000)
    (fun s _ => burstRefused s) fun n p s =>
      if s.position = 0 then (s.drewFree 0x600).failMbx n mbBadState (burstRefused s)
      else
        let c := s.burstCycleAt (word p 4)
        let slot : BitVec 4 := (byteAt p 0).extractLsb' 0 4
        let s := s.originateSync (some (slot, c)) s.ld.scene
        let m := s.burstMask
        match s.cd.driver with
        | some d =>
          if m = 0 then s.respondMbx n mbOk (be32 c ++ [0xFF, 0, 0, 0])
          else s.askAndFinish n (fit p 4 ++ be32 c ++ [d.code] ++ be16 (maskHalf m)) [(d.hv, cmdBurst slot c m)]
        | none => s.respondMbx n mbOk (be32 c ++ [0xFF, 0, 0, 0])

/-! ### Redundancy tests (R368, R369) -/

def refRefused : State → List Byte → List Byte := fun _ _ => [0xFF, 0, 0, 0]

def dieNamed (p : List Byte) : Bool := (byteAt p 0).toNat ≤ 1

/-- One REF command for one mailbox command. -/
def State.mbxRef (op : Half) (cmd : List Byte → List Byte) (s : State) : Host.Outcome State Fault Refusal :=
  s.mbxCommand op anyPayload dieNamed refRefused fun n p s => s.askAndFinish n p [(.ref, cmd p)]

def execRedundSwitch (s : State) : Host.Outcome State Fault Refusal := s.mbxRef 0x0120 fun p => cmdDie 0x52 (byteAt p 0)

def execKillTest (s : State) : Host.Outcome State Fault Refusal := s.mbxRef 0x0121 fun p => cmdDie 0x54 (byteAt p 0)

def execKillRelease (s : State) : Host.Outcome State Fault Refusal := s.mbxRef 0x0122 fun p => cmdDie 0x53 (byteAt p 0)

def execPathClear (s : State) : Host.Outcome State Fault Refusal :=
  s.mbxRef 0x0123 fun p => cmdPathClear (byteAt p 0) ((half p 2).extractLsb' 0 12)

def execRedundStatus (s : State) : Host.Outcome State Fault Refusal :=
  s.mbxCommand 0x0124 anyPayload anyPayload
    (fun s _ => ones 18 ++ [0, 0] ++ fit (s.cd.swReport.drop 1) 15 ++ [0] ++ fit (s.cd.ktReport.drop 1) 2 ++ [0, 0])
    fun n p s => s.askAndFinish n p [(.ref, cmdRefStatus)]

/-! ### Power state (R370) -/

def targetPower (b : Byte) : PowerState := if b = 0 then .active else if b = 1 then .lull else .draining

def execPowerSet (s : State) : Host.Outcome State Fault Refusal :=
  s.mbxCommand 0x0130 anyPayload (fun p => (byteAt p 0).toNat ≤ 2) (fun _ _ => zeros 4) fun n p s =>
    let take := s.modLd fun l => { l with ownTarget := some (targetPower (byteAt p 0)), ownAt := s.nextBoundary }
    if s.position = 1 then take.respondMbx n mbOk [1, 0, 0, 0]
    else if s.position ≠ 0 then s.respondMbx n mbOk (zeros 4)
    else if s.ld.power = .active || s.ld.power = .lull then take.respondMbx n mbOk [2, 0, 0, 0]
    else s.failMbx n mbBadState (zeros 4)

/-! ### Counters (R371, Table 14.3) -/

def LaneState.code : LaneState → BitVec 4
  | .off => 0 | .detect => 1 | .acquire => 2 | .train => 3 | .trial => 4 | .verdict => 5 | .up => 6 | .blink => 7
  | .failed => 8

def State.lineStatus (s : State) (p : Port) : Word :=
  let l := s.lane p
  l.st.code ++ (if l.nrz then 1#1 else 0#1) ++ (if (s.port p).fenced then 1#1 else 0#1) ++ 0#2
    ++ BitVec.ofNat 8 (min 255 (s.port p).errcnt) ++ 0#16

def PortCounters.words (c : PortCounters) : List Word :=
  [c.hdrErr, c.fcsErr, c.stomped, c.cwUncorr, c.ttlDrop, c.epochDrop, c.noRoute, c.fencedDrop, c.alarmMerged, c.cwReceived,
   c.cwCorrected, c.symCorrected, c.blinks, c.longestBlink]

def LocalCounters.zero : LocalCounters := ⟨0, 0, 0, 0, 0, 0, 0⟩

def LocalCounters.words (c : LocalCounters) : List Word :=
  [c.linDrop, c.linOversize, c.linFcs, c.linPause, c.loutDrop, c.accepted, c.delivered]

/-- The mode of an interface that is on. -/
def State.localMode (s : State) (i : LocalIf) : BitVec 3 :=
  if !s.ifaceOn i then 0
  else match i with
    | .twin => 5
    | .eth => s.ethMode

def State.localStatus (s : State) (i : LocalIf) : Word :=
  (if s.ifaceOn i then 1#1 else 0#1) ++ s.localMode i ++ (0 : BitVec 28)

def portOfCode (b : Byte) : Port := if b = 0 then .foreNear else if b = 1 then .foreSkip else if b = 2 then .aftNear else .aftSkip

def groupOk (b : Byte) : Bool := b.toNat ≤ 3 || b = 0x10 || b = 0x11 || b = 0x20

/-- STATUS and counters of a group, sampled at one instant. -/
def State.groupWords (s : State) (g : Byte) : List Word :=
  if g.toNat ≤ 3 then s.lineStatus (portOfCode g) :: (s.port (portOfCode g)).counters.words
  else if g = 0x10 then s.localStatus .eth :: s.ld.eth.counters.words
  else if g = 0x11 then s.localStatus .twin :: s.ld.twin.counters.words
  else [0, s.ld.mgmtqDrop, s.ld.macRefused, BitVec.ofNat 32 s.ld.mac.length, s.cd.mbxExpiries, s.ld.engine.frontsRejected]

/-- CLEAR sets the group's counters to 0 at the instant of the sample, but no gauge. -/
def State.clearGroup (g : Byte) (s : State) : State :=
  if g.toNat ≤ 3 then s.modCounters (portOfCode g) fun _ => .zero
  else if g = 0x10 then s.modLocalCounters .eth fun _ => .zero
  else if g = 0x11 then s.modLocalCounters .twin fun _ => .zero
  else ((s.modLd fun l => { l with mgmtqDrop := 0, macRefused := 0 }).modCd fun c => { c with mbxExpiries := 0 }).modEng
    fun g => { g with frontsRejected := 0 }

def execCounterRead (s : State) : Host.Outcome State Fault Refusal :=
  s.mbxCommand 0x0140 anyPayload (fun p => groupOk (byteAt p 0)) noPayload fun n p s =>
    let clr := bitOf (byteAt p 1) 0
    let l := [byteAt p 0, flag clr 0, 0, 0] ++ (s.groupWords (byteAt p 0)).flatMap be32
    (if clr then s.clearGroup (byteAt p 0) else s).respondMbx n mbOk l

/-! ### Eye scan (R372 to R374) -/

def dwellUi (d : Nat) : Nat := if d = 0 then 1000000 else if d = 1 then 10000000 else 100000000

/-- The bound of R81 in ms, rounded up. -/
def scanBoundMs (nrz : Bool) (dwell : Nat) : Nat := (gridOf nrz * dwellUi dwell * 11 + 281249999) / 281250000

def execEyeScanStart (s : State) : Host.Outcome State Fault Refusal :=
  s.mbxCommand 0x0150 anyPayload
    (fun p => (byteAt p 0).toNat ≤ 3 && (byteAt p 1).toNat ≤ 2 && 4 ≤ (byteAt p 2).toNat && (byteAt p 2).toNat ≤ 6)
    (fun s _ => s.freeBytes 0 4) fun n p s =>
      let q := portOfCode (byteAt p 0)
      if !s.laneUp q || s.ld.eye.st = 1 then (s.drewFree 4).failMbx n mbBadState (s.freeBytes 0 4)
      else
        let nrz := (s.lane q).nrz
        (s.modLd fun l => { l with eye := ⟨1, q, nrz, (byteAt p 1).toNat, (byteAt p 2).toNat, [], 0⟩ }).respondMbx n mbOk
          (be32 (BitVec.ofNat 32 (scanBoundMs nrz (byteAt p 1).toNat)))

/-- Whether the point of an eye at a voltage and a phase index (from the grid's corner) passes. -/
def EyeScan.passes (e : EyeScan) (eye v p : Nat) : Bool :=
  let i := eye * 8128 + v * 64 + p
  i < e.measured && (e.counts.getD i 0).toNat * 10 ^ e.ber ≤ dwellUi e.dwell

/-- Length of the unbroken run that contains the centre: toward lower indices and toward higher ones. -/
def runThrough (f : Nat → Bool) (centre top : Nat) : Nat :=
  if f centre then
    ((List.range centre).reverse.takeWhile f).length + (((List.range (top - centre)).map (· + centre)).takeWhile f).length
  else 0

def EyeScan.eyeBytes (e : EyeScan) (eye : Nat) : List Byte :=
  if e.st = 2 then
    be16 (BitVec.ofNat 16 (2 * runThrough (fun v => e.passes eye v 32) 63 127))
      ++ [BitVec.ofNat 8 (runThrough (fun p => e.passes eye 63 p) 32 64), 0]
  else zeros 4

def EyeScan.resultBytes (e : EyeScan) : List Byte :=
  [BitVec.ofNat 8 e.st, e.lane.code, flag e.nrz 0, BitVec.ofNat 4 e.dwell ++ BitVec.ofNat 4 e.ber]
    ++ be16 (BitVec.ofNat 16 e.measured) ++ be16 (BitVec.ofNat 16 (gridOf e.nrz))
    ++ (if e.nrz then zeros 4 ++ e.eyeBytes 0 ++ zeros 4 else e.eyeBytes 0 ++ e.eyeBytes 1 ++ e.eyeBytes 2) ++ zeros 4

def execEyeScanResult (s : State) : Host.Outcome State Fault Refusal := s.mbxGet 0x0151 fun s => s.ld.eye.resultBytes

/-- The grid of the last scan; a node that has made none has no point. -/
def EyeScan.grid (e : EyeScan) : Nat := if e.st = 0 then 0 else gridOf e.nrz

def execEyeScanPoints (s : State) : Host.Outcome State Fault Refusal :=
  s.mbxCommand 0x0152 anyPayload
    (fun p => 1 ≤ (byteAt p 2).toNat && (byteAt p 2).toNat ≤ 60 && (half p 0).toNat + (byteAt p 2).toNat ≤ s.ld.eye.grid)
    noPayload fun n p s =>
      let e := s.ld.eye
      let first := (half p 0).toNat
      s.respondMbx n mbOk (fit p 4 ++ (List.range (byteAt p 2).toNat).flatMap fun i =>
        be32 (if first + i < e.measured then e.counts.getD (first + i) 0 else 0))

/-! ### Fault log and ledger (R375, R376) -/

def newestFrom (w : Word) : Bool := w = 0xFFFFFFFF

def execFaultRead (s : State) : Host.Outcome State Fault Refusal :=
  s.mbxCommand 0x0160 anyPayload
    (fun p => 1 ≤ (byteAt p 4).toNat && (byteAt p 4).toNat ≤ 7
      && (newestFrom (word p 0) || !ahead32 (word p 0) s.nvmSeen.newestSeq)) noPayload fun n p s =>
      let l := s.nvmSeen.logRecords
      let from_ := if newestFrom (word p 0) then s.nvmSeen.newestSeq else word p 0
      let r := (l.filter fun x => !ahead32 x.1 from_).take (byteAt p 4).toNat
      s.respondMbx n mbOk (be32 s.nvmSeen.newestSeq ++ [BitVec.ofNat 8 r.length, 0, 0, 0] ++ r.flatMap (·.2))

/-- Outside Frost the final records are read for the answer; recovery firmware answers from what the CD holds. -/
def execLedgerRead (s : State) : Host.Outcome State Fault Refusal :=
  s.mbxCommand 0x0170 anyPayload anyPayload (fun s _ => s.ledgerBytes) fun n _ s =>
    if s.cd.frost then s.answerLedger n else s.askAndFinish n [] (bothLamps cmdFinalRead)

/-! ### Retained host data (R377) -/

def retainedSpan (p : List Byte) : Bool :=
  let o := (half p 0).toNat
  let n := (byteAt p 2).toNat
  o % 4 = 0 && o ≤ 2040 && 4 ≤ n && n ≤ 240 && n % 4 = 0 && o + n ≤ 2044

def execRetainedRead (s : State) : Host.Outcome State Fault Refusal :=
  s.mbxCommand 0x0180 anyPayload retainedSpan noPayload fun n p s =>
    s.respondMbx n mbOk (fit p 4 ++ s.cd.retained.host.bytes 0 (half p 0).toNat (byteAt p 2).toNat)

/-- The data and the region's CRC are written in one step; the CRC follows from the data. -/
def execRetainedWrite (s : State) : Host.Outcome State Fault Refusal :=
  s.mbxCommand 0x0181 (fun p => p.length = 4 + (byteAt p 2).toNat) retainedSpan noPayload fun n p s =>
    let m := s.cd.retained.host.fill 0 (half p 0).toNat (p.drop 4)
    (s.modCd fun c => { c with retained := { c.retained with host := m } }).respondMbx n mbOk []

/-! ### Full reset (R378) -/

def execFullReset (s : State) : Host.Outcome State Fault Refusal :=
  s.mbxCommand 0x0190 anyPayload (fun p => word p 0 = 0xB856F0F0) noPayload fun n _ s =>
    (s.respondMbx n mbOk []).modCd fun c => { c with fullReset := some (n, s.now) }

/-- 20 ms after the response the reset of source 0x4 begins, whatever the owner does. -/
def execFullResetTimeout (s : State) : Host.Outcome State Fault Refusal :=
  match s.cd.fullReset with
  | some (_, t) => if s.regsLive then .next ((s.until (t + ms 20)).fullResetFrom 4) else .next s
  | none => .next s

end Sys2Proof.Machine
end

