-- ==== Sys2Proof/Machine/Firmware.lean ====
section
/-! DEFINITION. The firmware commands of chapter 14 (R385 to R387) and what the CD does at milestone 0x06 (R381, R384). -/

namespace Sys2Proof.Machine

/-! ### Banks -/

def Nvm.setBank (b : Bool) (m : Mem) (n : Nvm) : Nvm :=
  if b then { n.wrote areaBankB with bankB := m } else { n.wrote areaBankA with bankA := m }

def wordErased (m : Mem) (a : Nat) : Bool := m.bytes 0xFF a 4 = ones 4

/-- One word is programmed: an erased word takes it; one already written keeps it only when it is equal, and else its
content is a free value. -/
def programWord (free : Word) (a : Nat) (w : List Byte) (m : Mem) : Mem :=
  if wordErased m a || m.bytes 0xFF a 4 = w then m.fill 0xFF a w else m.fill 0xFF a (be32 free)

/-- The words of a FW_WRITE are programmed in order. -/
def State.programBank (s : State) (m : Mem) (a : Nat) (data : List Byte) : Mem :=
  (List.range (data.length / 4)).foldl (fun m i =>
    programWord (Config.freeWord (s.freeCount + i)) (a + 4 * i) (slice data (4 * i) 4) m) m

/-- The read-back passes where every word was erased, or held this very data. -/
def readsBack (m : Mem) (a : Nat) (data : List Byte) : Bool :=
  (List.range (data.length / 4)).all fun i =>
    wordErased m (a + 4 * i) || m.bytes 0xFF (a + 4 * i) 4 = slice data (4 * i) 4

/-- A trial set for a bank is cleared. -/
def State.clearTrial (b : Bool) (s : State) : State :=
  if s.nvmSeen.boot.trial = some b then s.modNvm (Nvm.writeBoot { s.nvmSeen.boot with trial := none }) else s

/-! ### The update commands (R385, R386) -/

def fwLoadBank (p : List Byte) : Bool := byteAt p 0 = 1

def execFwBegin (s : State) : Host.Outcome State Fault Refusal :=
  s.mbxCommand 0x01A0 anyPayload (fun p => (byteAt p 0).toNat ≤ 1) noPayload fun n p s =>
    let b := fwLoadBank p
    if !s.cd.frost && s.cd.runningBank = some b then s.failMbx n mbBadState []
    else
      let s := (s.modNvm (Nvm.setBank b .blank)).clearTrial b
      (s.modCd fun c => { c with fw := ⟨.loading, b, 0xFF, some (s.slotOwner n), 0, none⟩ }).respondMbx n mbOk []

/-- The requester is the update owner of a load begun since the last start. -/
def State.fwOwned (s : State) (n : Fin 4) : Bool := s.cd.fw.owner = some (s.slotOwner n) && s.cd.fw.st ≠ .idle

def fwSpan (p : List Byte) : Bool := spanOk 98304 p && (word p 0).toNat ≤ 98300

/-- A FW_WRITE after a check returns the state to LOADING. -/
def FwUpdate.reload (f : FwUpdate) : FwUpdate :=
  match f.st with
  | .verified => { f with st := .loading, check := 0xFF, verifiedInfo := none }
  | .failed => { f with st := .loading, check := 0xFF, verifiedInfo := none }
  | .activated => { f with st := .loading, check := 0xFF, verifiedInfo := none }
  | _ => f

def execFwWrite (s : State) : Host.Outcome State Fault Refusal :=
  s.mbxCommand 0x01A1 (fun p => p.length = 8 + (half p 4).toNat) fwSpan noPayload fun n p s =>
    if !s.fwOwned n then s.failMbx n mbBadState []
    else
      let f := s.cd.fw
      let s := if f.st = .activated then s.clearTrial f.bankB else s
      let m := s.nvmSeen.bank f.bankB
      let a := (word p 0).toNat
      let data := p.drop 8
      let ok := readsBack m a data && !s.cd.nvm.inReset
      let s' := (s.modNvm (Nvm.setBank f.bankB (s.programBank m a data))).drewFree 60
      (s'.modCd fun c => { c with fw := { f.reload with
        written := if ok then f.written + BitVec.ofNat 32 data.length else f.written } }).respondMbx n
          (if ok then mbOk else mbNvmError) []

def execFwVerify (s : State) : Host.Outcome State Fault Refusal :=
  s.mbxCommand 0x01A2 anyPayload anyPayload noPayload fun n _ s =>
    if s.fwOwned n && s.cd.fw.st = .loading then
      (s.modCd fun c => { c with fw := { c.fw with st := .verifying } }).respondMbx n mbOk []
    else s.failMbx n mbBadState []

/-- The check of Table 14.6 has finished (R386). -/
def execFwVerifyDone (s : State) : Host.Outcome State Fault Refusal :=
  let f := s.cd.fw
  if s.regsLive && f.st = .verifying then
    let m := s.nvmSeen.bank f.bankB
    let c := s.imgCheck m
    .next (s.modCd fun x => { x with
      fw := { f with st := if c = 0 then .verified else .failed, check := c, verifiedInfo := some (imgBytes m 6 5) },
      lastVerified := if c = 0 then some f.bankB else x.lastVerified })
  else .next s

def FwState.code : FwState → Byte
  | .idle => 0 | .loading => 1 | .verifying => 2 | .verified => 3 | .failed => 4 | .activated => 5

def State.fwStatusBytes (s : State) : List Byte :=
  let f := s.cd.fw
  let b := s.nvmSeen.boot
  [f.st.code, f.check, if f.st = .idle then 0xFF else bankCode f.bankB, BitVec.ofNat 8 s.rbFused]
    ++ (match f.verifiedInfo with | some l => fit l 5 | none => ones 5)
    ++ [bankCode b.primaryB, trialCode b.trial, if b.tried then 1 else 0] ++ be32 f.written

def execFwStatus (s : State) : Host.Outcome State Fault Refusal := s.mbxGet 0x01A3 State.fwStatusBytes

def execFwActivate (s : State) : Host.Outcome State Fault Refusal :=
  s.mbxCommand 0x01A4 anyPayload (fun p => word p 0 = 0xB856A5A5) noPayload fun n _ s =>
    if s.fwOwned n && s.cd.fw.st = .verified then
      let b := s.cd.fw.bankB
      let s := s.modNvm (Nvm.writeBoot { s.nvmSeen.boot with trial := some b, tried := false })
      (s.modCd fun c => { c with fw := { c.fw with st := .activated } }).respondMbx n mbOk []
    else s.failMbx n mbBadState []

/-! ### Milestone 0x06 (R381, R384) -/

/-- The boot record names the running bank as primary, with no trial; it is written only where it differs. -/
def State.settleBoot (s : State) : State :=
  match s.cd.runningBank with
  | some b =>
    let r := s.nvmSeen.boot
    if r.primaryB = b && r.trial.isNone then s
    else s.modNvm (Nvm.writeBoot { r with primaryB := b, trial := none, tried := false })
  | none => s

/-- ROLLBACK advances to the running image's RB_VER, lowest bit first. A bit that fails to program stops nothing else: it
raises "rollback fuse not advanced" with its number in the fuse map. -/
def State.advanceRollback (programOk : Bool) (s : State) : State :=
  match s.cd.runningBank with
  | some b =>
    let old := s.rbFused
    let ver := imgRbVer (s.nvmSeen.bank b)
    if ver ≤ old then s
    else if programOk then
      s.modAo fun a => { a with
        fuses := (List.range (ver - old)).foldl (fun l i => programBit l (768 + old + i)) a.fuses }
    else s.cdRaise fRollback noSubject (be16 (BitVec.ofNat 16 (768 + old)))
  | none => s

end Sys2Proof.Machine
end

