-- ==== Sys2Proof/Machine/Answers.lean ====
section
/-! DEFINITION. What comes back over the CD links: RESPONSEs for their issuers, the repeats of an unanswered COMMAND (R46,
R48), and the dies' fault REPORTs (R392). -/

namespace Sys2Proof.Machine

/-! ### The answer to a COMMAND, by its issuer (R46) -/

/-- The bridge's next step for a far read of an own die: the next piece, the whole data, or the first failure (R326, R327). -/
def State.bridgeAnswered (t : Fin 8) (d : HvDie) (a : List Byte) (s : State) : State :=
  let x := s.cd.tags[t.val]
  if x.st ≠ .fetching then s
  else match x.parts with
    | (_, n) :: rest =>
      if byteAt a 1 = resOk then
        let data := x.data ++ slice a 4 n
        if rest.isEmpty then s.holdTag t rcOk data
        else (s.modTag t fun x => { x with data := data, parts := rest }).sendPart d (.bridge t) rest
      else s.holdTag t (if byteAt a 1 = resBadField then rcBadAddress else rcTargetError) []
    | [] => s

/-- The same for a MGMT request being served; RESULT OK, BAD_FIELD and every other RESULT give 0x00, 0x02 and 0x03 (R329). -/
def State.responderAnswered (a : List Byte) (s : State) : State :=
  match s.cd.responding with
  | some v =>
    let done := fun (r : Byte) (data : List Byte) =>
      (s.modCd fun c => { c with responding := none }).respond v.src v.req r data
    match v.parts with
    | (_, n) :: rest =>
      if byteAt a 1 = resOk then
        let data := v.data ++ slice a 4 n
        if rest.isEmpty then done 0 data
        else (s.modCd fun c => { c with responding := some { v with data := data, parts := rest } }).sendPart v.die
          (.responder v.die) rest
      else done (if byteAt a 1 = resBadField then 2 else 3) []
    | [] => s
  | none => s

/-- A RESPONSE completes a COMMAND for the function that issued it. A die that took a commit LATE is reported (R176). -/
def State.issuerAnswered (d : HvDie) (o : OpenCommand) (a : List Byte) (s : State) : State :=
  match o.issuer with
  | .mailbox x => s.dieAnswered x a
  | .bridge t => s.bridgeAnswered t d a
  | .responder _ => s.responderAnswered a
  | .config x => s.configAnswer x a
  | .commit => if byteAt a 1 = resLate then s.cdRaise fRoleLate noSubject (slice o.payload 4 4) else s
  | .ledger x => s.takeFinal x a
  | .plain => s

/-- A COMMAND has failed: after its third try, or with the reset of its endpoint (R46, R290, R327, R329). -/
def State.issuerFailed (o : OpenCommand) (s : State) : State :=
  match o.issuer with
  | .mailbox d => s.dieAnswered d []
  | .bridge t => if (s.cd.tags[t.val]).st = .fetching then s.holdTag t rcTargetError [] else s
  | .responder _ =>
    match s.cd.responding with
    | some v => (s.modCd fun c => { c with responding := none }).respond v.src v.req 3 []
    | none => s
  | .config d => s.modCd (ControlDie.setCfg d [])
  | .commit => s
  | .ledger _ => s
  | .plain => s

def isCdLink : FLink → Bool | .cdLa => true | .cdLb => true | .cdRef => true | _ => false

def OpenCommand.hasSeq (seq : Byte) (o : OpenCommand) : Bool := o.seq = seq

def State.closeCommand (l : FLink) (seq : Byte) (s : State) : State :=
  s.modEnd l .first fun x => { x with opened := dropFirst (OpenCommand.hasSeq seq) x.opened }

/-- A RESPONSE arrives at the CD. One that answers no open COMMAND, or is too short to carry a RESULT, completes nothing. -/
def State.cdResponse (l : FLink) (seq : Byte) (payload : List Byte) (s : State) : State :=
  match (s.lend l .first).opened.find? (OpenCommand.hasSeq seq) with
  | some o => if payload.length < 2 then s else (s.closeCommand l seq).issuerAnswered l.hv o payload
  | none => s

/-- A RESPONSE arrives at a high-voltage die: it acknowledges an ALARM (R48) or a fault REPORT (R392). -/
def State.dieResponse (l : FLink) (seq : Byte) (s : State) : State :=
  let kept := fun q : List DieReport => q.filter fun r => r.linkSeq ≠ seq
  match station l .second with
  | .lamp d => s.modDie d fun x => { x with
      unacked := match x.unacked with | some (r, q) => if q = seq then none else some (r, q) | none => none,
      reports := kept x.reports }
  | .ref => s.modRef fun r => { r with reports := kept r.reports }
  | _ => s

def execResponseReceived (l : FLink) (e : LEnd) (seq : Byte) (payload : List Byte) (s : State) :
    Host.Outcome State Fault Refusal :=
  if !(s.lend l e).running then .next s
  else if !isCdLink l then .next (s.discardFrame l e)
  else
    let s := s.heard l e
    .next (match e with | .first => s.cdResponse l seq payload | .second => s.dieResponse l seq)

/-- 100 µs without a RESPONSE: the COMMAND goes out again with its SEQ, or fails after the third try. -/
def execCommandRetryTimeout (l : FLink) (seq : Byte) (s : State) : Host.Outcome State Fault Refusal :=
  let x := s.lend l .first
  match x.opened.find? (OpenCommand.hasSeq seq) with
  | some o =>
    if !x.running then .next s
    else
      let s := s.until (o.sentAt + us 100)
      if o.tries < 3 then
        .next ((s.putLink l .first seq (.command o.payload)).modEnd l .first fun x => { x with
          opened := x.opened.map fun y => if y.seq = seq then { y with tries := y.tries + 1, sentAt := x.eofAt l } else y })
      else .next ((s.closeCommand l seq).issuerFailed o)
  | none => .next s

/-! ### Fault REPORTs (R392, R393) -/

/-- The full TT of a stamp of 16 bits in µs: the train time nearest the CD's own that carries the stamp (DEDUCED, log entry 89). -/
def stampedTime (now : TrainTime) (stamp : Half) : TrainTime :=
  let us := now.toNat / 1000
  BitVec.ofInt 64 ((us + (stamp - BitVec.ofNat 16 us).toInt) * 1000)

/-- The row of Table 15.3 as a REPORT names it; whether it is a condition follows from the catalogue. -/
def conditionCodes : List FaultDef :=
  [fLampDark, fOvercurrent, fUncalibrated, fLightView, fMarginLow, fLinkLost, fLevelSilent, fMirrorLost, fMirrorDisagrees,
   fControlLost, fTimeLinkLost, fLinkErrors, fDieFailed, fDieLost, fStandby, fRefLost, fNoDriver, fFeedLost, fOverdrawn,
   fStoreLow, fEsrHigh, fPowerUnder, fStoreSmall]

def reportDef (code : Half) (sev : BitVec 2) : FaultDef := ⟨code, conditionCodes.any (fun f => f.code = code), sev⟩

/-- The condition a cleared REPORT names. A lamp-dark condition is cleared by either die's record (R394). -/
def State.reportSubject (s : State) (code : Half) (subject : Byte) : Byte :=
  if code = fLampDark.code && !s.condOpen code subject && s.condOpen code (subject ^^^ 0x80) then subject ^^^ 0x80 else subject

/-- SOURCE of the die (Table 15.1) is its own SUBJECT. The CD writes the record; a cleared REPORT for a condition that is not
open is written as a raise and a clear. On "mirror disagrees" it writes map and slots to both dies again (R224). -/
def State.takeReport (d : HvDie) (p : List Byte) (s : State) : State :=
  let event := (byteAt p 1).extractLsb' 6 2
  let f := reportDef (half p 2) ((byteAt p 1).extractLsb' 4 2)
  let sub := byteAt p 4
  let rep := half p 6
  let data := slice p 8 6
  let tt := stampedTime s.trainTime (half p 14)
  if event = 1 then
    let sub := s.reportSubject f.code sub
    if s.condOpen f.code sub then s.cdClearFrom d.subject tt f sub
    else (s.writeRec (s.faultRec f 0 sub d.subject tt rep data)).writeRec (s.faultRec f 1 sub d.subject tt rep data)
  else
    let s := s.cdRaiseFrom d.subject tt rep f sub data
    if f.code = fMirrorDisagrees.code && !s.cd.frost then s.rewriteMaps else s

/-- The CD answers the REPORT with a RESPONSE of its SEQ. A CD whose processor does not run takes none, so the die keeps it. -/
def execFaultReportReceived (d : HvDie) (seq : Byte) (payload : List Byte) (s : State) : Host.Outcome State Fault Refusal :=
  if s.regsLive then
    s.cdReport d.cdLink 0x30 payload fun s => (s.answerLink d.cdLink .first seq []).takeReport d payload
  else .next s

end Sys2Proof.Machine
end

