-- ==== Sys2Proof/Machine/Reset.lean ====
section
/-! DEFINITION. The rows of chapter 11, and LAST_WORD_RETURN of chapter 9: the reset sources (R274 to R281), the release of the
islands (R285 to R288), block resets (R289, R290), starts (R293 to R297), the choice of firmware (R383), option loading
(R298 to R300) and Frost (R303, R304). -/

namespace Sys2Proof.Machine

/-! ### An NVM write that is cut short (R290, R297, R382, R393, R430) -/

/-- A start-counter entry that fails its CHECK: a free value, or 0 where that one would not. -/
def tornEntry (free : Word) : Word := if entryTorn free then free else 0

/-- The last location written holds undefined data: one byte of an option or firmware area, a torn record, a failed CRC. -/
def Nvm.cutWrite (freeAt : Nat) (freeByte : Byte) (freeEntry : Word) (n : Nvm) : Nvm :=
  match n.lastArea with
  | some 0 => { n with option := n.option.put 0xFF (freeAt % 8192) freeByte }
  | some 1 => { n with bankA := n.bankA.put 0xFF (freeAt % 98304) freeByte }
  | some 2 => { n with bankB := n.bankB.put 0xFF (freeAt % 98304) freeByte }
  | some 3 => { n with bootA := n.bootA.map fun r => { r with crcOk := false } }
  | some 4 => { n with bootB := n.bootB.map fun r => { r with crcOk := false } }
  | some 5 => { n with log := match n.log with | _ :: r => .torn :: r | [] => [] }
  | some 6 => { n with counter := match counterAt n.counter with
      | some i => n.counter.set i.val (tornEntry freeEntry)
      | none => n.counter }
  | some 7 => { n with ledger := { n.ledger with slotA := none } }
  | some _ => { n with ledger := { n.ledger with slotB := none } }
  | none => n

/-- Power or the controller fails in the middle of the last write, if `cut` says so. -/
def State.cutNvm (cut : Bool) (s : State) : State :=
  if cut then
    (s.drewFree 3).modCd fun c => { c with nvm :=
      (c.nvm.cutWrite (Config.freeNat s.freeCount) (s.freeByte 1) (Config.freeWord (s.freeCount + 2))) }
  else s

/-! ### Reset sources (Table 11.2) -/

/-- At the first sensing the lamp dies hold their own copies of the same fuse order (R283). -/
def State.fuseDies (first : Bool) (s : State) : State :=
  if first then { s with la := s.la.fused s.ao.fuses, lb := s.lb.fused s.ao.fuses } else s

/-- VIN_L below 2.00 V, or the always-on island's regulator out of range; the array is sensed again. -/
def execPor (vinMv : Nat) (regulatorBad : Bool) (fuses : List Byte) (cut : Bool) (s : State) : Host.Outcome State Fault Refusal :=
  if vinMv < 2000 || regulatorBad then
    let first := s.ao.fuses.isEmpty
    let s := ((s.cutNvm cut).enterReset 0 0).modAo fun a => { a with fuses := fit fuses 256, thermalSeen := false }
    .next (s.fuseDies first)
  else .next s

/-- VIN_L at 2.40 V or less for 5 µs. -/
def execBrownoutReset (vinMv heldNs : Nat) (cut : Bool) (s : State) : Host.Outcome State Fault Refusal :=
  if vinMv ≤ 2400 && us 5 ≤ heldNs then .next ((s.cutNvm cut).requestReset 1 (s.sourceLevel 1)) else .next s

/-- An assertion of RST_N begins a reset that is held while RST_N stays asserted; in the last-word window the request is dropped (R280). -/
def State.assertRst (s : State) : State :=
  if s.cd.lastWord then s
  else (s.fullResetFrom 2).modAo fun a => { a with reset := { a.reset with holdRst := true } }

/-- An assertion of 10 µs or longer always is a reset and one shorter than 1 µs never is; between the two the filter's answer is a free
value (R276). -/
def execRstNReset (heldNs : Nat) (s : State) : Host.Outcome State Fault Refusal :=
  if us 10 ≤ heldNs then .next s.assertRst
  else if heldNs < us 1 then .next s
  else .next (if Config.freeBool s.freeCount then (s.drewFree 1).assertRst else s.drewFree 1)

/-- The release sequence begins; its bounds are measured from here (R287). -/
def execRstNRelease (s : State) : Host.Outcome State Fault Refusal :=
  if s.ao.reset.holdRst then
    .next (s.modAo fun a => { a with reset := { a.reset with holdRst := false, at_ := s.now } })
  else .next s

/-- The moment at which the watchdog expires: the start deadline, or 100 ms without service (R278, R296). -/
def State.watchdogAt (s : State) : Nat := if s.cd.milestone.toNat < 6 then s.cd.startAt + ms 5000 else s.now + ms 100

def execWatchdogExpiry (s : State) : Host.Outcome State Fault Refusal :=
  if s.regsLive && !s.cd.frost then .next ((s.until s.watchdogAt).requestReset 3 (s.sourceLevel 3)) else .next s

/-- A sensor at 135 °C or more for 100 µs (R275, R423). The reset is held until every sensor reads 115 °C or less (R277). -/
def execThermalTrip (sensorsC : List Int) (heldNs : Nat) (s : State) : Host.Outcome State Fault Refusal :=
  if s.cd.lastWord || !(sensorsC.any fun t => decide (135 ≤ t)) || heldNs < us 100 then .next s
  else
    .next ((s.requestReset 5 (s.sourceLevel 5)).modAo fun a =>
      { a with thermalSeen := true, reset := { a.reset with holdThermal := true } })

def execThermalHoldRelease (sensorsC : List Int) (s : State) : Host.Outcome State Fault Refusal :=
  if s.ao.reset.holdThermal && sensorsC.all fun t => decide (t ≤ 115) then
    .next (s.modAo fun a => { a with reset := { a.reset with holdThermal := false, at_ := s.now } })
  else .next s

def execFirmwareFaultReset (s : State) : Host.Outcome State Fault Refusal :=
  if s.regsLive then .next ((s.modCd fun c => { c with resetDue := none }).requestReset 6 (s.sourceLevel 6)) else .next s

/-- `heldNs` is how long VIN_L has stayed at `vinMv` or above (R254). -/
def execLastWordReturn (vinMv heldNs : Nat) (s : State) : Host.Outcome State Fault Refusal :=
  if s.cd.lastWord && 2650 ≤ vinMv && us 100 ≤ heldNs then .next (s.requestReset 9 1) else .next s

/-! ### Blocks under their wrappers (R289, R290, Table 11.7) -/

/-- The CD's end of a link rests: its open COMMANDs fail as after the third try. -/
def State.fenceEnd (d : HvDie) (s : State) : State :=
  let x := s.lend d.cdLink .first
  let s := s.modEnd d.cdLink .first fun x => { LinkEnd.fresh false s.now with
    upSinceStart := x.upSinceStart, startChecked := x.startChecked, lostAt := x.lostAt, raised := x.raised }
  let s := x.opened.foldl (fun t o => t.issuerFailed o) s
  if d = .ref then s.engineEvent else s

/-- An egress frame is stomped; the lane is OFF until its block is ready. -/
def State.fenceLane (p : Port) (s : State) : State :=
  let s := (((s.flush p).endStomped p false).leaveUp p).reportLoss p
  ((s.stopStream p).modLane p (Lane.switchedOff s.now)).engineEvent

def State.fenceBlock (b : Block) (cut : Bool) (s : State) : State :=
  let s := { s with fences := b :: s.fences }
  match b with
  | .cdEnd d => s.fenceEnd d
  | .bridge => s.modCd fun c => { c with
      bridgeInReset := true,
      tags := c.tags.map fun t => if t.st = .fetching then Tag.hold s.now rcTargetError [] t else t }
  | .nvm => (s.cutNvm cut).modCd fun c => { c with nvm := { c.nvm with inReset := true } }
  | .lane p => s.fenceLane p
  | .localLane _ => (s.localIfs.filter s.ifaceFenced).foldl (fun t i => t.restartLocal i) s
  | .timeLink d => (s.stopEnd d.timeLink .first).modTime d fun _ => ⟨false, none, none, s.now, s.now⟩

def execBlockReset (b : Block) (cut : Bool) (s : State) : Host.Outcome State Fault Refusal :=
  if s.regsLive && !s.fences.contains b then .next (s.fenceBlock b cut) else .next s

/-- The block reports ready and its fence is released. -/
def State.readyBlock (b : Block) (s : State) : State :=
  let s := { s with fences := s.fences.erase b }
  match b with
  | .cdEnd d => s.modEnd d.cdLink .first fun x => { x with running := true, lastValidAt := s.now, releasedAt := s.now }
  | .bridge => s.modCd fun c => { c with bridgeInReset := false, tags := Vector.replicate 8 .free }
  | .nvm => s.modCd fun c => { c with nvm := { c.nvm with inReset := false } }
  | .lane p => s.toDetect p
  | .localLane _ => s
  | .timeLink d => (s.runEnd d.timeLink .first).modTime d fun _ => ⟨true, none, none, s.now, s.now⟩

def execBlockReady (b : Block) (s : State) : Host.Outcome State Fault Refusal :=
  if s.fences.contains b then .next (s.readyBlock b) else .next s

/-- Source 0x7: 10.0 ms after the loss, and then every 1.0 s while the link stays lost (R279). -/
def execHvLinkLossReset (d : HvDie) (s : State) : Host.Outcome State Fault Refusal :=
  let x := s.lend d.cdLink .first
  if s.regsLive && x.running && x.lost && x.upSinceStart then
    let s := s.until (x.lostAt + ms 10)
    if s.sourceLevel 7 = 2 then .next (s.requestReset 7 2)
    else if s.cd.lastWord || s.fences.contains (.cdEnd d) then .next s
    else .next ((s.modEnd d.cdLink .first fun x => { x with lostAt := s.now + ms 990 }).fenceBlock (.cdEnd d) false)
  else .next s

/-! ### Release of the islands (R285 to R288, Table 11.5) -/

/-- Steps 1 and 2: at level 0 the array is sensed and checked, and the pins take their fuse states. -/
def State.senseFuses (s : State) : State :=
  if s.ao.reset.level = 0 then
    (s.modAo fun a => { a with fuseOk := s.fuseCrcOk, fuseBadRaised := false }).modCd fun c => { c with gpio := s.fusePins }
  else s

/-- A request is held pending: BKP0.PENDING, the count, and the islands held, which stay shown until level 0 (log entry 92). -/
def AlwaysOn.notePending (islands : Half) (a : AlwaysOn) : AlwaysOn :=
  { a with bkp0 := a.bkp0 ||| (1 : Word) <<< 24,
           bkp1 := satHalf (a.bkp1.extractLsb' 16 16) ++ ((a.bkp1.extractLsb' 0 16 : Half) ||| islands) }

/-- Without a clock the islands that need one stay held: the cores and every lane (R286). -/
def State.holdPending (s : State) : State :=
  s.modAo fun a => { a.notePending 0x00FF with reset := { a.reset with pendingClocks := true, at_ := s.now } }

/-- The host port has no clock of its own: 10.0 ms without the edges it needs hold its reset pending (R285, R286). -/
def State.holdFramer (s : State) : State :=
  let s := s.until (s.cd.port.triedAt + ms 10)
  (s.modAo (AlwaysOn.notePending 0x0100)).modPortH fun p => { p with triedAt := s.now }

/-- Steps 3 to 6: the LD enters Standby, waking; its lanes leave OFF, after the burst where one is due (R264, R288). -/
def State.releaseLogic (s : State) : State :=
  let l := s.ld
  let s := s.modLd fun _ => { LineDie.fresh s.now 0 0 [0x8F, 0] l.reports with
    inReset := false, power := .waking, gustDue := l.gustDue, wakeTarget := l.wakeTarget, wokenByGust := l.wokenByGust,
    timeLa := ⟨true, none, none, s.now, s.now⟩, timeLb := ⟨true, none, none, s.now, s.now⟩ }
  let s := s.modAo fun a => { a with reset := { a.reset with pendingClocks := false } }
  let s := ((((s.runEnd .cdLa .first).runEnd .cdLb .first).runEnd .cdRef .first).runEnd .ldLa .first).runEnd .ldLb .first
  let s := if l.gustDue.isNone then s.lanesDetect Port.all else s
  s.engineEvent

/-- The reset at level 0 or 1 is past its holds, and the LD not yet released. -/
def State.releasable (s : State) : Bool :=
  s.ao.reset.active && !s.ao.reset.holdRst && !s.ao.reset.holdThermal && decide (s.ao.reset.level ≤ 1) && s.ld.inReset

def execIslandRelease (clocksUp : Bool) (s : State) : Host.Outcome State Fault Refusal :=
  if s.releasable && !s.ao.reset.pendingClocks then
    let s := s.senseFuses
    .next (if clocksUp then s.releaseLogic else (s.until (s.ao.reset.at_ + ms 10)).holdPending)
  else .next s

def execResetPendingRetry (clocksUp : Bool) (s : State) : Host.Outcome State Fault Refusal :=
  if s.releasable && s.ao.reset.pendingClocks then
    let s := s.until (s.ao.reset.at_ + ms 10)
    .next (if clocksUp then s.releaseLogic else s.holdPending)
  else .next (if s.regsLive && s.cd.port.pendingReset then s.holdFramer else s)

/-- SCLK has brought the 16 edges the framer waited for, with or without a frame. -/
def execHostPortResetComplete (s : State) : Host.Outcome State Fault Refusal :=
  .next (if s.regsLive && s.cd.port.pendingReset then s.framerReady else s)

/-! ### A start begins (R293 to R295, R319, R393) -/

/-- Every hold has ended and every island before the control core is released. -/
def State.startReady (s : State) : Bool :=
  s.ao.reset.active && !s.ao.reset.holdRst && !s.ao.reset.holdThermal && !s.ld.inReset && !s.ao.reset.pendingClocks

/-- Regions of retained SRAM that fail their CRC at a start after a reset at level 1 are cleared (R294). -/
def State.clearRegions (badFw badFault badHost : Bool) (s : State) : State :=
  let s := if badFw then s.modCd fun c => { c with retained :=
    { c.retained with lastEpoch := 0, wakeDefault := false, optionCrc := 0 } } else s
  let s := if badFault then s.modBook fun b => { b with opened := [], summaries := [] } else s
  if badHost then s.modCd fun c => { c with retained := { c.retained with host := ⟨[]⟩ } } else s

def State.raiseLost (bad : Bool) (address : Half) (s : State) : State :=
  if bad then s.cdRaise fRetainedLost noSubject (be16 address) else s

/-- The CD learns whether a link has been up since the start began (R279). -/
def State.markLink (d : HvDie) (s : State) : State :=
  s.modEnd d.cdLink .first fun x => { x with upSinceStart := !x.lost }

/-- LOG_SEQ goes on two above the newest valid record (R393); an empty log goes on from the last one written. -/
def Nvm.resume (n : Nvm) : Nvm := if n.logRecords.isEmpty then n else { n with topSeq := n.newestSeq + 1 }

/-- The processor runs: what a start clears, and BKP2 (Table 11.8). -/
def State.beginRun (prev count : Byte) (s : State) : State :=
  let level := s.ao.reset.level
  let s := s.modAo fun a => { a with
    bkp2 := (prev ++ count) ++ (0 : Half), reset := { a.reset with active := false, pendingClocks := false } }
  let s := s.modCd fun c => { c with
    running := true, milestone := 0, startAt := s.now, port := { c.port with heartbeatAt := s.now } }
  let s := s.modNvm fun n => { n.resume with ledger := if level = 0 then n.ledger.reload else n.ledger }
  let s := s.modLd fun l => { l with
    mgmtqDrop := 0, macRefused := 0, engine := { l.engine with frontsRejected := 0 },
    eye := ⟨0, .foreNear, false, 0, 0, [], 0⟩ }
  ((s.markLink .la).markLink .lb).markLink .ref

/-- The pending summaries are written, then "node started" with the number of open records, which are closed (R393). -/
def State.startBooks (prev : Byte) (s : State) : State :=
  let s := s.writeSummaries
  let closed := BitVec.ofNat 8 s.cd.faults.opened.length
  (s.modBook fun b => { b with opened := [], extra := [] }).cdRaise fNodeStarted noSubject (be32 s.ao.bkp0 ++ [prev, closed])

/-- The attention events of R319. -/
def State.startEvents (s : State) : State :=
  let s := ((s.setEvent evResetSeen).setEvent evTrainAlarm).setEvent evFault
  if s.commit?.isSome then s.setEvent evEpoch else s

def State.enterFrostNow (s : State) : State := s.enterFrost.originateBeacon

/-- COUNT below 4 is counted up and gives milestone 0x01; a failed fuse check then leads to Frost (R282, R295, R303). -/
def State.countStart (count : Byte) (s : State) : State :=
  let s := if count.toNat < 4 then (s.writeCount (count + 1)).modCd fun c => { c with milestone := 1 } else s
  let s := if !s.ao.fuseOk && !s.ao.fuseBadRaised then
      (s.modAo fun a => { a with fuseBadRaised := true }).cdRaise fFuseBad noSubject []
    else s
  if 4 ≤ count.toNat || !s.ao.fuseOk then s.enterFrostNow else s

def execStartBegin (badFw badFault badHost : Bool) (s : State) : Host.Outcome State Fault Refusal :=
  if s.startReady then
    let prev := s.cd.milestone
    let count := Sys2Proof.Machine.counterRead s.cd.nvm.counter
    let bad := fun b : Bool => b && s.ao.reset.level = 1
    let s := (s.clearRegions (bad badFw) (bad badFault) (bad badHost)).beginRun prev count
    let s := (s.startEvents).startBooks prev
    let s := ((s.raiseLost (bad badFw) 0).raiseLost (bad badFault) 0x100).raiseLost (bad badHost) 0x800
    .next (s.countStart count)
  else .next s

/-! ### The firmware bank (R296, R383) -/

/-- The boot record once the loader has dealt with a trial, and the candidate bank. -/
def State.candidate (s : State) : State × Bool :=
  let r := s.nvmSeen.boot
  match r.trial with
  | some b =>
    if r.tried then
      ((s.modNvm (Nvm.writeBoot { r with trial := none })).cdRaise fTrialFailed noSubject [bankCode b], r.primaryB)
    else (s.modNvm (Nvm.writeBoot { r with tried := true }), b)
  | none => (s, r.primaryB)

/-- The bank that runs: the candidate, or the other one with "firmware bank invalid" (DATA: the candidate and its CHECK). -/
def State.chooseBank (s : State) : State × Option Bool :=
  let (s, b) := s.candidate
  let c := s.imgCheck (s.nvmSeen.bank b)
  if c = 0 then (s, some b)
  else if s.imgCheck (s.nvmSeen.bank (!b)) = 0 then (s.cdRaise fBankInvalid noSubject [bankCode b, c], some (!b))
  else (s, none)

/-- No bank passes: COUNT = 4, and Frost at once (R296). -/
def State.noFirmware (s : State) : State :=
  (((s.writeCount 4).modCd fun c => { c with lastVerified := none }).cdRaise fNoFirmware noSubject []).enterFrostNow

/-! ### Option loading (R298 to R302) -/

def findRecord (t : Byte) (l : List (Byte × List Byte)) : Option (List Byte) :=
  match l.find? fun x => x.1 = t with | some x => some x.2 | none => none

/-- The fuse-derived map (R284). -/
def State.fuseMap (s : State) : Vector MapEntry 12 := ch12 fun c => fuseEntry (lampFuseOf s.ao.fuses c.val)

def mapOfRecord (p : List Byte) : Vector MapEntry 12 := ch12 fun c => entryOf (slice p (16 * c.val) 16)

def slotsOfRecord (p : List Byte) : Vector Slot 16 :=
  (List.range 15).foldl (fun v n => v.set! (n + 1) (slotStored (slotRecord p n).1 (slotRecord p n).2)) defaultSlots

/-- The settings that a block's records give, each absent one at its default (R299). -/
def State.shadowOf (s : State) (l : List (Byte × List Byte)) : Shadow :=
  let get := fun (t : Byte) (dflt : List Byte) => (findRecord t l).getD dflt
  { inaug := byteAt (get 0x01 [0]) 0 &&& 0xE0, lanes := byteAt (get 0x07 [0]) 0 &&& 0xF0, localPort := localBytes (get 0x06 [0x8F, 0]),
    permit := long (get 0x09 (zeros 8)) 0, power := byteAt (get 0x08 [0]) 0 &&& 0x80,
    gpio := match findRecord 0x0A l with | some p => pinBytes p | none => s.fusePins,
    map := match findRecord 0x02 l with | some p => mapOfRecord p | none => s.fuseMap,
    slots := match findRecord 0x03 l with | some p => slotsOfRecord p | none => defaultSlots,
    store := match findRecord 0x04 l with | some p => policyOf p | none => .standard,
    ref := byteAt (get 0x05 [0x40]) 0 &&& 0xC0 }

/-- A reserved value in a record that no die checks makes the block invalid. -/
def logicOk (t : Byte) (p : List Byte) : Bool := if t = 0x06 ∨ t = 0x0A then recordOk t p else true

/-- A waking node that no Gust woke takes WAKE_TARGET from the POWER record (R288). -/
def LineDie.takeTarget (code : GustCode) (l : LineDie) : LineDie :=
  if l.power = .waking && !l.wokenByGust then { l with wakeTarget := some code } else l

/-- Milestones 0x03 and 0x04: the records are applied in the order of Table 11.13, then each high-voltage die whose link
stands is configured (R300). -/
def State.applyShadow (v : Shadow) (crc : Word) (s : State) : State :=
  let s := s.modCd fun c => { c with
    shadow := v, milestone := 4, gpio := v.gpio,
    retained := { c.retained with wakeDefault := bitOf v.power 7, optionCrc := crc } }
  let code := s.cd.retained.wakeCode
  let s := s.modLd fun l => { (LineDie.takeTarget code (l.limits v.lanes)) with
    localCfg := v.localPort, engine := { l.engine with options := v.inaug } }
  ((((s.engineEvent).configureDie .la).configureDie .lb).configureDie .ref).checkHvApplied

def State.badBlock (check index : Byte) (s : State) : State :=
  (s.modCd fun c => { c with optState := 2 }).blockInvalid check index

/-- The loader checks the whole block and applies it, or applies nothing (R299). -/
def State.loadOptions (s : State) : State :=
  let l := optBytes s.nvmSeen.option
  if optEmpty l then
    ((s.modCd fun c => { c with optState := 0 }).cdRaise fOptionDefault noSubject []).applyShadow (s.shadowOf []) 0
  else match s.optCheck l with
    | .inr (c, i) => s.badBlock c i
    | .inl r =>
      match firstBad logicOk r 0 with
      | some i => s.badBlock 5 i
      | none => (s.modCd fun c => { c with optState := 1 }).applyShadow (s.shadowOf r) (word l 16)

/-- The chosen bank runs at milestone 0x02, and the loader goes on to the option block. A bank of another release lies outside
the manual (R2, R379). -/
def execFirmwareSelect (s : State) : Host.Outcome State Fault Refusal :=
  if s.regsLive && !s.cd.frost && s.cd.milestone = 1 then
    match s.chooseBank with
    | (s, some b) =>
      if imgRelease (s.nvmSeen.bank b) ≠ (4, 1) then .fault .outsideManual
      else
        .next (s.modCd fun c => { c with
          milestone := 2, stone2At := s.now, runningBank := some b, lastVerified := some b }).loadOptions
    | (s, none) => .next s.noFirmware
  else .next s

/-! ### Milestones 0x05 and 0x06 (R296, Table 11.9) -/

def State.lost1 (s : State) (d : HvDie) : Bool := (s.lend d.cdLink .first).lost

/-- A die whose link is not restored within 1.0 s of the start is not waited for. -/
def execDieAbsentTimeout (d : HvDie) (s : State) : Host.Outcome State Fault Refusal :=
  if s.regsLive && !s.cd.frost && 1 ≤ s.cd.milestone.toNat && s.cd.milestone.toNat ≤ 4 && s.lost1 d
      && (s.cd.absentDies &&& hvBit d) = 0 then
    let s := (s.until (s.cd.startAt + ms 1000)).modCd fun c => { c with absentDies := c.absentDies ||| hvBit d }
    .next (s.cdRaise fDieAbsent d.subject []).checkHvApplied
  else .next s

/-- What waits for the completion of a start is raised, and its mark cleared (R272, R277, R286). -/
def State.raiseWaiting (s : State) : State :=
  let s := if s.ao.thermalSeen then (s.modAo fun a => { a with thermalSeen := false }).cdRaise fThermal noSubject [] else s
  let s := if s.ao.pendingBit then
      (s.modAo fun a => { a with bkp0 := a.bkp0 &&& ~~~((1 : Word) <<< 24) }).cdRaise fResetPending noSubject (be32 s.ao.bkp1)
    else s
  if s.ao.failsafe then
    (s.modAo fun a => { a with bkp0 := a.bkp0 &&& ~~~((1 : Word) <<< 25) }).cdRaise fFailsafe noSubject []
  else s

def execStartComplete (programOk : Bool) (s : State) : Host.Outcome State Fault Refusal :=
  if s.regsLive && !s.cd.frost && s.cd.milestone = 5 && s.cd.resetDue.isNone then
    let s := (s.writeCount 0).modCd fun c => { c with milestone := 6, stone6At := s.now }
    .next ((s.settleBoot).advanceRollback programOk).raiseWaiting
  else .next s

/-! ### The Frost set (R304) -/

def execFrostSetEntry (d : Die) (s : State) : Host.Outcome State Fault Refusal :=
  if (s.die d).powered && (s.die d).cd.frostDue then .next ((s.modDie d LampDie.takeFrost).showCycle d) else .next s

end Sys2Proof.Machine
end

