-- ==== Sys2Proof/Machine/Dispatch.lean ====
section
/-! DEFINITION. One arm per command: its meaning. -/

namespace Sys2Proof.Machine

def exec (i : Instr) (s : State) : Host.Outcome State Fault Refusal :=
  match i with
  | .crossingTransfer x data sclk => Sys2Proof.Machine.execCrossingTransfer x data sclk s
  | .heartbeatSend l e => Sys2Proof.Machine.execHeartbeatSend l e s
  | .heartbeatReceived l e cycle st rxerr => Sys2Proof.Machine.execHeartbeatReceived l e cycle st rxerr s
  | .heartbeatMissed l e => Sys2Proof.Machine.execHeartbeatMissed l e s
  | .linkLost l e => Sys2Proof.Machine.execLinkLost l e s
  | .linkStartTimeout l e => Sys2Proof.Machine.execLinkStartTimeout l e s
  | .responseReceived l e seq payload => Sys2Proof.Machine.execResponseReceived l e seq payload s
  | .commandRetryTimeout l seq => Sys2Proof.Machine.execCommandRetryTimeout l seq s
  | .alarmRepeatInsertion d => Sys2Proof.Machine.execAlarmRepeatInsertion d s
  | .alarmFrameReceived d seq record => Sys2Proof.Machine.execAlarmFrameReceived d seq record s
  | .levelLinkSilent l => Sys2Proof.Machine.execLevelLinkSilent l s
  | .grantTaken d words => Sys2Proof.Machine.execGrantTaken d words s
  | .withdrawnTaken d words => Sys2Proof.Machine.execWithdrawnTaken d words s
  | .killAssertedTaken d words => Sys2Proof.Machine.execKillAssertedTaken d words s
  | .killReleasedTaken d words => Sys2Proof.Machine.execKillReleasedTaken d words s
  | .driveStateTaken d driving words => Sys2Proof.Machine.execDriveStateTaken d driving words s
  | .timeLinkDelayMeasure d => Sys2Proof.Machine.execTimeLinkDelayMeasure d s
  | .timeLinkSend d => Sys2Proof.Machine.execTimeLinkSend d s
  | .lampTimeFrameReceived d tt echoReq stepped turn => Sys2Proof.Machine.execLampTimeFrameReceived d tt echoReq stepped turn s
  | .laneSignalChange p los detector => Sys2Proof.Machine.execLaneSignalChange p los detector s
  | .detectComplete p => Sys2Proof.Machine.execDetectComplete p s
  | .trainingFrameReceived p ui adapted => Sys2Proof.Machine.execTrainingFrameReceived p ui adapted s
  | .acquireTimeout p => Sys2Proof.Machine.execAcquireTimeout p s
  | .trainComplete p => Sys2Proof.Machine.execTrainComplete p s
  | .trainTimeout p => Sys2Proof.Machine.execTrainTimeout p s
  | .trialEnd p => Sys2Proof.Machine.execTrialEnd p s
  | .verdictComplete p => Sys2Proof.Machine.execVerdictComplete p s
  | .verdictTimeout p => Sys2Proof.Machine.execVerdictTimeout p s
  | .backoffEnd p => Sys2Proof.Machine.execBackoffEnd p s
  | .cdrLockLost p => Sys2Proof.Machine.execCdrLockLost p s
  | .fastRelock p => Sys2Proof.Machine.execFastRelock p s
  | .blinkTimeout p => Sys2Proof.Machine.execBlinkTimeout p s
  | .laneParamRefresh p params => Sys2Proof.Machine.execLaneParamRefresh p params s
  | .eyeScanDone counts => Sys2Proof.Machine.execEyeScanDone counts s
  | .codewordReceived p symbols => Sys2Proof.Machine.execCodewordReceived p symbols s
  | .lineAlarmReceived p h a => Sys2Proof.Machine.execLineAlarmReceived p h a s
  | .lineTimeReceived p h t since => Sys2Proof.Machine.execLineTimeReceived p h t since s
  | .creditReceived p h c => Sys2Proof.Machine.execCreditReceived p h c s
  | .beaconReceived p h b => Sys2Proof.Machine.execBeaconReceived p h b s
  | .carriedReceived p h c whole => Sys2Proof.Machine.execCarriedReceived p h c whole s
  | .mgmtRequestReceived p h m whole => Sys2Proof.Machine.execMgmtRequestReceived p h m whole s
  | .floodKeyAged => Sys2Proof.Machine.execFloodKeyAged s
  | .alarmSlotInsert p => Sys2Proof.Machine.execAlarmSlotInsert p s
  | .frameTransmitStart p => Sys2Proof.Machine.execFrameTransmitStart p s
  | .alarmRepeat => Sys2Proof.Machine.execAlarmRepeat s
  | .creditSend p => Sys2Proof.Machine.execCreditSend p s
  | .portCycleEnd p => Sys2Proof.Machine.execPortCycleEnd p s
  | .localFrameReceived l frame fcsOk => Sys2Proof.Machine.execLocalFrameReceived l frame fcsOk s
  | .macEntryAged mac => Sys2Proof.Machine.execMacEntryAged mac s
  | .timeSend => Sys2Proof.Machine.execTimeSend s
  | .timeEchoRequest p => Sys2Proof.Machine.execTimeEchoRequest p s
  | .trainTimeStep => Sys2Proof.Machine.execTrainTimeStep s
  | .holdoverEnter => Sys2Proof.Machine.execHoldoverEnter s
  | .vinputSample cabAct cplFore cplAft aux1 aux2 => Sys2Proof.Machine.execVinputSample cabAct cplFore cplAft aux1 aux2 s
  | .vinputSend => Sys2Proof.Machine.execVinputSend s
  | .vinputReceived payload => Sys2Proof.Machine.execVinputReceived payload s
  | .vinputStale => Sys2Proof.Machine.execVinputStale s
  | .joiningTimeout e => Sys2Proof.Machine.execJoiningTimeout e s
  | .holdingTimeout e => Sys2Proof.Machine.execHoldingTimeout e s
  | .fencedBrokenTimeout e => Sys2Proof.Machine.execFencedBrokenTimeout e s
  | .beaconSend => Sys2Proof.Machine.execBeaconSend s
  | .beaconEntryAged id => Sys2Proof.Machine.execBeaconEntryAged id s
  | .inaugurationCall => Sys2Proof.Machine.execInaugurationCall s
  | .callReceived p h f => Sys2Proof.Machine.execCallReceived p h f s
  | .deferredLaunch => Sys2Proof.Machine.execDeferredLaunch s
  | .frontReceived p h f => Sys2Proof.Machine.execFrontReceived p h f s
  | .cutReceived p h f => Sys2Proof.Machine.execCutReceived p h f s
  | .commitPhase0Received p h c => Sys2Proof.Machine.execCommitPhase0Received p h c s
  | .phase1Send => Sys2Proof.Machine.execPhase1Send s
  | .commitPhase1Received p h c => Sys2Proof.Machine.execCommitPhase1Received p h c s
  | .commitApply => Sys2Proof.Machine.execCommitApply s
  | .calledTimeout => Sys2Proof.Machine.execCalledTimeout s
  | .roundTimeout => Sys2Proof.Machine.execRoundTimeout s
  | .ghostUpdate p => Sys2Proof.Machine.execGhostUpdate p s
  | .lampIdentity d seq id => Sys2Proof.Machine.execLampIdentity d seq id s
  | .mapWrite d seq channel effect entry => Sys2Proof.Machine.execMapWrite d seq channel effect entry s
  | .mapRead d seq channel => Sys2Proof.Machine.execMapRead d seq channel s
  | .slotWrite d seq slot count effect steps => Sys2Proof.Machine.execSlotWrite d seq slot count effect steps s
  | .slotRead d seq slot => Sys2Proof.Machine.execSlotRead d seq slot s
  | .stateCmd d seq reqLit effect epoch => Sys2Proof.Machine.execStateCmd d seq reqLit effect epoch s
  | .scene d seq scene effect => Sys2Proof.Machine.execScene d seq scene effect s
  | .lampBurst d seq slot burstCycle mask => Sys2Proof.Machine.execLampBurst d seq slot burstCycle mask s
  | .status d seq => Sys2Proof.Machine.execStatus d seq s
  | .commandEffectApply d => Sys2Proof.Machine.execCommandEffectApply d s
  | .lampCycleBoundary d m ready => Sys2Proof.Machine.execLampCycleBoundary d m ready s
  | .overcurrentCut d c senseUv heldNs => Sys2Proof.Machine.execOvercurrentCut d c senseUv heldNs s
  | .lampSyncSend => Sys2Proof.Machine.execLampSyncSend s
  | .lampSyncReceived p h l => Sys2Proof.Machine.execLampSyncReceived p h l s
  | .burstStart d => Sys2Proof.Machine.execBurstStart d s
  | .burstEnd d => Sys2Proof.Machine.execBurstEnd d s
  | .currentSample d senseUv => Sys2Proof.Machine.execCurrentSample d senseUv s
  | .lightWindowClose d photo => Sys2Proof.Machine.execLightWindowClose d photo s
  | .lightViewDisagrees d c => Sys2Proof.Machine.execLightViewDisagrees d c s
  | .provingReportSend d => Sys2Proof.Machine.execProvingReportSend d s
  | .provingReportReceived d seq payload => Sys2Proof.Machine.execProvingReportReceived d seq payload s
  | .lightMarginLow d => Sys2Proof.Machine.execLightMarginLow d s
  | .alarmEntryStale id => Sys2Proof.Machine.execAlarmEntryStale id s
  | .refReset => Sys2Proof.Machine.execRefReset s
  | .refStartDecision => Sys2Proof.Machine.execRefStartDecision s
  | .dieBootEnd d clockBad supplyBad frontBad badWords badHold => Sys2Proof.Machine.execDieBootEnd d clockBad supplyBad frontBad badWords badHold s
  | .noGrantTimeout => Sys2Proof.Machine.execNoGrantTimeout s
  | .noGrantRetry => Sys2Proof.Machine.execNoGrantRetry s
  | .dieHealthSend d => Sys2Proof.Machine.execDieHealthSend d s
  | .dieHealthReceived d atRef seq payload => Sys2Proof.Machine.execDieHealthReceived d atRef seq payload s
  | .clearTimeout => Sys2Proof.Machine.execClearTimeout s
  | .killSettled => Sys2Proof.Machine.execKillSettled s
  | .driveStartTimeout => Sys2Proof.Machine.execDriveStartTimeout s
  | .mirrorSend => Sys2Proof.Machine.execMirrorSend s
  | .mirrorReceived d m => Sys2Proof.Machine.execMirrorReceived d m s
  | .mirrorFrameMissed d => Sys2Proof.Machine.execMirrorFrameMissed d s
  | .mirrorDisagrees d => Sys2Proof.Machine.execMirrorDisagrees d s
  | .holdExpiry d => Sys2Proof.Machine.execHoldExpiry d s
  | .fallbackEntry d => Sys2Proof.Machine.execFallbackEntry d s
  | .orphanTakeover d => Sys2Proof.Machine.execOrphanTakeover d s
  | .refConfig seq policy => Sys2Proof.Machine.execRefConfig seq policy s
  | .refStatus seq => Sys2Proof.Machine.execRefStatus seq s
  | .switch seq die => Sys2Proof.Machine.execSwitch seq die s
  | .refKillRelease seq die => Sys2Proof.Machine.execRefKillRelease seq die s
  | .refKillTest seq die => Sys2Proof.Machine.execRefKillTest seq die s
  | .killTestEnd => Sys2Proof.Machine.execKillTestEnd s
  | .refPathClear seq die mask => Sys2Proof.Machine.execRefPathClear seq die mask s
  | .switchReportReceived seq payload => Sys2Proof.Machine.execSwitchReportReceived seq payload s
  | .killTestReportReceived seq payload => Sys2Proof.Machine.execKillTestReportReceived seq payload s
  | .storeChargeControl d storeMv => Sys2Proof.Machine.execStoreChargeControl d storeMv s
  | .storeMeasureDone d chargeUc startMv endMv esrStepUv => Sys2Proof.Machine.execStoreMeasureDone d chargeUc startMv endMv esrStepUv s
  | .storeBleedDone d => Sys2Proof.Machine.execStoreBleedDone d s
  | .storeOverdrawn d => Sys2Proof.Machine.execStoreOverdrawn d s
  | .feedLost d feedDv heldNs => Sys2Proof.Machine.execFeedLost d feedDv heldNs s
  | .feedDip d feedDv heldNs => Sys2Proof.Machine.execFeedDip d feedDv heldNs s
  | .feedPresent d feedDv heldNs => Sys2Proof.Machine.execFeedPresent d feedDv heldNs s
  | .rideEnd d => Sys2Proof.Machine.execRideEnd d s
  | .lastLightEntry d => Sys2Proof.Machine.execLastLightEntry d s
  | .shutdownTimeout d => Sys2Proof.Machine.execShutdownTimeout d s
  | .finalRecordWritten d => Sys2Proof.Machine.execFinalRecordWritten d s
  | .lastWordEntry vinMv heldNs => Sys2Proof.Machine.execLastWordEntry vinMv heldNs s
  | .lastWordReturn vinMv heldNs => Sys2Proof.Machine.execLastWordReturn vinMv heldNs s
  | .powerStateFollow => Sys2Proof.Machine.execPowerStateFollow s
  | .wakeTargetTimeout => Sys2Proof.Machine.execWakeTargetTimeout s
  | .sleepAnswer => Sys2Proof.Machine.execSleepAnswer s
  | .drainComplete => Sys2Proof.Machine.execDrainComplete s
  | .calmEntry => Sys2Proof.Machine.execCalmEntry s
  | .gustRecognised p segments others => Sys2Proof.Machine.execGustRecognised p segments others s
  | .hostWake cmd f => Sys2Proof.Machine.execHostWake cmd f s
  | .gustBurstStart => Sys2Proof.Machine.execGustBurstStart s
  | .gustBurstEnd => Sys2Proof.Machine.execGustBurstEnd s
  | .probeBurst e => Sys2Proof.Machine.execProbeBurst e s
  | .powerWordAck => Sys2Proof.Machine.execPowerWordAck s
  | .failsafeToCalm => Sys2Proof.Machine.execFailsafeToCalm s
  | .por vinMv regulatorBad fuses cut => Sys2Proof.Machine.execPor vinMv regulatorBad fuses cut s
  | .brownoutReset vinMv heldNs cut => Sys2Proof.Machine.execBrownoutReset vinMv heldNs cut s
  | .rstNReset heldNs => Sys2Proof.Machine.execRstNReset heldNs s
  | .rstNRelease => Sys2Proof.Machine.execRstNRelease s
  | .watchdogExpiry => Sys2Proof.Machine.execWatchdogExpiry s
  | .thermalTrip sensorsC heldNs => Sys2Proof.Machine.execThermalTrip sensorsC heldNs s
  | .thermalHoldRelease sensorsC => Sys2Proof.Machine.execThermalHoldRelease sensorsC s
  | .firmwareFaultReset => Sys2Proof.Machine.execFirmwareFaultReset s
  | .hvLinkLossReset d => Sys2Proof.Machine.execHvLinkLossReset d s
  | .resetPendingRetry clocksUp => Sys2Proof.Machine.execResetPendingRetry clocksUp s
  | .hostPortResetComplete => Sys2Proof.Machine.execHostPortResetComplete s
  | .blockReset b cut => Sys2Proof.Machine.execBlockReset b cut s
  | .blockReady b => Sys2Proof.Machine.execBlockReady b s
  | .startBegin badFw badFault badHost => Sys2Proof.Machine.execStartBegin badFw badFault badHost s
  | .firmwareSelect => Sys2Proof.Machine.execFirmwareSelect s
  | .startComplete programOk => Sys2Proof.Machine.execStartComplete programOk s
  | .dieAbsentTimeout d => Sys2Proof.Machine.execDieAbsentTimeout d s
  | .frostSetEntry d => Sys2Proof.Machine.execFrostSetEntry d s
  | .nop f => Sys2Proof.Machine.execNop f s
  | .read f => Sys2Proof.Machine.execRead f s
  | .write f => Sys2Proof.Machine.execWrite f s
  | .lockedRmw f => Sys2Proof.Machine.execLockedRmw f s
  | .farRead f => Sys2Proof.Machine.execFarRead f s
  | .farWrite f => Sys2Proof.Machine.execFarWrite f s
  | .attnAck value => Sys2Proof.Machine.execAttnAck value s
  | .mbxSubmit w slots => Sys2Proof.Machine.execMbxSubmit w slots s
  | .mbxRelease w slots => Sys2Proof.Machine.execMbxRelease w slots s
  | .mbxSlotWrite w address data => Sys2Proof.Machine.execMbxSlotWrite w address data s
  | .registerWrite w address data => Sys2Proof.Machine.execRegisterWrite w address data s
  | .mgmtResponseReceived p h m whole => Sys2Proof.Machine.execMgmtResponseReceived p h m whole s
  | .tagTimeout tag => Sys2Proof.Machine.execTagTimeout tag s
  | .tagHoldExpiry tag => Sys2Proof.Machine.execTagHoldExpiry tag s
  | .mgmtRequestServe => Sys2Proof.Machine.execMgmtRequestServe s
  | .hostAbsent => Sys2Proof.Machine.execHostAbsent s
  | .regRead d seq count address => Sys2Proof.Machine.execRegRead d seq count address s
  | .regWrite d seq count address data => Sys2Proof.Machine.execRegWrite d seq count address data s
  | .faultReportReceived d seq payload => Sys2Proof.Machine.execFaultReportReceived d seq payload s
  | .faultSummaryWrite => Sys2Proof.Machine.execFaultSummaryWrite s
  | .logOverflowWrite => Sys2Proof.Machine.execLogOverflowWrite s
  | .linkErrorsClear l => Sys2Proof.Machine.execLinkErrorsClear l s
  | .ledgerSample junctionC => Sys2Proof.Machine.execLedgerSample junctionC s
  | .ledgerWrite => Sys2Proof.Machine.execLedgerWrite s
  | .retentionRewrite area => Sys2Proof.Machine.execRetentionRewrite area s
  | .lampDieResetRelease d storeMv => Sys2Proof.Machine.execLampDieResetRelease d storeMv s
  | .lampDieSelfCheckFailed d clockBad supplyBad frontBad => Sys2Proof.Machine.execLampDieSelfCheckFailed d clockBad supplyBad frontBad s
  | .timeLinkEchoReceived d turn elapsed => Sys2Proof.Machine.execTimeLinkEchoReceived d turn elapsed s
  | .islandRelease clocksUp => Sys2Proof.Machine.execIslandRelease clocksUp s
  | .reservedCmdFrame cmd f => Sys2Proof.Machine.execReservedCmdFrame cmd f s
  | .badOpcodeRequest => Sys2Proof.Machine.execBadOpcodeRequest s
  | .linkFrameDiscarded l e positive codes => Sys2Proof.Machine.execLinkFrameDiscarded l e positive codes s
  | .slotFillTimeout slot => Sys2Proof.Machine.execSlotFillTimeout slot s
  | .slotDoneExpiry slot => Sys2Proof.Machine.execSlotDoneExpiry slot s
  | .mailboxDeadlineMissed slot => Sys2Proof.Machine.execMailboxDeadlineMissed slot s
  | .identity => Sys2Proof.Machine.execIdentity s
  | .optRead => Sys2Proof.Machine.execOptRead s
  | .optBegin => Sys2Proof.Machine.execOptBegin s
  | .optStage => Sys2Proof.Machine.execOptStage s
  | .optCommit readBackOk => Sys2Proof.Machine.execOptCommit readBackOk s
  | .optErase readBackOk => Sys2Proof.Machine.execOptErase readBackOk s
  | .mapSet => Sys2Proof.Machine.execMapSet s
  | .mapGet => Sys2Proof.Machine.execMapGet s
  | .slotSet => Sys2Proof.Machine.execSlotSet s
  | .slotGet => Sys2Proof.Machine.execSlotGet s
  | .sceneSet => Sys2Proof.Machine.execSceneSet s
  | .lampHost => Sys2Proof.Machine.execLampHost s
  | .roleGet => Sys2Proof.Machine.execRoleGet s
  | .inaugSet => Sys2Proof.Machine.execInaugSet s
  | .inaugGet => Sys2Proof.Machine.execInaugGet s
  | .linkSet => Sys2Proof.Machine.execLinkSet s
  | .linkGet => Sys2Proof.Machine.execLinkGet s
  | .permitSet => Sys2Proof.Machine.execPermitSet s
  | .permitGet => Sys2Proof.Machine.execPermitGet s
  | .powerPolicySet => Sys2Proof.Machine.execPowerPolicySet s
  | .powerPolicyGet => Sys2Proof.Machine.execPowerPolicyGet s
  | .gpioSet => Sys2Proof.Machine.execGpioSet s
  | .gpioGet => Sys2Proof.Machine.execGpioGet s
  | .lampState => Sys2Proof.Machine.execLampState s
  | .burst => Sys2Proof.Machine.execBurst s
  | .redundSwitch => Sys2Proof.Machine.execRedundSwitch s
  | .killTest => Sys2Proof.Machine.execKillTest s
  | .killRelease => Sys2Proof.Machine.execKillRelease s
  | .pathClear => Sys2Proof.Machine.execPathClear s
  | .redundStatus => Sys2Proof.Machine.execRedundStatus s
  | .powerSet => Sys2Proof.Machine.execPowerSet s
  | .counterRead => Sys2Proof.Machine.execCounterRead s
  | .eyeScanStart => Sys2Proof.Machine.execEyeScanStart s
  | .eyeScanResult => Sys2Proof.Machine.execEyeScanResult s
  | .eyeScanPoints => Sys2Proof.Machine.execEyeScanPoints s
  | .faultRead => Sys2Proof.Machine.execFaultRead s
  | .ledgerRead => Sys2Proof.Machine.execLedgerRead s
  | .retainedRead => Sys2Proof.Machine.execRetainedRead s
  | .retainedWrite => Sys2Proof.Machine.execRetainedWrite s
  | .fullReset => Sys2Proof.Machine.execFullReset s
  | .fullResetTimeout => Sys2Proof.Machine.execFullResetTimeout s
  | .fwBegin => Sys2Proof.Machine.execFwBegin s
  | .fwWrite => Sys2Proof.Machine.execFwWrite s
  | .fwVerify => Sys2Proof.Machine.execFwVerify s
  | .fwVerifyDone => Sys2Proof.Machine.execFwVerifyDone s
  | .fwStatus => Sys2Proof.Machine.execFwStatus s
  | .fwActivate => Sys2Proof.Machine.execFwActivate s

end Sys2Proof.Machine
end

