-- ==== Sys2Proof/Machine/Step.lean ====
section
/-! DEFINITION. The step of the block: the command at the front of the queue takes effect. -/

namespace Sys2Proof.Machine

/-- With no command waiting time passes: one microsecond, so that two commands can lie apart (log entry 2), and codewords whose
boundaries it passes leave. -/
def State.idle (s : State) : State := (s.tick 1000).flushAll

/-- First in, first out; `exec` sees the rest of the queue. -/
def step (s : State) : Host.Outcome State Fault Refusal :=
  match s.pending with
  | c :: q => exec c { s with pending := q }
  | [] => .next s.idle

/-- No row of the command table gives bits, so no word spells a command. -/
def State.withFetchWord (s : State) (nbits w : Nat) : State :=
  match decodeTableWord nbits w with
  | some c => { s with pending := c :: s.pending }
  | none => s

end Sys2Proof.Machine
end

