-- ==== Sys2Proof/Safety.lean ====
section
/-! DEFINITION. The terms statements are made in: what a step leaves as it was, the invariants of the node, and which
commands are COMMAND frames of an isolated link. -/

namespace Sys2Proof.Machine

/-! ### Frames -/

/-- The two lamp dies and REF are as they were. -/
def SameHv (s t : State) : Prop := t.la = s.la ∧ t.lb = s.lb ∧ t.ref = s.ref

/-- The logic side is as it was: the always-on island, the CD and the LD. -/
def SameLogic (s t : State) : Prop := t.ao = s.ao ∧ t.cd = s.cd ∧ t.ld = s.ld

/-- The isolated links are as they were, both ends of each. -/
def SameLinks (s t : State) : Prop := t.ends = s.ends ∧ t.errs = s.errs ∧ t.level = s.level

/-- The crossings and the fences of the wrapped blocks are as they were. -/
def SameWrappers (s t : State) : Prop := t.crossings = s.crossings ∧ t.fences = s.fences

/-- Every end of a framed link but one is as it was. -/
def SameOtherEnds (l : FLink) (e : LEnd) (s t : State) : Prop :=
  ∀ m g, (m, g) ≠ (l, e) → t.lend m g = s.lend m g

/-- Every level link but one is as it was. -/
def SameOtherLevels (l : LLink) (s t : State) : Prop := ∀ m, m ≠ l → t.lv m = s.lv m

/-! ### COMMANDs of an isolated link (R46) -/

/-- The receiver at the second end holds no answer it gave to this SEQ that still stands, so the COMMAND is a new one. -/
def NewCommand (l : FLink) (seq : Byte) (s : State) : Prop := (s.lend l .second).answerTo s.now seq = none

/-- The second end has answered a COMMAND with its own SEQ, and keeps the answer for a copy. -/
def Answered (l : FLink) (seq : Byte) (answer : List Byte) (s t : State) : Prop :=
  t.wire = .link l .second seq (.response answer) :: s.wire ∧ (t.lend l .second).answerTo t.now seq = some answer ∧
    SameOtherEnds l .second s t

/-- Everything but one lamp die and the links is as it was. -/
def OnlyDie (d : Die) (s t : State) : Prop :=
  t.die d.other = s.die d.other ∧ t.ref = s.ref ∧ SameLogic s t ∧ SameWrappers s t ∧ t.errs = s.errs ∧ t.now = s.now

/-- Of one lamp die nothing but its store changed, and nothing else of the node but time. -/
def OnlyStore (d : Die) (s t : State) : Prop :=
  t.die d = { s.die d with store := (t.die d).store } ∧ t.die d.other = s.die d.other ∧ t.ref = s.ref ∧ SameLogic s t ∧
    SameLinks s t ∧ SameWrappers s t ∧ t.wire = s.wire

/-- Of one lamp die nothing but what it reports changed: its report queue and its open conditions. -/
def SameButReports (x y : LampDie) : Prop := y = { x with reports := y.reports, conds := y.conds }

/-! ### The books of the CD (R375, R389 to R391) -/

/-- The CD is as it was but for the fault log, its bookkeeping and the attention events. -/
def OnlyBooks (c d : ControlDie) : Prop :=
  d = { c with
    faults := d.faults, port := { c.port with events := d.port.events },
    nvm := { c.nvm with topSeq := d.nvm.topSeq, log := d.nvm.log, writes := d.nvm.writes, retention := d.nvm.retention,
                        lastArea := d.nvm.lastArea } }

/-- Nothing beyond the CD's books and the moment changed. -/
def OnlyBooksOf (s t : State) : Prop :=
  OnlyBooks s.cd t.cd ∧ t.ao = s.ao ∧ t.ld = s.ld ∧ SameHv s t ∧ SameLinks s t ∧ SameWrappers s t ∧ t.wire = s.wire

/-! ### The mailbox (R336, R342) -/

/-- The response as a slot shows it: its RESULT and its payload. -/
def ResponseIs (n : Fin 4) (result : Byte) (payload : List Byte) (s t : State) : Prop :=
  (t.slot n).st = .done ∧ (t.slot n).resp =
    be16 (s.slot n).opcode ++ be16 (BitVec.ofNat 16 payload.length) ++ slice (s.slot n).head 4 2 ++ [result, 0] ++ payload

/-- The node serves slot n next, and the request in it has this OPCODE; its owner still waits for it. -/
def Serves (n : Fin 4) (op : Half) (s : State) : Prop :=
  s.nextSlot = some n ∧ (s.slot n).opcode = op ∧ (s.slot n).orphaned = false

/-- The other slots are as they were. -/
def SameOtherSlots (n : Fin 4) (s t : State) : Prop := ∀ m, m ≠ n → t.slot m = s.slot m

/-- Slot n is answered, and of the CD nothing else changed: the request has left the order of service. -/
def OnlyAnswered (n : Fin 4) (s t : State) : Prop :=
  SameOtherSlots n s t ∧ t.cd = { s.cd with slots := t.cd.slots, order := s.cd.order.erase n, serving := none }

/-- The OPCODE a mailbox command serves (Tables 13.4 and 14.1); none for the other commands. -/
def mbxOpcode : Instr → Option Half
  | .identity => some 0x0001 | .optRead => some 0x0010 | .optBegin => some 0x0011 | .optStage => some 0x0012
  | .optCommit _ => some 0x0013 | .optErase _ => some 0x0014 | .mapSet => some 0x0020 | .mapGet => some 0x0021
  | .slotSet => some 0x0022 | .slotGet => some 0x0023 | .sceneSet => some 0x0024 | .lampHost => some 0x0025
  | .roleGet => some 0x0026 | .inaugSet => some 0x0030 | .inaugGet => some 0x0031 | .linkSet => some 0x0040
  | .linkGet => some 0x0041 | .permitSet => some 0x0042 | .permitGet => some 0x0043 | .powerPolicySet => some 0x0050
  | .powerPolicyGet => some 0x0051 | .gpioSet => some 0x0060 | .gpioGet => some 0x0061 | .lampState => some 0x0100
  | .burst => some 0x0110 | .redundSwitch => some 0x0120 | .killTest => some 0x0121 | .killRelease => some 0x0122
  | .pathClear => some 0x0123 | .redundStatus => some 0x0124 | .powerSet => some 0x0130 | .counterRead => some 0x0140
  | .eyeScanStart => some 0x0150 | .eyeScanResult => some 0x0151 | .eyeScanPoints => some 0x0152
  | .faultRead => some 0x0160 | .ledgerRead => some 0x0170 | .retainedRead => some 0x0180 | .retainedWrite => some 0x0181
  | .fullReset => some 0x0190 | .fwBegin => some 0x01A0 | .fwWrite => some 0x01A1 | .fwVerify => some 0x01A2
  | .fwStatus => some 0x01A3 | .fwActivate => some 0x01A4 | _ => none

/-- The newest intact records of the log, newest first, at most `m` of them (R375). -/
def State.newestRecords (s : State) (m : Nat) : List (Word × List Byte) :=
  (s.nvmSeen.logRecords.filter fun x => !ahead32 x.1 s.nvmSeen.newestSeq).take m

/-! ### Invariants -/

/-- Every addressed memory is in canonical form: NVM areas, staging buffer, retained host region and slots. -/
def MemoriesCanonical (s : State) : Prop :=
  s.cd.nvm.option.wf 0xFF = true ∧ s.cd.nvm.bankA.wf 0xFF = true ∧ s.cd.nvm.bankB.wf 0xFF = true ∧
    s.cd.retained.host.wf 0 = true ∧ (∀ m w, s.cd.staging = some (m, w) → m.wf 0xFF = true) ∧
    ∀ n, (s.slot n).bytes.wf 0 = true

/-- REF sends Granted to a die only while its one grant register names that die, or while it withdraws another die in that
die's favour (R207). The register names one die, so Granted never stands on both GRANT links. -/
def GrantsFollowRegister (s : State) : Prop :=
  ∀ d : Die, (s.lv d.grantLink).sent = some true →
    s.ref.grant.grantee = some d ∨ ∃ x c k n, s.ref.grant = .withdrawing x (some d) c k n

end Sys2Proof.Machine
end

