-- ==== Sys2Proof/Certificates/Slice0/Obligations.lean ====
section
/-! DEFINITION. The statements about the model, chapter by chapter of the manual. Each command's statement says that the
command completes, what it sets, and what it leaves as it was. -/

open Sys2Proof Sys2Proof.Machine

/-! ### The block as a whole -/

/-- A step takes the command at the front of the queue and runs it with the queue's rest (R5); with none waiting one
microsecond passes, and codewords whose boundaries it passes leave (the model's choice, log entry 2). -/
def Obligations.StepRunsTheFrontCommand : Prop :=
  (∀ (c : Instr) (q : List Instr) (s : State), s.pending = c :: q → step s = exec c { s with pending := q }) ∧
  (∀ s : State, s.pending = [] →
    ∃ t, step s = .next t ∧ t.now = s.now + 1000 ∧ t.pending = [] ∧ t.cd = s.cd ∧ t.ao = s.ao ∧ SameHv s t ∧ SameLinks s t)

/-- No command reads or changes the queue of commands that wait: they leave it one by one, first in, first out. -/
def Obligations.CommandsLeaveTheQueueAlone : Prop :=
  (∀ (c : Instr) (s t : State), exec c s = .next t → t.pending = s.pending) ∧
  (∀ (c : Instr) (q : List Instr) (s t : State), s.pending = c :: q → step s = .next t → t.pending = q)

/-- R162, R214, R222, R274, R321, Tables 9.2, 11.1 and 12.4: what reset leaves. -/
def Obligations.ResetLeavesWhatTheTablesSay : Prop :=
  State.reset.pending = [] ∧ State.reset.ao.reset.active = true ∧ State.reset.ao.reset.level = 0 ∧
    State.reset.ao.reset.source = 0 ∧ State.reset.cd.running = false ∧ State.reset.cd.frost = false ∧
    State.reset.ld.inReset = true ∧ (∀ p, (State.reset.lane p).st = .off) ∧ State.reset.commit? = none ∧
    State.reset.position = 0 ∧ State.reset.epoch = 0 ∧ State.reset.trainTime = 0 ∧
    (∀ d, (State.reset.die d).grant = false ∧ (State.reset.die d).gate = false ∧ (State.reset.die d).slots = defaultSlots) ∧
    State.reset.ref.grant = .boot ∧ State.reset.ref.prefB = false ∧ State.reset.ref.darkSwitch = true ∧
    (∀ l e, (State.reset.lend l e).lost = true) ∧ State.reset.cd.port.prev = 2 ∧
    (∀ n, (State.reset.slot n).st = .free) ∧ (∀ k : Fin 8, (State.reset.cd.tags[k.val]).st = .free)

/-- At reset every memory is canonical and no GRANT is sent: both invariants hold there. -/
def Obligations.InvariantsHoldAtReset : Prop :=
  MemoriesCanonical State.reset ∧ GrantsFollowRegister State.reset ∧
    ∀ d : Die, (State.reset.lv d.grantLink).sent = none

/-- The memories keep their canonical form over every step, so that equal memories are equal data. -/
def Obligations.StepsKeepMemoriesCanonical : Prop :=
  ∀ s t : State, MemoriesCanonical s → step s = .next t → MemoriesCanonical t

/-- R207: over every step REF's GRANT words follow its one register, so Granted is never sent to both dies. -/
def Obligations.GrantedIsSentToOneDieOnly : Prop :=
  (∀ s t : State, GrantsFollowRegister s → step s = .next t → GrantsFollowRegister t) ∧
  (∀ s : State, GrantsFollowRegister s → ¬ ((s.lv .grantA).sent = some true ∧ (s.lv .grantB).sent = some true))

/-- R208: a die's latched grant changes only with a valid GRANT word, with the end of a kill, with a takeover of its
own, when its store is spent and its record written, and at its reset. -/
def Obligations.LatchedGrantChangesOnlyByItsEvents : Prop :=
  ∀ (c : Instr) (d : Die) (s t : State), exec c s = .next t → (t.die d).grant ≠ (s.die d).grant →
    (∃ w, c = .grantTaken d w ∨ c = .withdrawnTaken d w ∨ c = .killReleasedTaken d w) ∨ c = .levelLinkSilent d.killLink ∨
      c = .orphanTakeover d ∨ c = .finalRecordWritten d ∨ ∃ mv, c = .lampDieResetRelease d mv

/-- R281: the resets of the logic side, at every level, leave the lamp dies and REF as they are, with their links' own
ends; a lamp die resets only from its own supply, and REF only from its own. -/
def Obligations.LogicResetsLeaveTheHighVoltageSide : Prop :=
  (∀ (c : Instr) (s t : State), exec c s = .next t →
    (∃ mv r f b, c = .por mv r f b ∧ s.ao.fuses ≠ []) ∨ (∃ mv n b, c = .brownoutReset mv n b) ∨
      (∃ n, c = .rstNReset n) ∨ c = .rstNRelease ∨
      c = .watchdogExpiry ∨ (∃ l n, c = .thermalTrip l n) ∨ (∃ l, c = .thermalHoldRelease l) ∨ c = .firmwareFaultReset ∨
      (∃ d, c = .hvLinkLossReset d) ∨ (∃ mv n, c = .lastWordReturn mv n) ∨ (∃ b, c = .islandRelease b) ∨
      (∃ b, c = .resetPendingRetry b) ∨ (∃ a b e, c = .startBegin a b e) ∨ c = .firmwareSelect ∨
      (∃ b, c = .startComplete b) ∨ c = .fullResetTimeout ∨ (∃ b k, c = .blockReset b k) →
    SameHv s t ∧ t.level = s.level ∧
      (∀ (d : Die), t.lend d.cdLink .second = s.lend d.cdLink .second ∧ t.lend d.refLink .second = s.lend d.refLink .second ∧
        t.lend d.refLink .first = s.lend d.refLink .first) ∧
      t.lend .mirror .first = s.lend .mirror .first ∧ t.lend .mirror .second = s.lend .mirror .second) ∧
  (∀ (c : Instr) (d : Die) (s t : State), exec c s = .next t → (s.die d).bootDone = true → (t.die d).bootDone = false →
    ∃ mv, c = .lampDieResetRelease d mv) ∧
  (∀ (c : Instr) (s t : State), exec c s = .next t → t.ref.bootAt ≠ s.ref.bootAt → c = .refReset)

/-! ### Islands and isolated links (chapter 02) -/

/-- R44, R45: a running end sends its cycle count, its STATE byte and its RXERR with the next SEQ of its link and
direction. Only REF counts its cycle there (log entry 2). Forms whose completion this concludes: heartbeatSend. -/
def Obligations.HeartbeatCarriesCycleStateAndErrors : Prop :=
  ∀ (l : FLink) (e : LEnd) (s : State), (s.lend l e).running = true →
    ∃ t, exec (.heartbeatSend l e) s = .next t ∧
      t.wire = .link l e ((s.lend l e).txSeq + 1)
        (.heartbeat (s.cycle16 (station l e)) (s.stateOf (station l e)) (s.lend l e).rxerr) :: s.wire ∧
      (t.lend l e).txSeq = (s.lend l e).txSeq + 1 ∧ (t.lend l e).lost = (s.lend l e).lost ∧
      (t.lend l e).rxerr = (s.lend l e).rxerr ∧ (t.lend l e).opened = (s.lend l e).opened ∧
      SameOtherEnds l e s t ∧ t.la = s.la ∧ t.lb = s.lb ∧ SameLogic s t ∧ SameWrappers s t ∧ t.errs = s.errs ∧
      t.level = s.level ∧
      t.ref = (if l = .cdRef ∧ e = .second then { s.ref with cycle := s.ref.cycle + 1 } else s.ref)

/-- R38, R40, R41: the four steps of a handshake toward a running island latch one whole transfer unit, leave REQ and
ACK low and, on a lane crossing, move to the next of four slots; toward a stopped island nothing is launched. A byte
toward the host port waits for SCLK: it is launched at the first edge, held while the handshake is under way, and
latched at the third. Forms whose completion this concludes: crossingTransfer. -/
def Obligations.CrossingLatchesItsUnitOrWaits : Prop :=
  ∀ (x : Crossing) (data : List Byte) (sclk : Nat) (s : State), s.crossingFenced x = false →
    (x ≠ .ctlToHost → s.receiverRuns x = true →
      ∃ t, exec (.crossingTransfer x data sclk) s = .next t ∧
        (t.crossed x).latched = fit data (unitBytes x) ∧ (t.crossed x).req = false ∧ (t.crossed x).ack = false ∧
        (t.crossed x).transfers = (s.crossed x).transfers + 1 ∧
        (t.crossed x).slot = (if isLaneCrossing x then ((s.crossed x).slot + 1) % 4 else (s.crossed x).slot) ∧
        (∀ y, y ≠ x → t.crossed y = s.crossed y) ∧ t = { s with crossings := t.crossings }) ∧
    (x ≠ .ctlToHost → s.receiverRuns x = false →
      ∃ t, exec (.crossingTransfer x data sclk) s = .next t ∧ t = s) ∧
    (x = .ctlToHost → (s.crossed x).req = false → (s.crossed x).waiting = [] →
      ∃ t, exec (.crossingTransfer x data sclk) s = .next t ∧
        (sclk = 0 → (t.crossed x).waiting = [fit data 1] ∧ (t.crossed x).latched = (s.crossed x).latched ∧
          (t.crossed x).transfers = (s.crossed x).transfers) ∧
        (sclk = 1 ∨ sclk = 2 → (t.crossed x).waiting = [] ∧ (t.crossed x).req = true ∧ (t.crossed x).bundle = fit data 1 ∧
          (t.crossed x).latched = (s.crossed x).latched) ∧
        (3 ≤ sclk → (t.crossed x).waiting = [] ∧ (t.crossed x).req = false ∧ (t.crossed x).latched = fit data 1 ∧
          (t.crossed x).transfers = (s.crossed x).transfers + 1) ∧
        (∀ y, y ≠ x → t.crossed y = s.crossed y) ∧ t = { s with crossings := t.crossings })

/-- R50: 250 µs after the last valid frame an end finds its link lost, and 250 µs after its release it raises the loss
of a link that was not restored; what the end has raised is remembered until it is cleared. Each end decides for
itself. R50: a lost link is restored by the fourth cycle in a row with a valid HEARTBEAT, and by no earlier one; the
end keeps the sender's cycle, and of its STATE byte only one whose MODE Table 8.1 gives that sender (R210). R43, R45,
R395: codes that carry no frame the link takes have no effect but their count, which saturates; a COMMAND whose OPCODE
the die does not know is answered UNKNOWN_OPCODE (R174, R231); the error condition of a link ends after 8,192 cycles
without a rise. Forms whose completion this concludes: heartbeatReceived, heartbeatMissed, linkLost, linkStartTimeout,
linkErrorsClear, linkFrameDiscarded. -/
def Obligations.LinksAreLostRestoredAndCounted : Prop :=
  (∀ (l : FLink) (e : LEnd) (s : State), (s.lend l e).running = true →
    ((s.lend l e).lost = false →
      ∃ t, exec (.linkLost l e) s = .next t ∧ (t.lend l e).lost = true ∧
        (t.lend l e).lostAt = max s.now ((s.lend l e).lastValidAt + 250000) ∧ (t.lend l e).raised = true ∧
        (∀ m g, (m, g) ≠ (l, e) → (t.lend m g).lost = (s.lend m g).lost)) ∧
    ((s.lend l e).lost = true → (s.lend l e).upSinceStart = false → (s.lend l e).startChecked = false →
      ∃ t, exec (.linkStartTimeout l e) s = .next t ∧ (t.lend l e).lost = true ∧ (t.lend l e).startChecked = true ∧
        (t.lend l e).raised = true ∧ t.now = max s.now ((s.lend l e).releasedAt + 250000) ∧
        (∀ m g, (m, g) ≠ (l, e) → (t.lend m g).lost = (s.lend m g).lost)) ∧
    ((s.lend l e).lost = false → (s.lend l e).hbSeen = false →
      ∃ t, exec (.heartbeatMissed l e) s = .next t ∧ (t.lend l e).missed = (s.lend l e).missed + 1 ∧
        (∀ m g, (t.lend m g).lost = (s.lend m g).lost))) ∧
  (∀ (l : FLink) (e : LEnd) (cycle : Half) (st rxerr : Byte) (s : State),
    (s.lend l e).running = true → (s.lend l e).lost = true →
    ∃ t, exec (.heartbeatReceived l e cycle st rxerr) s = .next t ∧
      (t.lend l e).lost =
        !decide (4 ≤ (if (s.lend l e).hbSeen then (s.lend l e).hbRun else (s.lend l e).hbRun + 1)) ∧
      (t.lend l e).cycle = cycle ∧ (t.lend l e).hbSeen = true ∧ (t.lend l e).lastValidAt = s.now ∧
      (t.lend l e).peerRxerr = rxerr ∧
      (t.lend l e).peerState = (if modeKnown (station l e.other) st then st else (s.lend l e).peerState) ∧
      (∀ m g, (m, g) ≠ (l, e) → (t.lend m g).lost = (s.lend m g).lost)) ∧
  (∀ (l : FLink) (e : LEnd) (positive : Bool) (codes : List (BitVec 10)) (s : State),
    ((s.lend l e).running = true → frameOfCodes l positive codes = none → (s.lend l e).rxerr ≠ 0xFF →
      ∃ t, exec (.linkFrameDiscarded l e positive codes) s = .next t ∧ (t.lend l e).rxerr = (s.lend l e).rxerr + 1 ∧
        t = { s with ends := t.ends } ∧ SameOtherEnds l e s t) ∧
    ((s.lend l e).running = true → frameOfCodes l positive codes = none → (s.lend l e).rxerr = 0xFF →
      ∃ t, exec (.linkFrameDiscarded l e positive codes) s = .next t ∧ (t.lend l e).rxerr = 0xFF) ∧
    (∀ f, e = .second → (s.lend l e).running = true → frameOfCodes l positive codes = some f → f.type = 0x02 →
      (opcodesOf l).contains (byteAt f.payload 0) = false → NewCommand l f.seq s →
      ∃ t, exec (.linkFrameDiscarded l e positive codes) s = .next t ∧ Answered l f.seq [byteAt f.payload 0, 0x05] s t ∧
        t = { s with ends := t.ends, wire := t.wire }) ∧
    ((s.errs.get l).raised = true →
      ∃ t, exec (.linkErrorsClear l) s = .next t ∧ (t.errs.get l).raised = false ∧
        t.now = max s.now ((s.errs.get l).lastRiseAt + 8192 * 125000)))

/-- R46: a COMMAND without a valid RESPONSE goes out again with its SEQ, at most three times in all; after the third
try it is open no longer. R46, R48, R392: a RESPONSE closes the COMMAND of its SEQ at the CD; at a lamp die it ends
the repetition of an ALARM of that SEQ, and only of that SEQ, and takes the fault report it answers off the queue.
R46: a receiver that gets the same SEQ twice executes the COMMAND once and answers each copy: a copy of any COMMAND
for a lamp die or REF changes nothing but the moment of the last valid frame and what this end sends. Forms whose
completion this concludes: responseReceived, commandRetryTimeout, lampIdentity, mapWrite, mapRead, slotWrite,
slotRead, stateCmd, scene, lampBurst, status, refConfig, refStatus, switch, refKillRelease, refKillTest, refPathClear,
regRead, regWrite. -/
def Obligations.CommandsAreRepeatedAndAnsweredOnce : Prop :=
  (∀ (l : FLink) (seq : Byte) (o : OpenCommand) (s : State), (s.lend l .first).running = true →
    (s.lend l .first).opened.find? (OpenCommand.hasSeq seq) = some o →
    (o.tries < 3 →
      ∃ t, exec (.commandRetryTimeout l seq) s = .next t ∧
        t.wire = .link l .first seq (.command o.payload) :: s.wire ∧
        (t.lend l .first).opened.find? (OpenCommand.hasSeq seq) =
          some { o with tries := o.tries + 1, sentAt := (t.lend l .first).eofAt l } ∧
        t.now = max s.now (o.sentAt + 100000) ∧
        (t.lend l .first).opened.length = (s.lend l .first).opened.length ∧
        SameOtherEnds l .first s t ∧ SameHv s t ∧ SameLogic s t ∧ SameWrappers s t ∧ t.errs = s.errs ∧
        t.level = s.level) ∧
    (3 ≤ o.tries → o.issuer = .commit ∨ o.issuer = .plain →
      ∃ t, exec (.commandRetryTimeout l seq) s = .next t ∧ t.wire = s.wire ∧
        (t.lend l .first).opened = dropFirst (OpenCommand.hasSeq seq) (s.lend l .first).opened ∧
        SameOtherEnds l .first s t ∧ SameHv s t ∧ SameLogic s t)) ∧
  ((∀ (d : HvDie) (seq : Byte) (payload : List Byte) (o : OpenCommand) (s : State),
    (s.lend d.cdLink .first).running = true →
    (s.lend d.cdLink .first).opened.find? (OpenCommand.hasSeq seq) = some o → o.issuer = .plain →
    2 ≤ payload.length →
    ∃ t, exec (.responseReceived d.cdLink .first seq payload) s = .next t ∧
      (t.lend d.cdLink .first).opened = dropFirst (OpenCommand.hasSeq seq) (s.lend d.cdLink .first).opened ∧
      (t.lend d.cdLink .first).lastValidAt = s.now ∧ t.wire = s.wire ∧ SameOtherEnds d.cdLink .first s t ∧ SameHv s t ∧
      SameLogic s t) ∧
  (∀ (d : Die) (seq q : Byte) (payload : List Byte) (r : AlarmRecord) (s : State),
    (s.lend d.cdLink .second).running = true → (s.die d).unacked = some (r, q) →
    ∃ t, exec (.responseReceived d.cdLink .second seq payload) s = .next t ∧
      (t.die d).unacked = (if q = seq then none else some (r, q)) ∧
      (t.die d).reports = (s.die d).reports.filter (fun x => x.linkSeq ≠ seq) ∧
      t.die d.other = s.die d.other ∧ t.ref = s.ref ∧ SameLogic s t)) ∧
  ((∀ (d : Die) (seq : Byte) (a : List Byte) (s : State), (s.die d).powered = true →
    (s.lend d.cdLink .second).answerTo s.now seq = some a →
    ∀ i : Instr,
      ((∃ id, i = .lampIdentity d seq id) ∨ (∃ c f e, i = .mapWrite d seq c f e) ∨ (∃ c, i = .mapRead d seq c) ∨
        (∃ n k f l, i = .slotWrite d seq n k f l) ∨ (∃ n, i = .slotRead d seq n) ∨
        (∃ m f ep, i = .stateCmd d seq m f ep) ∨ (∃ b f, i = .scene d seq b f) ∨
        (∃ n c m, i = .lampBurst d seq n c m) ∨ i = .status d seq ∨
        (∃ k w, i = .regRead d.hv seq k w) ∨ (∃ k w l, i = .regWrite d.hv seq k w l)) →
      ∃ t, exec i s = .next t ∧ t.wire = .link d.cdLink .second seq (.response a) :: s.wire ∧
        t.lend d.cdLink .second = { s.lend d.cdLink .second with
          lastValidAt := s.now, tx := (t.lend d.cdLink .second).tx, txAt := (t.lend d.cdLink .second).txAt,
          txPositive := (t.lend d.cdLink .second).txPositive } ∧
        SameOtherEnds d.cdLink .second s t ∧ SameHv s t ∧ SameLogic s t ∧ SameWrappers s t ∧ t.level = s.level) ∧
  (∀ (seq : Byte) (a : List Byte) (s : State), (s.lend .cdRef .second).running = true →
    (s.lend .cdRef .second).answerTo s.now seq = some a →
    ∀ i : Instr,
      ((∃ b, i = .refConfig seq b) ∨ i = .refStatus seq ∨ (∃ b, i = .switch seq b) ∨ (∃ b, i = .refKillRelease seq b) ∨
        (∃ b, i = .refKillTest seq b) ∨ (∃ b m, i = .refPathClear seq b m) ∨ (∃ k w, i = .regRead .ref seq k w) ∨
        (∃ k w l, i = .regWrite .ref seq k w l)) →
      ∃ t, exec i s = .next t ∧ t.wire = .link .cdRef .second seq (.response a) :: s.wire ∧
        t.lend .cdRef .second = { s.lend .cdRef .second with
          lastValidAt := s.now, tx := (t.lend .cdRef .second).tx, txAt := (t.lend .cdRef .second).txAt,
          txPositive := (t.lend .cdRef .second).txPositive } ∧
        SameOtherEnds .cdRef .second s t ∧ SameHv s t ∧ SameLogic s t ∧ SameWrappers s t ∧ t.level = s.level))

/-- R49, Table 2.6: 1.5 µs without a valid word make a level link silent; a silent GRANT link leaves the die's latched
grant, a silent DRIVE link reads not driving, and a silent KILL link ends the kill, with the gate supply back. Forms
whose completion this concludes: levelLinkSilent. -/
def Obligations.SilentLevelLinkReadsAsTableSays : Prop :=
  ∀ (l : LLink) (s : State), (s.lv l).silent = false →
    ∃ t, exec (.levelLinkSilent l) s = .next t ∧ (t.lv l).silent = true ∧
      (t.lv l).silentAt = max s.now ((s.lv l).wordAt + 1500) ∧
      ((l = .grantA ∨ l = .grantB) → (t.lv l).taken = (s.lv l).taken ∧ ∀ d, (t.die d).grant = (s.die d).grant) ∧
      (∀ d, l = d.driveLink → t.refDriving d = false) ∧
      (∀ d, l = d.killLink → (t.die d).killed = false ∧ ((s.die d).killed = true → (t.die d).gateSupply = (s.die d).powered))

/-! ### Line lanes (chapter 03) -/

/-- Table 3.9, R69, R71: each state of bring-up ends as the table says, with its limit of time; a limit at PAM4 begins
TRAIN again at NRZ with the taps at preset, a limit at NRZ is a failed attempt. In TRIAL a receiver gains alignment
only in the first 0.200 ms, counts errors in the 1.000 ms after, and passes with alignment, no uncorrectable codeword
and at most 562 corrected symbols (281 at NRZ). The other lanes and the dies are not touched. Forms whose completion
this concludes: detectComplete, acquireTimeout, trainComplete, trainTimeout, trialEnd, verdictComplete,
verdictTimeout, backoffEnd, codewordReceived. -/
def Obligations.LaneBringUpFollowsItsTable : Prop :=
  ∀ (p : Port) (s : State),
    ((s.lane p).st = .detect → (s.lane p).present = true →
      ∃ t, exec (.detectComplete p) s = .next t ∧ (t.lane p).st = .acquire ∧
        t.now = max s.now (max (s.lane p).presentAt (s.lane p).enteredAt + 1000000) ∧
        (∀ q, q ≠ p → t.lane q = s.lane q) ∧ SameHv s t) ∧
    ((s.lane p).st = .acquire →
      ∃ t, exec (.acquireTimeout p) s = .next t ∧ (t.lane p).st = .failed ∧
        (t.lane p).failures = (s.lane p).failures + 1 ∧ t.now = max s.now ((s.lane p).enteredAt + 4000000) ∧
        (∀ q, q ≠ p → t.lane q = s.lane q) ∧ SameHv s t) ∧
    ((s.lane p).st = .train → (s.lane p).rxReady = true → (s.lane p).farRxReady = true →
      ∃ t, exec (.trainComplete p) s = .next t ∧ (t.lane p).st = .trial ∧ (t.lane p).aligned = false ∧
        (t.lane p).trialBad = 0 ∧ (t.lane p).trialCorrected = 0 ∧ t.now = s.now + 2330 ∧ (∀ q, q ≠ p → t.lane q = s.lane q) ∧
        SameHv s t) ∧
    ((s.lane p).st = .train →
      ∃ t, exec (.trainTimeout p) s = .next t ∧ t.now = max s.now ((s.lane p).enteredAt + 24000000) ∧
        ((s.lane p).nrz = false →
          (t.lane p).st = .train ∧ (t.lane p).nrz = true ∧ (t.lane p).taps = ⟨0, 4, 4⟩ ∧
          (t.lane p).failures = (s.lane p).failures) ∧
        ((s.lane p).nrz = true → (t.lane p).st = .failed ∧ (t.lane p).failures = (s.lane p).failures + 1) ∧
        (∀ q, q ≠ p → t.lane q = s.lane q) ∧ SameHv s t) ∧
    (∀ symbols : List (BitVec 10), (s.lane p).st = .trial →
      ∃ t, exec (.codewordReceived p symbols) s = .next t ∧ (t.lane p).st = .trial ∧
        (s.now < (s.lane p).enteredAt + 200000 →
          (t.lane p).aligned = ((s.lane p).aligned || alignsOn symbols && decide (3 ≤ (s.lane p).alignRun)) ∧
          (t.lane p).trialBad = (s.lane p).trialBad ∧ (t.lane p).trialCorrected = (s.lane p).trialCorrected) ∧
        ((s.lane p).enteredAt + 200000 ≤ s.now → (t.lane p).aligned = (s.lane p).aligned ∧
          (rsDecode symbols = none → (t.lane p).trialBad = (s.lane p).trialBad + 1 ∧
            (t.lane p).trialCorrected = (s.lane p).trialCorrected) ∧
          (∀ c n, rsDecode symbols = some (c, n) → (t.lane p).trialBad = (s.lane p).trialBad ∧
            (t.lane p).trialCorrected = (s.lane p).trialCorrected + n)) ∧
        (∀ q, q ≠ p → t.lane q = s.lane q) ∧ SameHv s t ∧ t.cd = s.cd ∧ t.now = s.now) ∧
    ((s.lane p).st = .trial →
      ∃ t, exec (.trialEnd p) s = .next t ∧ (t.lane p).st = .verdict ∧
        (t.lane p).trialOk = ((s.lane p).aligned && (s.lane p).trialBad == 0 &&
          decide ((s.lane p).trialCorrected ≤ if (s.lane p).nrz then 281 else 562)) ∧
        t.now = max s.now ((s.lane p).enteredAt + 1200000) ∧ (∀ q, q ≠ p → t.lane q = s.lane q) ∧ SameHv s t) ∧
    ((s.lane p).st = .verdict →
      ∃ t, exec (.verdictTimeout p) s = .next t ∧ t.now = max s.now ((s.lane p).enteredAt + 1000000) ∧
        (t.lane p).st = (if (s.lane p).nrz then .failed else .train) ∧ (∀ q, q ≠ p → t.lane q = s.lane q) ∧
        SameHv s t) ∧
    ((s.lane p).st = .verdict → (s.lane p).trialOk = true → (s.lane p).farConf = true → (s.lane p).farOk = true →
      ∃ t, exec (.verdictComplete p) s = .next t ∧ (t.lane p).st = .up ∧ (t.lane p).failures = 0 ∧
        (t.port p).creditSeen = false ∧ (∀ q, q ≠ p → t.lane q = s.lane q) ∧ SameHv s t) ∧
    ((s.lane p).st = .failed →
      ∃ t, exec (.backoffEnd p) s = .next t ∧ (t.lane p).st = .detect ∧ (t.lane p).taps = ⟨0, 4, 4⟩ ∧
        t.now = max s.now ((s.lane p).enteredAt + if (s.lane p).failRaised then 1000000000 else 10000000) ∧
        (∀ q, q ≠ p → t.lane q = s.lane q) ∧ SameHv s t)

/-- R73, R74, R76, R77: the loss of lock or of the signal on a lane in UP is an interruption; the 16th within 1 s is a
loss at once. A lane that is aligned again in time is UP again and the interruption is counted; one that is not starts
a full bring-up, and the engine learns the lane, when the interruption began and when the lane was lost. R61, R64,
R65, Table 3.5: in TRAIN the CONTROL word of a frame with MARKER acts after three equal values in a row, and whatever
the far node asks for, the taps never leave the ranges of Table 3.5. In UP or BLINK, eight training markers in a row
lose the lane (R75). Forms whose completion this concludes: laneSignalChange, trainingFrameReceived, cdrLockLost,
fastRelock, blinkTimeout. -/
def Obligations.InterruptedLanesAndTrainingMarkers : Prop :=
  (∀ (p : Port) (s : State),
    (s.laneUp p = true →
      ∃ t, exec (.cdrLockLost p) s = .next t ∧
        (t.lane p).st =
          (if 15 ≤ ((s.lane p).begins.filter fun b => s.now ≤ b + 1000000000).length then .detect else .blink) ∧
        (t.lane p).blinkAt = s.now ∧ (∀ q, (t.port q).cutThrough ≠ some p) ∧ (∀ q, q ≠ p → t.lane q = s.lane q) ∧
        SameHv s t) ∧
    (s.laneUp p = true → (s.lane p).st = .up → (s.lane p).present = true →
      ∃ t, exec (.laneSignalChange p true false) s = .next t ∧ (t.lane p).present = false ∧ (t.lane p).los = true ∧
        ((s.lane p).begins = [] → (t.lane p).st = .blink ∧ (t.lane p).blinkAt = s.now) ∧
        (∀ q, q ≠ p → t.lane q = s.lane q) ∧ SameHv s t) ∧
    ((s.lane p).st = .blink → (s.lane p).present = true → (s.lane p).aligned = true → s.now < (s.lane p).blinkAt + 2000000 →
      s.now ≤ (s.lane p).blinkEnd →
      ∃ t, exec (.fastRelock p) s = .next t ∧ (t.lane p).st = .up ∧
        (t.port p).counters.blinks = satAdd (s.port p).counters.blinks 1 ∧ (t.port p).creditSeen = false ∧
        (∀ q, q ≠ p → t.lane q = s.lane q ∧ t.port q = s.port q) ∧ SameHv s t ∧ t.cd = s.cd ∧ t.now = s.now) ∧
    ((s.lane p).st = .blink →
      ∃ t, exec (.blinkTimeout p) s = .next t ∧ (t.lane p).st = .detect ∧ t.now = max s.now (s.lane p).blinkEnd ∧
        (t.vend p.vend).lost = some ⟨p, (s.lane p).blinkAt, t.now⟩ ∧ (∀ q, q ≠ p → t.lane q = s.lane q) ∧ SameHv s t)) ∧
  (∀ (p : Port) (ui : List Bool) (adapted : Bool) (s : State),
    (∀ control status : Half, (s.lane p).st = .train → (s.lane p).frameLock = true → markerSeen ui ≠ .missed →
      wordsOf (upright ui) = some (control, status) → ctlOk control = true →
      ∃ t, exec (.trainingFrameReceived p ui adapted) s = .next t ∧
        (t.lane p).st = .train ∧ (t.lane p).ctlSeen = control ∧
        (t.lane p).farControl =
          (if (s.lane p).ctlSeen = control ∧ 2 ≤ (s.lane p).ctlRun then control else (s.lane p).farControl) ∧
        ((s.lane p).taps.ok = true → (t.lane p).taps.ok = true) ∧ (∀ q, q ≠ p → t.lane q = s.lane q) ∧ SameHv s t ∧
        t.cd = s.cd) ∧
    ((s.lane p).st = .train → markerSeen ui = .missed →
      ∃ t, exec (.trainingFrameReceived p ui adapted) s = .next t ∧ (t.lane p).st = .train ∧ (t.lane p).ctlRun = 0 ∧
        (t.lane p).staRun = 0 ∧ (t.lane p).taps = (s.lane p).taps ∧ (∀ q, q ≠ p → t.lane q = s.lane q) ∧ SameHv s t) ∧
    ((s.lane p).st = .up ∨ (s.lane p).st = .blink → markerSeen ui ≠ .missed →
      ∃ t, exec (.trainingFrameReceived p ui adapted) s = .next t ∧
        ((s.lane p).markers < 7 → (t.lane p).st = (s.lane p).st ∧ (t.lane p).markers = (s.lane p).markers + 1) ∧
        (7 ≤ (s.lane p).markers → (t.lane p).st = .detect) ∧ (∀ q, q ≠ p → t.lane q = s.lane q) ∧ SameHv s t) ∧
    ((s.lane p).st = .up ∨ (s.lane p).st = .blink → markerSeen ui = .missed →
      ∃ t, exec (.trainingFrameReceived p ui adapted) s = .next t ∧ (t.lane p).st = (s.lane p).st ∧
        (t.lane p).markers = 0 ∧ (∀ q, q ≠ p → t.lane q = s.lane q) ∧ SameHv s t))

/-- R82 to R85, R88, R104: an UP lane counts each codeword; one that decodes with a valid FPTR counts its corrected
symbols and goes on with the frames it carries, any other one is counted uncorrectable; the eighth bad one in a row
ends the alignment. R61, R62, R79 to R81: the stored parameters of an UP lane are refreshed once a cycle within their
ranges, and a scan that has visited its grid is done. Forms whose completion this concludes: laneParamRefresh,
eyeScanDone, codewordReceived. -/
def Obligations.CodewordsAndLaneBooksAreKept : Prop :=
  (∀ (p : Port) (symbols : List (BitVec 10)) (s : State), s.laneUp p = true →
    (∀ d, decodeCodeword (s.port p).rx.dscr symbols = some d → (s.lane p).badCodewords < 7 →
      (assemble ⟨(s.port p).rx.bytes, (s.port p).rx.skip⟩ d.ins d.fptr d.payload).1 = [] →
      ∃ t, exec (.codewordReceived p symbols) s = .next t ∧
        (t.port p).counters =
          { (s.port p).counters with
            cwReceived := satAdd (s.port p).counters.cwReceived 1,
            cwCorrected := if 0 < d.corrected then satAdd (s.port p).counters.cwCorrected 1 else (s.port p).counters.cwCorrected,
            symCorrected := if 0 < d.corrected then satAdd (s.port p).counters.symCorrected d.corrected
              else (s.port p).counters.symCorrected } ∧
        (t.port p).rx.bytes = (assemble ⟨(s.port p).rx.bytes, (s.port p).rx.skip⟩ d.ins d.fptr d.payload).2.bytes ∧
        (t.lane p).badCodewords = (if d.mark = 0xB4 then 0 else (s.lane p).badCodewords + 1) ∧
        (t.lane p).st = .up ∧ (∀ q, q ≠ p → t.lane q = s.lane q ∧ t.port q = s.port q) ∧ SameHv s t ∧
        t.cd = s.cd ∧ t.now = s.now) ∧
    (decodeCodeword (s.port p).rx.dscr symbols = none → (s.lane p).badCodewords < 7 →
      ∃ t, exec (.codewordReceived p symbols) s = .next t ∧
        (t.port p).counters.cwReceived = satAdd (s.port p).counters.cwReceived 1 ∧
        (t.port p).counters.cwUncorr = satAdd (s.port p).counters.cwUncorr 1 ∧ (t.port p).rx.skip = true ∧
        (t.lane p).badCodewords = (s.lane p).badCodewords + 1 ∧ (t.lane p).st = .up ∧ SameHv s t) ∧
    (decodeCodeword (s.port p).rx.dscr symbols = none → 7 ≤ (s.lane p).badCodewords →
      ∃ t, exec (.codewordReceived p symbols) s = .next t ∧ (t.lane p).aligned = false ∧
        ((t.lane p).st = .blink ∨ (t.lane p).st = .detect) ∧ (t.lane p).blinkAt = s.now ∧ SameHv s t)) ∧
  ((∀ (p : Port) (x : LaneParams) (s : State), s.laneUp p = true → paramsOk x = true →
    ∃ t, exec (.laneParamRefresh p x) s = .next t ∧ (t.lane p).params = x ∧ (t.lane p).storedTaps = (s.lane p).taps ∧
      (t.lane p).st = (s.lane p).st ∧ t.now = max s.now ((s.lane p).paramsAt + 125000) ∧
      (∀ q, q ≠ p → t.lane q = s.lane q) ∧ (∀ q, t.port q = s.port q) ∧ t = { s with ld := t.ld, now := t.now }) ∧
  (∀ (counts : List Word) (s : State), s.ld.eye.st = 1 →
    ∃ t, exec (.eyeScanDone counts) s = .next t ∧ t.ld.eye.st = 2 ∧ t.ld.eye.counts = counts ∧
      t.ld.eye.lane = s.ld.eye.lane ∧ t.ld.eye.measured = min counts.length (if s.ld.eye.nrz then 8128 else 24384) ∧
      (∀ p, t.lane p = s.lane p ∧ t.port p = s.port p) ∧ t = { s with ld := t.ld }))

/-! ### Line frames, the local port and train time (chapter 04) -/

/-- R90, R92, R97, R200, R204: the first copy of another node's ALARM enters the train alarm table and the slot of
every port of the other end that may send it, with TTL one less; a record of a reserved KIND is forwarded and not
entered; a later copy of the same key is forwarded and entered no more. R201, R202, R204: the node repeats its own
record with a new SEQ every 8 cycles while a channel is dark, and an entry not repeated for 64 cycles is stale; R94,
R107: at the next codeword boundary the slot's ALARM takes the codeword's first bytes, with INS = 1; it leaves once,
or as three copies on a fenced port. R48: at each boundary of its cycle the die repeats the insertion of its latest
unacknowledged record with the same SEQ; the CD answers every valid copy with its SEQ, and acts on a SEQ only once.
Forms whose completion this concludes: alarmRepeatInsertion, alarmFrameReceived, lineAlarmReceived, alarmSlotInsert,
alarmRepeat, alarmEntryStale. -/
def Obligations.AlarmsTravelAndAreRepeated : Prop :=
  (∀ (p : Port) (h : LineHdr) (a : AlarmP) (s : State), s.laneUp p = true →
    (s.seenKey (floodKey ⟨h, .alarm { a with beaconCopy := false }⟩ s.now) = true →
      ∃ t, exec (.lineAlarmReceived p h a) s = .next t ∧ t.ld.alarms = s.ld.alarms ∧ t.ld.alarmGen = s.ld.alarmGen ∧
        (∀ q, (t.port q).alarmSlot = (s.port q).alarmSlot) ∧ (∀ q, q ≠ p → t.port q = s.port q) ∧
        (∀ q, t.lane q = s.lane q) ∧ t = { s with ld := t.ld }) ∧
    (s.seenKey (floodKey ⟨h, .alarm { a with beaconCopy := false }⟩ s.now) = false → 1 < h.ttl.toNat →
      ∃ t, exec (.lineAlarmReceived p h a) s = .next t ∧
        (alarmKnown a.record.kind = true → (∀ e ∈ s.ld.alarms, e.srcId ≠ a.srcId) → s.ld.alarms.length < 64 →
          a.record.darkMask ≠ 0 → t.ld.alarms = s.ld.alarms ++ [⟨a.srcId, a.record, s.now, s.now, false⟩] ∧
          t.ld.alarmGen = s.ld.alarmGen + 1) ∧
        (alarmKnown a.record.kind = false → t.ld.alarms = s.ld.alarms ∧ t.cd = s.cd) ∧
        (∀ q, q ∈ oppositePorts p → s.alarmPort q = true →
          (t.port q).alarmSlot = some ⟨{ h with ttl := h.ttl - 1 }, .alarm { a with beaconCopy := false }⟩) ∧
        (∀ q, q ∉ oppositePorts p → (t.port q).alarmSlot = (s.port q).alarmSlot) ∧ (∀ q, t.lane q = s.lane q) ∧
        SameHv s t ∧ SameLinks s t ∧ t.now = s.now ∧ t.wire = s.wire)) ∧
  ((∀ (r : AlarmRecord) (s : State), s.ld.ownRecord = some r → r.darkMask ≠ 0 → s.ldRuns = true →
    ∃ t, exec .alarmRepeat s = .next t ∧ t.ld.seqAlarm = s.ld.seqAlarm + 1 ∧
      t.now = max s.now (s.ld.alarmAt + 1000000) ∧ t.ld.alarmAt = t.now ∧
      (∀ q, s.alarmPort q = true → (t.port q).alarmSlot =
        some ⟨⟨s.position, 0, 63, s.epoch, s.ld.seqAlarm + 1⟩, .alarm ⟨s.nodeId, true, false, r⟩⟩) ∧ SameHv s t ∧
      SameLinks s t) ∧
  (∀ (id : NodeId) (e : AlarmEntry) (s : State), s.ld.alarms.find? (fun e => e.srcId = id) = some e →
    ∃ t, exec (.alarmEntryStale id) s = .next t ∧ t.now = max s.now (e.repeatAt + 8000000) ∧
      (∀ x ∈ t.ld.alarms, x.srcId = id → x.stale = true) ∧ t.ld.alarms.length = s.ld.alarms.length ∧ SameHv s t ∧
      t.cd = s.cd ∧ SameLinks s t) ∧
  (∀ (p : Port) (f : LineFrame) (s : State), (s.port p).alarmSlot = some f → s.alarmPort p = true →
    ∃ t, exec (.alarmSlotInsert p) s = .next t ∧
      (∃ g w r, t.wire = .line p g :: w ∧ g.hdr = f.hdr ∧ (t.port p).tx.cur = lineBytes g ++ r) ∧ (t.port p).tx.ins = true ∧
      t.now = max s.now (unitsNs (t.port p).tx.at_) ∧
      (s.shut p = false → (t.port p).alarmSlot = none) ∧
      (s.shut p = true → (t.port p).alarmSlot = (if (s.port p).alarmCopies < 2 then some f else none)) ∧
      (∀ q, q ≠ p → (t.port q).alarmSlot = (s.port q).alarmSlot) ∧ SameHv s t ∧ SameLinks s t ∧ t.cd = s.cd)) ∧
  ((∀ (d : Die) (r : AlarmRecord) (q : Byte) (s : State), (s.die d).powered = true → (s.die d).unacked = some (r, q) →
    (s.die d).insertedAt < (s.die d).clock.boundaryAt →
    ∃ t, exec (.alarmRepeatInsertion d) s = .next t ∧ t.wire = .alarmInsertion d q r :: s.wire ∧
      (t.die d).insertedAt = s.now ∧ (t.die d).unacked = some (r, q) ∧
      (t.lend d.cdLink .second).txSeq = (s.lend d.cdLink .second).txSeq ∧ SameOtherEnds d.cdLink .second s t ∧
      t.die d.other = s.die d.other ∧ t.ref = s.ref ∧ SameLogic s t) ∧
  (∀ (d : Die) (seq : Byte) (r : AlarmRecord) (s : State), (s.lend d.cdLink .first).running = true →
    ((s.lend d.cdLink .first).alarmSeqSeen = some seq →
      ∃ t, exec (.alarmFrameReceived d seq r) s = .next t ∧
        t.wire = .link d.cdLink .first seq (.response []) :: s.wire ∧ t.ld = s.ld ∧ t.cd = s.cd ∧ SameHv s t) ∧
    ((s.lend d.cdLink .first).alarmSeqSeen ≠ some seq → s.ld.inReset = false →
      (s.trainTime.toNat - r.tt.toNat) + (r.tt.toNat - s.trainTime.toNat) ≤ 5000 → laterRecord s.ld.ownRecord r = true →
      ∃ t, exec (.alarmFrameReceived d seq r) s = .next t ∧
        (t.lend d.cdLink .first).alarmSeqSeen = some seq ∧ t.ld.ownRecord = some r ∧ SameHv s t)))

/-- R90: a key leaves the flood table 2 ms after it was seen. R92, R107, R128: a BEACON opens its lane to every class,
enters the BEACON table and, from the far node itself, tells whether the far port is fenced. R100, R101: the first
CREDIT after a port comes up gives SENT its value, every CREDIT gives the far end's freed units; a CREDIT of this port
carries its accepted and freed units, goes at once after a change of them and otherwise once per cycle, and replaces
one that has not started. Forms whose completion this concludes: creditReceived, beaconReceived, floodKeyAged,
creditSend. -/
def Obligations.BeaconsKeysAndCreditsAreKept : Prop :=
  ((∀ (k : FloodKey) (r : List FloodKey) (s : State), s.ld.flood = k :: r →
    ∃ t, exec .floodKeyAged s = .next t ∧ t.ld.flood = r ∧ t.now = max s.now (k.at_ + 2000000) ∧ SameHv s t ∧
      t.cd = s.cd ∧ (∀ q, t.port q = s.port q)) ∧
  (∀ (p : Port) (h : LineHdr) (b : BeaconP) (s : State), s.laneUp p = true →
    ∃ t, exec (.beaconReceived p h b) s = .next t ∧ (t.lane p).beaconSeen = true ∧
      ⟨b, s.now, p⟩ ∈ t.ld.engine.beacons ∧
      (h.ttl = 63 → b.txSkip = p.isSkip → (t.port p).far = ⟨true, portBit b.fenced (txPortOf b), b.nodeId⟩) ∧
      (∀ q, q ≠ p → t.lane q = s.lane q) ∧ SameHv s t)) ∧
  (∀ (p : Port) (s : State), s.laneUp p = true →
    (∀ (h : LineHdr) (c : CreditP), ∃ t, exec (.creditReceived p h c) s = .next t ∧ (t.port p).creditSeen = true ∧
      (t.port p).mgmt = ⟨if (s.port p).creditSeen then (s.port p).mgmt.sent else c.mAcc, c.mFree, (s.port p).mgmt.acc,
        (s.port p).mgmt.freed⟩ ∧
      (t.port p).carried = ⟨if (s.port p).creditSeen then (s.port p).carried.sent else c.cAcc, c.cFree,
        (s.port p).carried.acc, (s.port p).carried.freed⟩ ∧
      (∀ q, q ≠ p → t.port q = s.port q) ∧ (∀ q, t.lane q = s.lane q) ∧ t = { s with ld := t.ld }) ∧
    (∃ t, exec (.creditSend p) s = .next t ∧
      (t.port p).control = (s.port p).control.filter (fun f => !isCredit f) ++
        [⟨⟨s.position, 0, 63, s.epoch, (s.port p).seqCredit + 1⟩,
        .credit ⟨(s.port p).carried.acc, (s.port p).carried.freed, (s.port p).mgmt.acc, (s.port p).mgmt.freed⟩⟩] ∧
      t.now = (if (s.port p).counts = (s.port p).creditSent then max s.now ((s.port p).creditAt + 125000) else s.now) ∧
      (t.port p).creditSent = (s.port p).counts ∧ (t.port p).creditAt = t.now ∧
      (t.port p).seqCredit = (s.port p).seqCredit + 1 ∧ (∀ q, q ≠ p → t.port q = s.port q) ∧
      (∀ q, t.lane q = s.lane q) ∧ t = { s with ld := t.ld, now := t.now }))

/-- R94, R95, R100, R107, R115: at the next frame boundary a waiting control frame goes first, oldest first, a TIME
frame with the train time of that boundary; then the first frame of the four credit classes whose units its pool
covers, and those units count as sent. A port starts no frame that its credits do not cover, and none before a frame
that is cut through has ended. R105, R106, R108: over a whole clean port cycle ERRCNT falls by one after every 16, and
128 of them requalify a fenced port with ERRCNT 0; a cycle with a symbol error ratio above 1.0 × 10^-4 before
correction raises it, and at 255 the port is fenced. The next port cycle begins where this one ends. Forms whose
completion this concludes: frameTransmitStart, portCycleEnd. -/
def Obligations.TransmissionAndPortFencing : Prop :=
  (∀ (p : Port) (s : State), s.laneUp p = true →
    (∀ f r, (s.port p).control = f :: r → (s.port p).cutThrough = none →
      ((∃ b, f.body = .beacon b) ∨ s.carries p = true ∧ isCredit f = false ∧ (∀ x, f.body ≠ .time x) ∨
        isCredit f = true ∧ (s.port p).creditCw = none) →
      ∃ t, exec (.frameTransmitStart p) s = .next t ∧ (∃ w, t.wire = .line p f :: w) ∧ (t.port p).control = r ∧
        (t.port p).tx.placed ++ (t.port p).tx.rest = lineBytes f ∧ s.now ≤ t.now ∧
        (t.port p).mgmt.sent = (s.port p).mgmt.sent ∧ (t.port p).carried.sent = (s.port p).carried.sent ∧
        (∀ q, t.lane q = s.lane q) ∧ SameHv s t ∧ SameLinks s t ∧ t.cd = s.cd) ∧
    (∀ f x r, (s.port p).control = f :: r → f.body = .time x → (s.port p).cutThrough = none → s.carries p = true →
      ∃ t, exec (.frameTransmitStart p) s = .next t ∧ (t.port p).control = r ∧
        (∃ w, t.wire = .line p ⟨f.hdr, .time { x with tt := t.trainTime, t3 := if x.echo then t.stamp else x.t3 }⟩ :: w) ∧
        (x.echoReq = true → (t.port p).echoOut = some (f.hdr.seq, t.stamp)) ∧
        (∀ q, t.lane q = s.lane q) ∧ SameHv s t ∧ SameLinks s t ∧ t.cd = s.cd) ∧
    ((s.port p).control = [] → (s.port p).cutThrough = none →
      ∀ x, s.nextPooled p = some x →
        (s.port p).covers x.2.2 = true ∧
        ∃ t, exec (.frameTransmitStart p) s = .next t ∧ (∃ w, t.wire = .line p x.2.2 :: w) ∧
          (∀ m, x.2.2.body = .mgmt m → (t.port p).mgmt.sent = (s.port p).mgmt.sent + BitVec.ofNat 16 (unitsOf (.mgmt m))) ∧
          (∀ c, x.2.2.body = .carried c →
            (t.port p).carried.sent = (s.port p).carried.sent + BitVec.ofNat 16 (unitsOf (.carried c))) ∧
          (t.port p).control = [] ∧ (∀ q, t.lane q = s.lane q) ∧ SameHv s t ∧ SameLinks s t ∧ t.cd = s.cd) ∧
    (((s.port p).control = [] ∧ s.nextPooled p = none) ∨ (s.port p).cutThrough.isSome = true →
      ∃ t, exec (.frameTransmitStart p) s = .next t ∧ t = s)) ∧
  (∀ (p : Port) (s : State), s.ld.inReset = false →
    ((s.port p).serHigh = false → (s.port p).wholeUp = true → s.laneUp p = true → (s.port p).errRose = false →
      ∃ t, exec (.portCycleEnd p) s = .next t ∧ t.now = max s.now ((s.port p).cycleAt + 125000) ∧
        (t.port p).fenced = ((s.port p).fenced && decide ((s.port p).requalRun < 127)) ∧
        (t.port p).errcnt =
          (if (s.port p).fenced = true ∧ 127 ≤ (s.port p).requalRun then 0
           else if ((s.port p).cleanRun + 1) % 16 = 0 then (s.port p).errcnt - 1 else (s.port p).errcnt) ∧
        (t.port p).cleanRun = (s.port p).cleanRun + 1 ∧ (t.port p).errRose = false ∧
        (t.port p).cycleAt = (s.port p).cycleAt + 125000 ∧
        (∀ q, t.lane q = s.lane q) ∧ SameHv s t) ∧
    (10000 * (s.port p).cycCorr > (s.port p).cycSym → s.laneUp p = true →
      ∃ t, exec (.portCycleEnd p) s = .next t ∧ (t.port p).errcnt = min 255 ((s.port p).errcnt + 1) ∧
        (t.port p).fenced = ((s.port p).fenced || decide (254 ≤ (s.port p).errcnt)) ∧ (t.port p).errRose = false ∧
        (∀ q, t.lane q = s.lane q) ∧ SameHv s t))

/-- R110, R256, Table 4.7, Table 4.8: an accepted local frame is carried unchanged, a group address on every lane that
carries; a frame the port does not accept is counted where the tables say and goes no further. R91, R93, R95, R98 to
R100, R111: a CARRIED frame for this node is delivered to the interface its destination was learned on, and its units
count as accepted and freed; one whose last byte has not come counts as accepted and waits; one for another node goes
on by its route with TTL one less; a MGMT request for this node waits in a queue of 64, and a full queue drops it and
counts it; a learned address is forgotten after 300 s. Forms whose completion this concludes: carriedReceived,
mgmtRequestReceived, localFrameReceived, macEntryAged. -/
def Obligations.LocalAndAddressedFramesReachTheirPlace : Prop :=
  (∀ (i : LocalIf) (frame : List Byte) (s : State), s.ifaceSet i = true → s.ifaceFenced i = false →
    (64 ≤ frame.length → frame.length ≤ 1522 → half frame 12 ≠ 0x8808 → s.ingressBytes i + frame.length ≤ 32768 →
      isGroup frame = true →
      ∃ t, exec (.localFrameReceived i frame true) s = .next t ∧
        (t.ld.loc i).counters.accepted = satAdd (s.ld.loc i).counters.accepted 1 ∧
        (∀ p, (t.port p).localCarried = (s.port p).localCarried ++
          (if s.carries p then
            [⟨⟨s.position, 0, 63, s.epoch, s.ld.seqCarriedF + 1⟩, .carried ⟨i, frame⟩⟩] else [])) ∧
        t.ld.seqCarriedF = s.ld.seqCarriedF + 1 ∧ SameHv s t ∧ SameLinks s t ∧ t.cd = s.cd ∧ t.wire = s.wire) ∧
    (∀ ok, 1522 < frame.length →
      ∃ t, exec (.localFrameReceived i frame ok) s = .next t ∧
        (t.ld.loc i).counters = { (s.ld.loc i).counters with linOversize := satAdd (s.ld.loc i).counters.linOversize 1 } ∧
        (∀ p, t.port p = s.port p) ∧ t = { s with ld := t.ld }) ∧
    (frame.length ≤ 1522 →
      ∃ t, exec (.localFrameReceived i frame false) s = .next t ∧
        (t.ld.loc i).counters = { (s.ld.loc i).counters with linFcs := satAdd (s.ld.loc i).counters.linFcs 1 } ∧
        (∀ p, t.port p = s.port p) ∧ t = { s with ld := t.ld }) ∧
    (64 ≤ frame.length → frame.length ≤ 1522 → half frame 12 = 0x8808 →
      ∃ t, exec (.localFrameReceived i frame true) s = .next t ∧
        (t.ld.loc i).counters = { (s.ld.loc i).counters with linPause := satAdd (s.ld.loc i).counters.linPause 1 } ∧
        (∀ p, t.port p = s.port p) ∧ t = { s with ld := t.ld })) ∧
  ((∀ (p : Port) (h : LineHdr) (c : CarriedP) (i : LocalIf) (s : State), s.carries p = true → h.epoch = s.epoch →
    s.position ≠ 0 → h.dst = s.position → isGroup c.frame = false → s.ifaceOn i = true → id48 c.frame 6 ≠ id48 c.frame 0 →
    (s.port p).rx.inCut = none → s.egressBytes i + c.frame.length ≤ 32768 →
    s.lookupMac (id48 c.frame 0) = some (.iface i) →
    ∃ t, exec (.carriedReceived p h c true) s = .next t ∧ t.wire = .local_ i c.frame :: s.wire ∧
      (t.ld.loc i).counters.delivered = satAdd (s.ld.loc i).counters.delivered 1 ∧
      (t.port p).carried.acc = (s.port p).carried.acc + BitVec.ofNat 16 (unitsOf (.carried c)) ∧
      (t.port p).carried.freed = (s.port p).carried.freed + BitVec.ofNat 16 (unitsOf (.carried c)) ∧
      (∀ q, q ≠ p → t.port q = s.port q) ∧ SameHv s t ∧ SameLinks s t ∧ t.cd = s.cd) ∧
  (∀ (p : Port) (h : LineHdr) (c : CarriedP) (s : State), s.carries p = true → h.epoch = s.epoch →
    s.position ≠ 0 → h.dst = s.position → (s.port p).rx.inCut = none →
    ∃ t, exec (.carriedReceived p h c false) s = .next t ∧ t.wire = s.wire ∧
      (t.port p).rx.inCut = some ⟨⟨h, .carried c⟩, true, true⟩ ∧
      (t.port p).carried.acc = (s.port p).carried.acc + BitVec.ofNat 16 (unitsOf (.carried c)) ∧
      (t.port p).carried.freed = (s.port p).carried.freed ∧ t = { s with ld := t.ld }) ∧
  (∀ (p q : Port) (h : LineHdr) (c : CarriedP) (s : State), s.carries p = true → h.epoch = s.epoch →
    s.position ≠ 0 → h.dst ≠ s.position → h.dst ≠ 0 → (s.port p).rx.inCut = none → s.route h.dst = some q →
    1 < h.ttl.toNat →
    ∃ t, exec (.carriedReceived p h c true) s = .next t ∧ t.wire = s.wire ∧
      (t.port q).transitCarried =
        (s.port q).transitCarried ++ [⟨p, true, true, ⟨{ h with ttl := h.ttl - 1 }, .carried c⟩⟩] ∧
      t = { s with ld := t.ld }) ∧
  (∀ (p : Port) (h : LineHdr) (m : MgmtP) (s : State), s.carries p = true → h.epoch = s.epoch → s.position ≠ 0 →
    h.dst = s.position → (s.port p).rx.inCut = none →
    ∃ t, exec (.mgmtRequestReceived p h m true) s = .next t ∧
      t.ld.mgmtQueue = (if s.ld.mgmtQueue.length < 64 then s.ld.mgmtQueue ++ [(p, h, m)] else s.ld.mgmtQueue) ∧
      t.ld.mgmtqDrop = (if s.ld.mgmtQueue.length < 64 then s.ld.mgmtqDrop else satAdd s.ld.mgmtqDrop 1) ∧
      (t.port p).mgmt.acc = (s.port p).mgmt.acc + BitVec.ofNat 16 (unitsOf (.mgmt m)) ∧
      (t.port p).mgmt.freed = (s.port p).mgmt.freed + BitVec.ofNat 16 (unitsOf (.mgmt m)) ∧
      (∀ q, q ≠ p → t.port q = s.port q) ∧ SameHv s t ∧ SameLinks s t ∧ t.cd = s.cd) ∧
  (∀ (mac : NodeId) (e : MacEntry) (s : State), s.ld.mac.find? (fun e => e.mac = mac) = some e →
    ∃ t, exec (.macEntryAged mac) s = .next t ∧ t.now = max s.now (e.at_ + 300000000000) ∧
      t.ld.mac = s.ld.mac.filter (fun e => e.mac ≠ mac) ∧ SameHv s t ∧ SameLinks s t ∧ t.cd = s.cd))

/-- R113 to R118: TIME from the source lane disciplines train time, by a step beyond 2,000 ns and by slewing
otherwise; a step takes place at a cycle boundary; every lane that carries sends TIME each cycle, and asks for an echo
every 64; a node whose source is silent for 8 cycles is in holdover. R37, R51, R120, R166: once in each train cycle
the LD sends TIME to a lamp die, with the train time at which its SOF leaves, and every 1,024 cycles with ECHO_REQ.
The round trip is the time from one SOF to the other less the die's TURN, and the LD's frames carry it (log entry 64).
A lamp die takes a TIME frame with half of it and the frame's length, slews, or steps for STEPPED or more than 2,000
ns, and answers what asks for an echo. Forms whose completion this concludes: timeLinkDelayMeasure, timeLinkSend,
lampTimeFrameReceived, lineTimeReceived, timeSend, timeEchoRequest, trainTimeStep, holdoverEnter,
timeLinkEchoReceived. -/
def Obligations.TrainTimeIsSentAndFollowed : Prop :=
  ((∀ (p : Port) (h : LineHdr) (x : TimeP) (since : Nat) (s : State), s.carries p = true →
    (s.commit?.isSome = true → h.epoch = s.epoch) →
    ∃ t, exec (.lineTimeReceived p h x since) s = .next t ∧ (t.port p).lastSteps = some x.steps ∧
      (t.port p).lastTimeEpoch = h.epoch ∧ (∀ q, q ≠ p → t.port q = s.port q) ∧ (∀ q, t.lane q = s.lane q) ∧
      (∀ off : Int, s.commit? = none → s.ld.clock.sourcePort = none ∨ s.ld.clock.sourcePort = some p → x.echo = false →
        off = ((x.tt.toNat + (s.port p).laneDelay : Nat) : Int) - ((s.trainTimeAt (s.now - since)).toNat : Int) →
        t.ld.clock.sourcePort = some p ∧ t.ld.clock.followed = true ∧ t.ld.clock.steps = x.steps + 1 ∧
          t.ld.clock.sourceAt = s.now ∧ (2000 < off.natAbs → t.ld.clock.stepBy = some off) ∧
          (off.natAbs ≤ 2000 → t.ld.clock.stepBy = none ∧ t.ld.clock.slewNs = off - max (-25) (min 25 off))) ∧
      (s.position = 1 → s.commit?.isSome = true → t.trainTime = s.trainTime ∧ t.ld.clock = s.ld.clock) ∧
      SameHv s t ∧ t.now = s.now) ∧
  (∀ (off : Int) (s : State), s.ld.clock.stepBy = some off →
    ∃ t, exec .trainTimeStep s = .next t ∧ t.ld.clock.stepBy = none ∧ t.ld.clock.steppedAt = some t.cycle ∧
      t.now = s.momentOf s.nextBoundary ∧ t.trainTime = BitVec.ofInt 64 ((s.trainTimeAt t.now).toNat + off) ∧ SameHv s t ∧ t.cd = s.cd ∧ SameLinks s t ∧
      (∀ q, t.port q = s.port q)) ∧
  (∀ s : State, s.ldRuns = true →
    ∃ t, exec .timeSend s = .next t ∧ t.now = max s.now (s.ld.clock.lastSendAt + 125000) ∧ t.ld.clock.lastSendAt = t.now ∧
      (∀ p, (t.port p).control.length = (s.port p).control.length + (if s.carries p then 1 else 0)) ∧
      (∀ p, s.carries p = true → (t.port p).echoOwed = none ∧ (t.port p).echoDue = false) ∧ SameHv s t ∧ SameLinks s t ∧
      t.cd = s.cd) ∧
  (∀ (p : Port) (s : State), s.laneUp p = true →
    ∃ t, exec (.timeEchoRequest p) s = .next t ∧ (t.port p).echoDue = true ∧ t.now = max s.now (s.port p).echoAt ∧
      (t.port p).echoAt = t.now + 8000000 ∧ (∀ q, q ≠ p → t.port q = s.port q) ∧ (∀ q, t.lane q = s.lane q) ∧
      t = { s with ld := t.ld, now := t.now }) ∧
  (∀ s : State, s.ldRuns = true → s.ld.clock.holdover = false → s.ld.clock.followed = true → s.position ≠ 1 →
    ∃ t, exec .holdoverEnter s = .next t ∧ t.ld.clock.holdover = true ∧
      t.now = max s.now (s.ld.clock.sourceAt + 1000000) ∧ SameHv s t ∧ SameLinks s t ∧ (∀ q, t.port q = s.port q))) ∧
  ((∀ (d : Die) (s : State), s.timeRuns d = true →
    (∃ t, exec (.timeLinkSend d) s = .next t ∧ t.now = max s.now (s.ld.timeLink d).sendAt ∧
      (∃ tt x y w, t.wire = .link d.timeLink .first ((s.lend d.timeLink .first).txSeq + 1)
        (.time tt false false x y w) :: s.wire ∧
        tt = t.trainTime + BitVec.ofNat 64 ((s.lend d.timeLink .first).sofAt d.timeLink t.now - t.now) ∧
        x = s.ld.clock.holdover ∧ y = decide (s.ld.clock.steppedAt = some t.cycle) ∧ w = (s.ld.timeLink d).roundTrip.getD 0) ∧
      (t.ld.timeLink d).sendAt = t.momentOf t.nextBoundary ∧ SameHv s t ∧ t.cd = s.cd ∧ t.ao = s.ao) ∧
    (∃ t, exec (.timeLinkDelayMeasure d) s = .next t ∧ t.now = max s.now (s.ld.timeLink d).measureAt ∧
      (∃ tt x y w, t.wire = .link d.timeLink .first ((s.lend d.timeLink .first).txSeq + 1)
        (.time tt true false x y w) :: s.wire) ∧
      (t.ld.timeLink d).askedAt = some ((s.lend d.timeLink .first).sofAt d.timeLink t.now) ∧
      (t.ld.timeLink d).measureAt = t.now + 1024 * 125000 ∧ SameHv s t ∧ t.cd = s.cd ∧ t.ao = s.ao) ∧
    (∀ (turn elapsed : Word) (a : Nat), (s.ld.timeLink d).askedAt = some a →
      s.now ≤ a + elapsed.toNat + frameNs d.timeLink 16 → turn.toNat ≤ elapsed.toNat →
      ∃ t, exec (.timeLinkEchoReceived d turn elapsed) s = .next t ∧
        t.now = a + elapsed.toNat + frameNs d.timeLink 16 ∧
        (t.ld.timeLink d).roundTrip = some (elapsed - turn) ∧ (t.ld.timeLink d).askedAt = none ∧
        t.wire = s.wire ∧ SameHv s t ∧ t.cd = s.cd ∧ t.ao = s.ao)) ∧
  (∀ (d : Die) (tt : TrainTime) (ask stepped : Bool) (turn : Word) (s : State),
    (s.die d).powered = true → (s.lend d.timeLink .second).running = true →
    ∃ t, exec (.lampTimeFrameReceived d tt ask stepped turn) s = .next t ∧
      (t.die d).clock.source = .timeLink ∧ (t.die d).clock.halfTrip = turn.toNat / 2 ∧
      (∀ off : Int, off = ((tt.toNat + turn.toNat / 2 + frameNs d.timeLink 16 : Nat) : Int) - ((s.dieTime d).toNat : Int) →
        (stepped = true ∨ 2000 < off.natAbs → (t.die d).clock.stepTo = some off) ∧
        (stepped = false ∧ off.natAbs ≤ 2000 → (t.die d).clock.slewNs = off)) ∧
      (ask = true → ∃ w, t.wire = .link d.timeLink .second ((s.lend d.timeLink .second).txSeq + 1)
        (.time (t.dieTime d) false true false false w) :: s.wire) ∧
      (ask = false → t.wire = s.wire) ∧
      t.die d.other = s.die d.other ∧ t.ref = s.ref ∧ SameLogic s t))

/-! ### Inauguration (chapter 05) -/

/-- R121: a filter that sees 500 samples of one class in a row shows that class, and one that goes 2,000 samples
without 500 such samples is INDETERMINATE; until then it keeps its state. R121 to R123: REF samples five inputs, in a
guard band as either neighbouring class; it sends them in a VINPUT; the engine takes a valid VINPUT, keeps its inputs
on one with a reserved code, and reads every input as INDETERMINATE 3.0 ms after the last valid one. Forms whose
completion this concludes: vinputSample, vinputSend, vinputReceived, vinputStale. -/
def Obligations.VehicleInputsAreFilteredAndSent : Prop :=
  ((∀ (c : InputClass) (f : InputFilter), (Nat.repeat (InputFilter.sample c) 500 f).state = classState c) ∧
  (∀ (c : InputClass) (f : InputFilter), f.cls ≠ c → f.sinceSteady < 1999 → (f.sample c).state = f.state) ∧
  (∀ (c : InputClass) (f : InputFilter), f.cls ≠ c → 1999 ≤ f.sinceSteady → (f.sample c).state = 2)) ∧
  ((∀ (a b c d e : Int) (s : State), ∃ t, exec (.vinputSample a b c d e) s = .next t ∧
    (∃ k, (k = (inputClasses a).1 ∨ k = (inputClasses a).2) ∧ t.ref.cab = s.ref.cab.sample k) ∧
    (∃ k, (k = (inputClasses b).1 ∨ k = (inputClasses b).2) ∧ t.ref.cplFore = s.ref.cplFore.sample k) ∧
    (∃ k, (k = (inputClasses c).1 ∨ k = (inputClasses c).2) ∧ t.ref.cplAft = s.ref.cplAft.sample k) ∧
    (∃ k, (k = (inputClasses d).1 ∨ k = (inputClasses d).2) ∧ t.ref.aux1 = s.ref.aux1.sample k) ∧
    (∃ k, (k = (inputClasses e).1 ∨ k = (inputClasses e).2) ∧ t.ref.aux2 = s.ref.aux2.sample k) ∧
    t.ref.grant = s.ref.grant ∧ t.ref.killA = s.ref.killA ∧ t.ref.killB = s.ref.killB ∧
    t = { s with ref := t.ref, freeCount := t.freeCount }) ∧
  (∀ s : State, ∃ t, exec .vinputSend s = .next t ∧
    t.wire = .link .cdRef .second ((s.lend .cdRef .second).txSeq + 1) (.vinput t.ref.vinput) :: s.wire ∧
    t.ref.vinput = t.vinputBytes ∧ t.ref.vinputAt = t.now ∧
    (slice s.vinputBytes 0 2 = slice s.ref.vinput 0 2 → t.now = max s.now (s.ref.vinputAt + 1000000)) ∧
    (slice s.vinputBytes 0 2 ≠ slice s.ref.vinput 0 2 → t.now = s.now) ∧ t.la = s.la ∧ t.lb = s.lb ∧ SameLogic s t ∧
    t.ref.grant = s.ref.grant) ∧
  (∀ (payload : List Byte) (s : State), (s.lend .cdRef .first).running = true → s.ld.inReset = false →
    (vinputOk payload = true → ∃ t, exec (.vinputReceived payload) s = .next t ∧ t.ld.engine.inputs = payload ∧
      t.ld.engine.inputsAt = s.now ∧ t.ld.engine.inputsStale = false ∧ SameHv s t ∧ (∀ p, t.lane p = s.lane p)) ∧
    (vinputOk payload = false → ∃ t, exec (.vinputReceived payload) s = .next t ∧ SameLogic s t ∧ SameHv s t)) ∧
  (∀ s : State, s.ldRuns = true → s.ld.engine.inputsStale = false → ∃ t, exec .vinputStale s = .next t ∧
    (∀ n, t.input n = 2) ∧ t.now = max s.now (s.ld.engine.inputsAt + 3000000) ∧ SameHv s t ∧
    (∀ p, t.lane p = s.lane p)))

/-- R126, Table 5.2: when the timer of a pending row runs out the end takes the row's settled verdict: LINKED or
BRIDGED for JOINING, BROKEN after 60 ms or DOUBT after 500 ms for HOLDING, where no lane of the end was lost since; a
near lane fenced for 1.0 s makes the end BROKEN. R128, R253: a BEACON goes out on every UP lane with the node's
present fields, at once when they changed and otherwise every 8 cycles, in the last-word window every cycle; an entry
of the BEACON table ages out after 24 cycles. Forms whose completion this concludes: joiningTimeout, holdingTimeout,
fencedBrokenTimeout, beaconSend, beaconEntryAged. -/
def Obligations.VerdictsSettleAndBeaconsGoOut : Prop :=
  (∀ (e : VEnd) (s : State),
    ((s.vend e).row = 4 ∨ (s.vend e).row = 6 → (s.vend e).rowExpired = false → s.verdictRow e = (s.vend e).row →
      ∃ t, exec (.joiningTimeout e) s = .next t ∧ (t.vend e).rowExpired = true ∧
        (t.vend e).verdict = (if (s.vend e).row = 4 then .linked else .bridged) ∧
        t.now = max s.now ((s.vend e).rowAt + 500000000) ∧ SameHv s t) ∧
    ((s.vend e).row = 8 ∨ (s.vend e).row = 9 → (s.vend e).rowExpired = false → s.verdictRow e = (s.vend e).row →
      (s.vend e).lostSince (s.vend e).row = none →
      ∃ t, exec (.holdingTimeout e) s = .next t ∧ (t.vend e).rowExpired = true ∧
        (t.vend e).verdict = (if (s.vend e).row = 8 then .broken else .doubt) ∧
        t.now = max s.now ((s.vend e).rowAt + if (s.vend e).row = 8 then 60000000 else 500000000) ∧ SameHv s t) ∧
    (∀ at_, (s.vend e).fencedAt = some at_ → s.shut e.near = true → (s.vend e).fencedLong = false →
      (s.vend e).cut = false →
      ∃ t, exec (.fencedBrokenTimeout e) s = .next t ∧ (t.vend e).fencedLong = true ∧ (t.vend e).verdict = .broken ∧
        t.now = max s.now (at_ + 1000000000) ∧ SameHv s t)) ∧
  ((∀ s : State, s.ldRuns = true → ∃ t, exec .beaconSend s = .next t ∧
    (∀ p, (t.port p).control = (s.port p).control ++
      (if s.laneUp p then
        [⟨⟨s.position, 0, 63, s.epoch, s.ld.seqBeacon + 1⟩, .beacon (txPort p s.beaconNow)⟩] else [])) ∧
    t.ld.seqBeacon = s.ld.seqBeacon + 1 ∧ t.ld.beaconLast = some s.beaconNow ∧ t.ld.beaconAt = t.now ∧
    t.now = (if s.ld.beaconLast = some s.beaconNow then
      max s.now (s.ld.beaconAt + if s.cd.lastWord then 125000 else 1000000) else s.now) ∧
    SameHv s t ∧ SameLinks s t ∧ t.cd = s.cd) ∧
  (∀ (id : NodeId) (b : BeaconEntry) (s : State), s.ld.engine.beacons.find? (fun b => b.beacon.nodeId = id) = some b →
    ∃ t, exec (.beaconEntryAged id) s = .next t ∧
      t.ld.engine.beacons = s.ld.engine.beacons.filter (fun b => b.beacon.nodeId ≠ id) ∧
      t.now = max s.now (b.at_ + 3000000) ∧ SameHv s t ∧ SameLinks s t ∧ t.cd = s.cd))

/-- R129, R130, R139: a node with cause to call calls on every lane of an end that is not terminal, no sooner than its
interval after the last call; a through node is then CALLED, and relays a call it gets; CALLED ends after 8 ms; a
launch put off by R139 follows 10 ms after the last one. R132 to R135: a well-sent Front of another lead that the node
accepts and can relay is held and goes on by the lane of the other end with the next position; one that is not well
sent, or loses to the round held, a cut too, is counted and changes nothing else; in SWITCHING the first is kept for
the boundary; a cut makes the arrival end CUT. Forms whose completion this concludes: inaugurationCall, callReceived,
deferredLaunch, frontReceived, cutReceived, calledTimeout, roundTimeout. -/
def Obligations.CallsAndFrontsRunTheRound : Prop :=
  ((∀ (n : Nat) (s : State), s.ldRuns = true → s.ld.power ≠ .draining → s.ld.engine.round = .idle → s.wantsCall = true →
    s.endNode = false → s.ld.engine.lastCallAt = some n →
    ∃ t, exec .inaugurationCall s = .next t ∧ t.ld.engine.round = .called ∧ t.ld.engine.lastCallAt = some t.now ∧
      t.now = max s.now (n + s.ld.engine.callInterval) ∧ t.ld.engine.roundAt = t.now ∧
      (s.ld.engine.numberedSinceCall = false →
        t.ld.engine.callInterval = min (2 * s.ld.engine.callInterval) 1000000000) ∧ SameHv s t) ∧
  (∀ (p : Port) (h : LineHdr) (f : FrontP) (s : State), s.carries p = true → f.leadId = 0 → s.endNode = false →
    s.ld.engine.round = .idle →
    ∃ t, exec (.callReceived p h f) s = .next t ∧ t.ld.engine.round = .called ∧ t.ld.engine.roundAt = s.now ∧
      (∀ q, q.vend = p.vend → (t.port q).control = (s.port q).control) ∧ (∀ q, t.lane q = s.lane q) ∧ SameHv s t ∧
      SameLinks s t ∧ t.cd = s.cd) ∧
  (∀ s : State, s.ld.engine.round = .called → ∃ t, exec .calledTimeout s = .next t ∧ t.ld.engine.round = .idle ∧
    t.ld.engine.heldRound = none ∧ t.now = max s.now (s.ld.engine.roundAt + 8000000) ∧ SameHv s t ∧ SameLinks s t ∧
    t.cd = s.cd ∧ t.ld.engine.commit = s.ld.engine.commit) ∧
  (∀ s : State, s.ld.engine.round = .held ∨ s.ld.engine.round = .launched ∨ s.ld.engine.round = .tailed →
    ∃ t, exec .roundTimeout s = .next t ∧ t.ld.engine.round = .idle ∧ t.ld.engine.heldRound = none ∧
      t.now = max s.now (s.ld.engine.roundAt + 8000000) ∧ SameHv s t ∧ SameLinks s t ∧
      t.ld.engine.commit = s.ld.engine.commit) ∧
  (∀ (n : Nat) (s : State), s.ldRuns = true → s.ld.engine.launchDeferred = true → s.ld.engine.lastLaunchAt = some n →
    s.endNode = true → s.ld.engine.round = .idle → s.ld.power ≠ .draining →
    ∃ t, exec .deferredLaunch s = .next t ∧ t.ld.engine.launchDeferred = false ∧ t.ld.engine.own = true ∧
      t.now = max s.now (n + 10000000) ∧ t.ld.engine.lastLaunchAt = some t.now ∧
      (∃ r, t.ld.engine.heldRound = some r ∧ r.leadId = s.nodeId ∧ r.position = 1) ∧ SameHv s t ∧ SameLinks s t ∧
      t.cd = s.cd)) ∧
  ((∀ (p : Port) (h : LineHdr) (f : FrontP) (c : Instr) (s : State), s.carries p = true → f.leadId ≠ 0 →
    c = .frontReceived p h f ∧ f.nextPos ≠ 0 ∨ c = .cutReceived p h f ∧ f.nextPos = 0 →
    frontWellSent p f = false ∨ s.loses f = true →
    ∃ t, exec c s = .next t ∧
      t.ld.engine = { s.ld.engine with frontsRejected := satAdd s.ld.engine.frontsRejected 1 } ∧
      (∀ q, (t.port q).control = (s.port q).control) ∧ (∀ q, t.lane q = s.lane q) ∧ t = { s with ld := t.ld }) ∧
  (∀ (p : Port) (h : LineHdr) (f : FrontP) (c : Instr) (s : State), s.carries p = true → f.leadId ≠ 0 →
    c = .frontReceived p h f ∧ f.nextPos ≠ 0 ∨ c = .cutReceived p h f ∧ f.nextPos = 0 →
    frontWellSent p f = true → s.loses f = false → s.ld.engine.round = .switching → s.ld.engine.waitingFront = none →
    ∃ t, exec c s = .next t ∧ t.ld.engine = { s.ld.engine with waitingFront := some (p, h, f) } ∧
      (∀ q, (t.port q).control = (s.port q).control) ∧ t = { s with ld := t.ld }) ∧
  (∀ (p q : Port) (h : LineHdr) (f : FrontP) (s : State), s.carries p = true → f.leadId ≠ 0 → f.nextPos ≠ 0 →
    frontWellSent p f = true → s.ld.engine.round = .idle → s.ld.engine.heldRound = none →
    s.terminal p.vend.other = false → s.laneOf p.vend.other = some q → f.flags.noCab = s.noCab →
    onward f q ≤ 63 →
    ∃ t, exec (.frontReceived p h f) s = .next t ∧ t.ld.engine.round = .held ∧
      (∃ r, t.ld.engine.heldRound = some r ∧ r.leadId = f.leadId ∧ r.position = f.nextPos ∧ r.headPort = some p ∧
        r.tailPort = some q) ∧ t.ld.engine.commit = s.ld.engine.commit ∧ SameHv s t) ∧
  (∀ (p : Port) (h : LineHdr) (f : FrontP) (s : State), s.carries p = true → f.leadId ≠ 0 → f.nextPos = 0 →
    frontWellSent p f = true → s.loses f = false → s.ld.engine.round ≠ .switching →
    ∃ t, exec (.cutReceived p h f) s = .next t ∧ (t.vend p.vend).cut = true ∧ (t.vend p.vend).verdict = .cut ∧
      t.ld.engine.heldRound = s.ld.engine.heldRound ∧ t.ld.engine.commit = s.ld.engine.commit ∧ SameHv s t))

/-- R136, R137: COMMIT PHASE 0 goes back headward unchanged, and at the lead begins the switch; PHASE 1 is flooded
with the cycle after the next boundary (R175: never one whose low 32 bits are 0) and every node that holds the round
prepares the switch with the set it carries. R138, R145: at its boundary a prepared switch puts its whole set in force
as one step, empties the MAC table, frees the slots and tags of the old epoch and ends the round; a ghost update puts
only the new set in force, and position 1 floods one for a silent node that has heard neighbours. Forms whose
completion this concludes: commitPhase0Received, phase1Send, commitPhase1Received, commitApply, ghostUpdate. -/
def Obligations.CommitsSweepAndTakeEffectAsOneStep : Prop :=
  ((∀ (p : Port) (h : LineHdr) (c : CommitP) (r : HeldRound) (s : State), s.carries p = true →
    s.ld.engine.heldRound = some r → c.phase1 = false → r.tailPort = some p → r.leadId = c.leadId →
    (∀ q, s.ld.engine.round = .held → r.headPort = some q → s.carries q = true →
      ∃ t, exec (.commitPhase0Received p h c) s = .next t ∧
        (t.port q).control = (s.port q).control ++
          [⟨⟨s.position, 0, 63, s.epoch, (s.port q).seqCommit + 1⟩, .commit c⟩] ∧
        t.ld.engine = s.ld.engine ∧ (∀ x, x ≠ q → (t.port x).control = (s.port x).control) ∧ t = { s with ld := t.ld }) ∧
    (s.ld.engine.round = .launched →
      ∃ t, exec (.commitPhase0Received p h c) s = .next t ∧ t.ld.engine.round = .switching ∧
        t.ld.engine.phase0 = some (c, s.cycle) ∧ (∀ x, (t.port x).control = (s.port x).control) ∧
        t = { s with ld := t.ld })) ∧
  (∀ (c : CommitP) (n : Nat) (r : HeldRound) (s : State), s.ld.engine.phase0 = some (c, n) →
    s.ld.engine.heldRound = some r → s.ld.engine.round = .switching → s.ld.engine.switch = none →
    (BitVec.ofNat 32 (n + 2) : Word) ≠ 0 →
    ∃ t w, exec .phase1Send s = .next t ∧ t.ld.engine.switch = some w ∧ w.set.epoch = c.newEpoch ∧
      w.set.position = r.position ∧ w.set.lastPos = c.lastPos ∧ w.boundary = BitVec.ofNat 64 ((n + 2) * 125000) ∧
      t.now = s.momentOf (BitVec.ofNat 64 ((n + 1) * 125000)) ∧
      t.ld.seqCommitFlood = s.ld.seqCommitFlood + 1 ∧ t.ld.engine.commit = s.ld.engine.commit ∧ SameHv s t) ∧
  (∀ (p : Port) (h : LineHdr) (c : CommitP) (r : HeldRound) (s : State), s.carries p = true → c.phase1 = true →
    s.seenKey (floodKey ⟨h, .commit c⟩ s.now) = false → s.ld.engine.heldRound = some r →
    s.ld.engine.round = .held ∨ s.ld.engine.round = .tailed → r.leadId = c.leadId →
    ∃ t w, exec (.commitPhase1Received p h c) s = .next t ∧ t.ld.engine.switch = some w ∧
      t.ld.engine.round = .switching ∧ w.set.epoch = c.newEpoch ∧ w.set.position = r.position ∧
      w.set.lastPos = c.lastPos ∧ w.set.ghosts = c.ghosts ∧ t.ld.engine.commit = s.ld.engine.commit ∧ SameHv s t)) ∧
  ((∀ (w : Switch) (s : State), s.ld.engine.switch = some w → s.ldRuns = true → s.ld.engine.waitingFront = none →
    ∃ t, exec .commitApply s = .next t ∧ t.ld.engine.commit = some w.set ∧ t.position = w.set.position ∧
      t.epoch = w.set.epoch ∧ t.ld.engine.round = .idle ∧ t.ld.engine.switch = none ∧
      (t.vend .fore).committed = w.fore ∧ (t.vend .aft).committed = w.aft ∧ t.ld.mac = [] ∧
      (∀ n, (t.slot n).owner = (s.slot n).owner ∨ (t.slot n).st = .free) ∧
      (∀ k : Fin 8, (t.cd.tags[k.val]).st ≠ .fetching) ∧
      t.now = s.momentOf w.boundary ∧ SameHv s t) ∧
  (∀ (g : GhostSet) (n : Word) (c : Commit) (s : State), s.ld.engine.switch = none →
    s.ld.engine.ghostSwitch = some (g, n) → s.commit? = some c →
    ∃ t, exec .commitApply s = .next t ∧ t.commit? = some { c with ghosts := g } ∧ t.ld.engine.ghostSwitch = none ∧
      SameHv s t ∧ SameLinks s t ∧ (∀ p, t.port p = s.port p)) ∧
  (∀ (p : Position) (c : Commit) (s : State), s.commit? = some c → c.position = 1 → 2 ≤ p.toNat →
    p.toNat < c.lastPos.toNat → isGhost c.ghosts p = false → s.silentAt p = true → s.heardAt (p - 1) = true →
    s.heardAt (p + 1) = true → s.ldRuns = true →
    ∃ t, exec (.ghostUpdate p) s = .next t ∧
      t.ld.engine.ghostSwitch = some (c.ghosts ||| ghostBit p, skipZero (s.cycle32 + 2)) ∧ t.commit? = s.commit? ∧
      t.ld.seqCommitFlood = s.ld.seqCommitFlood + 1 ∧ SameHv s t ∧ SameLinks s t ∧ t.cd = s.cd))

/-! ### Lamp channels and patterns (chapter 06) -/

/-- R46, R174, Table 6.7: a MAP_WRITE, SLOT_WRITE, STATE or SCENE that passes its checks is held for its boundary, the
next one where EFFECT_CYCLE is 0 (OK) or has passed (LATE), and answered; one that fails them is answered BAD_FIELD
and has no effect. R178: at a boundary every held command whose boundary has come leaves the queue and takes effect; a
map entry, a slot, a scene or required states that were held alone stand afterwards as the command gave them, the rest
of those as it was. Forms whose completion this concludes: mapWrite, slotWrite, stateCmd, scene, commandEffectApply.
-/
def Obligations.TimedCommandsWaitForTheirBoundary : Prop :=
  (∀ (d : Die) (seq : Byte) (effect : Word) (s : State), (s.die d).powered = true → NewCommand d.cdLink seq s →
    ∀ (i : Instr) (opcode : Byte) (ok : Bool) (op : HeldOp),
      ((∃ ch e, i = .mapWrite d seq ch effect e ∧ opcode = 0x10 ∧ ok = (decide (ch.toNat < 12) && entryOk e) ∧
          op = .map (chanOf ch) e) ∨
        (∃ n k steps, i = .slotWrite d seq n k effect steps ∧ opcode = 0x20 ∧
          ok = (decide (1 ≤ n.toNat) && decide (n.toNat ≤ 15) && slotOk k.toNat steps) ∧
          op = .slot (slotIx n) (slotStored k.toNat steps)) ∨
        (∃ m ep, i = .stateCmd d seq m effect ep ∧ opcode = 0x30 ∧ ok = true ∧ op = .state m ep) ∨
        (∃ b, i = .scene d seq b effect ∧ opcode = 0x31 ∧ ok = true ∧ op = .scene b)) →
      ∃ t, exec i s = .next t ∧ OnlyDie d s t ∧ t.level = s.level ∧
        (ok = false → Answered d.cdLink seq [opcode, 0x02] s t ∧ t.die d = s.die d) ∧
        (ok = true → effect = 0 → Answered d.cdLink seq [opcode, 0x00] s t ∧
          t.die d = { s.die d with
            held := (s.die d).held ++ [⟨seq, none, (s.die d).heldCount, op⟩], heldCount := (s.die d).heldCount + 1 }) ∧
        (ok = true → effect ≠ 0 → ahead32 effect (s.die d).clock.cycle32 = true →
          Answered d.cdLink seq [opcode, 0x00] s t ∧
          t.die d = { s.die d with
            held := (s.die d).held ++ [⟨seq, some effect, (s.die d).heldCount, op⟩],
            heldCount := (s.die d).heldCount + 1 }) ∧
        (ok = true → effect ≠ 0 → ahead32 effect (s.die d).clock.cycle32 = false →
          Answered d.cdLink seq [opcode, 0x01] s t ∧
          t.die d = { s.die d with
            held := (s.die d).held ++ [⟨seq, none, (s.die d).heldCount, op⟩], heldCount := (s.die d).heldCount + 1 })) ∧
  (∀ (d : Die) (q : Byte) (o : Nat) (n : Word) (op : HeldOp) (s : State), (s.die d).powered = true →
    (s.die d).held = [⟨q, some n, o, op⟩] → ahead32 n (s.die d).clock.cycle32 = false →
    ∃ t, exec (.commandEffectApply d) s = .next t ∧ (t.die d).held = [] ∧
      (match op with
        | .map c e => (t.die d).map = (s.die d).map.set c.val (some e) ∧ (t.die d).slots = (s.die d).slots ∧
            (t.die d).reqLit = (s.die d).reqLit ∧ (t.die d).scene = (s.die d).scene
        | .slot k v => (t.die d).slots = (s.die d).slots.set k.val v ∧ (t.die d).map = (s.die d).map ∧
            (t.die d).reqLit = (s.die d).reqLit ∧ (t.die d).scene = (s.die d).scene
        | .scene b => (t.die d).scene = (if (s.die d).cd.fallback || (s.die d).cd.frost then (s.die d).scene else b) ∧
            (t.die d).map = (s.die d).map ∧ (t.die d).slots = (s.die d).slots ∧ (t.die d).reqLit = (s.die d).reqLit
        | .state m ep => (s.die d).cd.fallback = false → (s.die d).cd.frost = false →
            (t.die d).reqLit = m ∧ (t.die d).epoch = ep ∧ (t.die d).map = (s.die d).map ∧
              (t.die d).slots = (s.die d).slots) ∧
      t.die d.other = s.die d.other ∧ t.ref = s.ref ∧ SameLogic s t)

/-- Table 6.6: IDENTITY stores the identity; MAP_READ, SLOT_READ and STATUS answer and change nothing of the die.
R236, R331, R333, Table 12.11: REG_READ answers COUNT bytes of the die's map, or BAD_FIELD beyond it; REG_WRITE
reaches only the store policy block, where a valid policy waits for the next boundary; at REF it is always BAD_FIELD.
Forms whose completion this concludes: lampIdentity, mapRead, slotRead, status, regRead, regWrite. -/
def Obligations.DieReadsAndRegistersAreAnswered : Prop :=
  (∀ (d : Die) (seq : Byte) (s : State), (s.die d).powered = true → NewCommand d.cdLink seq s →
    (∀ id, ∃ t, exec (.lampIdentity d seq id) s = .next t ∧ Answered d.cdLink seq [0x01, 0x00] s t ∧
      t.die d = { s.die d with identity := some id } ∧ OnlyDie d s t) ∧
    (∀ ch : Byte, ∃ t, exec (.mapRead d seq ch) s = .next t ∧ t.die d = s.die d ∧ OnlyDie d s t ∧
      (ch.toNat < 12 → Answered d.cdLink seq
        ([0x11, 0x00, ch, flag ((s.die d).map[(chanOf ch).val]).isSome 7] ++ entryBytes ((s.die d).ownEntry (chanOf ch))) s
        t) ∧
      (12 ≤ ch.toNat → Answered d.cdLink seq ([0x11, 0x02] ++ zeros 18) s t)) ∧
    (∀ n : Byte, ∃ t, exec (.slotRead d seq n) s = .next t ∧ t.die d = s.die d ∧ OnlyDie d s t ∧
      (n.toNat ≤ 15 → Answered d.cdLink seq ([0x21, 0x00, n] ++ slotBytes (s.die d).slots[(slotIx n).val]) s t) ∧
      (15 < n.toNat → Answered d.cdLink seq ([0x21, 0x02] ++ zeros 18) s t)) ∧
    (∃ t, exec (.status d seq) s = .next t ∧ t.die d = s.die d ∧ OnlyDie d s t ∧
      Answered d.cdLink seq ([0x40, 0x00] ++ ((List.finRange 12).map (s.die d).statusByte) ++ be32 (s.die d).clock.cycle32)
        s t)) ∧
  ((∀ (d : Die) (seq count : Byte) (a : Word) (s : State), (s.die d).powered = true → NewCommand d.cdLink seq s →
    (∀ l, countOk count 32 = true → a.toNat % 4 = 0 → regBytes (s.hvRegs d.hv) a.toNat count.toNat = some l →
      ∃ t, exec (.regRead d.hv seq count a) s = .next t ∧ Answered d.cdLink seq ([0x60, 0, count, 0] ++ l) s t ∧
        SameHv s t ∧ OnlyDie d s t ∧ t.level = s.level) ∧
    (countOk count 32 = false ∨ a.toNat % 4 ≠ 0 ∨ regBytes (s.hvRegs d.hv) a.toNat count.toNat = none →
      ∃ t, exec (.regRead d.hv seq count a) s = .next t ∧ Answered d.cdLink seq [0x60, 2] s t ∧ SameHv s t ∧
        OnlyDie d s t ∧ t.level = s.level) ∧
    (∀ p : List Byte, p.length = 48 → (policyOf p).ok = true →
      ∃ t, exec (.regWrite d.hv seq 48 0x40 p) s = .next t ∧ Answered d.cdLink seq [0x61, 0] s t ∧
        t.die d = { s.die d with store := { (s.die d).store with nextPolicy := some (policyOf p) } } ∧ OnlyDie d s t ∧
        t.level = s.level) ∧
    (∀ p : List Byte, a.toNat < 0x40 ∨ 0x70 ≤ a.toNat →
      ∃ t, exec (.regWrite d.hv seq count a p) s = .next t ∧ Answered d.cdLink seq [0x61, 2] s t ∧ t.die d = s.die d ∧
        OnlyDie d s t ∧ t.level = s.level)) ∧
  (∀ (seq count : Byte) (a : Word) (p : List Byte) (s : State), (s.lend .cdRef .second).running = true →
    NewCommand .cdRef seq s →
    ∃ t, exec (.regWrite .ref seq count a p) s = .next t ∧ Answered .cdRef seq [0x61, 2] s t ∧ SameHv s t ∧
      SameLogic s t ∧ t.level = s.level) ∧
  (∀ (seq : Byte) (s : State), (s.lend .cdRef .second).running = true → NewCommand .cdRef seq s →
    ∃ t, exec (.regRead .ref seq 4 0x18) s = .next t ∧
      Answered .cdRef seq ([0x60, 0, 4, 0] ++ slice s.ref.vinput 0 4) s t ∧ SameHv s t ∧ SameLogic s t ∧
      t.level = s.level))

/-- R170, R171, R244: a burst is accepted where its boundary lies ahead, no other waits or runs, the feed is there and
the energy beyond the reserve covers it; it then waits and is committed. Otherwise the answer names the first reason.
R153, R163, R170, R171: a sense voltage above 115 mV for 2 µs cuts a driven channel for the rest of the cycle, and no
light window of it counts on either die; less does nothing. A burst runs from its boundary with the slot's steps as
they then stand, on those of its channels that are required, and ends after one period. Forms whose completion this
concludes: lampBurst, overcurrentCut, burstStart, burstEnd. -/
def Obligations.BurstsAreAdmittedAndRun : Prop :=
  (∀ (d : Die) (seq : Byte) (n : BitVec 4) (start : Word) (m : ChMask) (s : State),
    (s.die d).powered = true → NewCommand d.cdLink seq s →
    ∃ t, exec (.lampBurst d seq n start m) s = .next t ∧ OnlyDie d s t ∧ t.level = s.level ∧
      (ahead32 start (s.die d).clock.cycle32 = false → Answered d.cdLink seq [0x32, 0x02] s t ∧ t.die d = s.die d) ∧
      (ahead32 start (s.die d).clock.cycle32 = true → (s.die d).burst ≠ none →
        Answered d.cdLink seq [0x32, 0x04] s t ∧ (t.die d).burst = (s.die d).burst ∧
        (t.die d).store = (s.die d).store) ∧
      (ahead32 start (s.die d).clock.cycle32 = true → (s.die d).burst = none →
        (((t.die d).burst = some ⟨n, m, start, false, (s.die d).slots[n.toNat], false⟩ ∧
            Answered d.cdLink seq [0x32, 0x00] s t ∧ (s.die d).store.feedOk = true ∧
            (t.die d).store.eCommit + (s.die d).eRes + (s.die d).store.eCommit ≤ (s.die d).store.eAvail) ∨
          (t.die d = s.die d ∧ Answered d.cdLink seq [0x32, 0x03] s t)) ∧
        ((s.die d).store.feedOk = false → t.die d = s.die d))) ∧
  ((∀ (d : Die) (c : Chan) (senseUv heldNs : Nat) (s : State),
    (115000 < senseUv → 2000 ≤ heldNs → (s.die d).driven c = true →
      ∃ t, exec (.overcurrentCut d c senseUv heldNs) s = .next t ∧ ((t.die d).chan c).cutNow = true ∧
        (t.die d).driven c = false ∧ (∀ k, k ≠ c → (t.die d).chan k = (s.die d).chan k) ∧
        ((t.die d).chan c).cuts = ((s.die d).chan c).cuts ∧
        (∀ x, (s.die d).clock.advance.boundaryAt ≤ ((t.die x).chan c).lightBlankUntil) ∧
        (∀ k, k ≠ c → (t.die d.other).chan k = (s.die d.other).chan k) ∧ t.ref = s.ref ∧ SameLogic s t ∧
        SameLinks s t) ∧
    (senseUv ≤ 115000 ∨ heldNs < 2000 → ∃ t, exec (.overcurrentCut d c senseUv heldNs) s = .next t ∧ t = s)) ∧
  (∀ (d : Die) (b : Burst) (s : State), (s.die d).powered = true → (s.die d).burst = some b →
    (b.running = false → ahead32 b.start (s.die d).clock.cycle32 = false →
      ∃ t, exec (.burstStart d) s = .next t ∧
        (t.die d).burst = some { b with
          running := true, steps := (s.die d).slots[b.slot.toNat], mask := b.mask &&& (s.die d).requiredMask } ∧
        (t.die d).reqLit = (s.die d).reqLit ∧ (t.die d).store = (s.die d).store ∧ t.die d.other = s.die d.other ∧
        t.ref = s.ref ∧ SameLogic s t) ∧
    (b.running = true → slotPeriod b.steps ≤ ((s.die d).clock.cycle32 - b.start).toNat →
      ∃ t, exec (.burstEnd d) s = .next t ∧ (t.die d).burst = none ∧ (t.die d).store.eCommit = 0 ∧
        (t.die d).reqLit = (s.die d).reqLit ∧ t.die d.other = s.die d.other ∧ t.ref = s.ref ∧ SameLogic s t)))

/-- R164, R166, R240: at a boundary the die's grid moves on, the energy model takes what was measured, and every
channel shows the step and the target of its pattern in the cycle that begins. R167 to R169: position 1 sends its
scene in a LAMP-SYNC and applies it two boundaries on; a node applies the scene of the first copy it gets, and each
copy of a key only once. Forms whose completion this concludes: lampCycleBoundary, lampSyncSend, lampSyncReceived. -/
def Obligations.PatternsAndScenesAreShown : Prop :=
  (∀ (d : Die) (m : StoreSample) (s : State), (s.die d).powered = true →
    ∃ t, exec (.lampCycleBoundary d m true) s = .next t ∧ (t.die d).clock = (s.die d).clock.advance ∧
      t.now = max s.now (s.die d).clock.advance.boundaryAt ∧ (t.die d).store.storeMv = m.storeMv ∧
      (t.die d).store.feedDv = m.feedDv ∧
      (∀ c, (((t.die d).chan c).step, ((t.die d).chan c).target, ((t.die d).chan c).inBurst) =
        (((t.die d).shown c (t.die d).clock.cycle).step, ((t.die d).shown c (t.die d).clock.cycle).target,
          ((t.die d).shown c (t.die d).clock.cycle).inBurst)) ∧
      (t.die d).map = (s.die d).map ∧ (t.die d).slots = (s.die d).slots ∧ (t.die d).reqLit = (s.die d).reqLit ∧
      (t.die d).grant = (s.die d).grant ∧ t.die d.other = s.die d.other ∧ t.ref = s.ref ∧ SameLogic s t) ∧
  ((∀ s : State, s.ldRuns = true → s.position = 1 → s.cd.frost = false →
    ∃ t, exec .lampSyncSend s = .next t ∧ t.ld.scene = s.ld.sceneHost.getD s.ld.scene ∧
      t.ld.sceneSent = s.ld.sceneHost.getD s.ld.scene ∧ t.ld.sceneAt = t.now ∧
      t.now = (if s.ld.sceneHost.getD s.ld.scene = s.ld.sceneSent then max s.now (s.ld.sceneAt + 1000000) else s.now) ∧
      (s.cd.running = true → ∃ n, n = t.sceneBoundary t.cycle32 ∧
        t.wire = .link .cdLb .first ((s.lend .cdLb .first).txSeq + 1) (.command (cmdScene t.ld.scene n)) ::
          .link .cdLa .first ((s.lend .cdLa .first).txSeq + 1) (.command (cmdScene t.ld.scene n)) :: s.wire) ∧
      t.ld.seqLampSync = s.ld.seqLampSync + 1 ∧ SameHv s t) ∧
  (∀ (p : Port) (h : LineHdr) (l : LampSyncP) (s : State), s.carries p = true → h.epoch = s.epoch →
    (s.seenKey (floodKey ⟨h, .lampSync l⟩ s.now) = true → 
      ∃ t, exec (.lampSyncReceived p h l) s = .next t ∧ t.ld.scene = s.ld.scene ∧
        (∀ q, (t.port q).control = (s.port q).control) ∧ t = { s with ld := t.ld }) ∧
    (s.seenKey (floodKey ⟨h, .lampSync l⟩ s.now) = false →
      ∃ t, exec (.lampSyncReceived p h l) s = .next t ∧ t.ld.scene = l.scene ∧ SameHv s t ∧ t.now = s.now)))

/-! ### Proof of light (chapter 07) -/

/-- R182, R183, R195: of a channel that is on and past its blank the driver counts the samples in a row below half of
the target; the sixteenth makes a channel that is QUALIFYING or PROVEN dark, with the loop open; a sample at or above
half starts the count again. R185 to R187, R195: a window closes at each mid-cycle point and each boundary; its
amplitude is recovered with the pilot of the channel's node. With a valid reference, a window below 60% of its
expected amplitude after another such window that it does not overlap makes the driver's channel dark, with the loop
open. A window inside a blank counts for nothing. R198, R199: 64 disagreeing windows raise "light view disagrees",
1,024 cycles below 0.75 raise "light margin low"; a die sends its proving REPORT, at once after a change of proof and
otherwise every 64 cycles, and the CD keeps the last one it gets, discarding one of a wrong KIND or length. Forms
whose completion this concludes: currentSample, lightWindowClose, lightViewDisagrees, provingReportSend,
provingReportReceived, lightMarginLow. -/
def Obligations.LowLightOrCurrentMakesAChannelDark : Prop :=
  (∀ (d : Die) (uvs : List Nat) (c : Chan) (s : State), (s.die d).powered = true → (s.die d).drives = true →
    ((s.die d).chan c).target ≠ 0 → (s.die d).gapBlank = false → ((s.die d).chan c).curBlankUntil ≤ max s.now ((s.die d).sampleAt + 1000) →
    ∃ t, exec (.currentSample d uvs) s = .next t ∧ t.now = max s.now ((s.die d).sampleAt + 1000) ∧
      (t.die d).sampleAt = t.now ∧
      (belowHalf (uvs.getD c.val 0) ((s.die d).chan c).target = true →
        ((t.die d).chan c).lowRun = min 16 (((s.die d).chan c).lowRun + 1) ∧ ((t.die d).chan c).okRun = 0 ∧
        (15 ≤ ((s.die d).chan c).lowRun →
          ((s.die d).chan c).proof = .qualifying ∨ ((s.die d).chan c).proof = .proven →
          ((t.die d).chan c).proof = .dark ∧ ((t.die d).chan c).kind = .current ∧ (t.die d).plClosed = false) ∧
        (((s.die d).chan c).lowRun < 15 → ((t.die d).chan c).proof = ((s.die d).chan c).proof)) ∧
      (belowHalf (uvs.getD c.val 0) ((s.die d).chan c).target = false →
        ((t.die d).chan c).lowRun = 0 ∧ ((t.die d).chan c).okRun = min 16 (((s.die d).chan c).okRun + 1) ∧
        (((s.die d).chan c).proof = .proven → ((t.die d).chan c).proof = .proven)) ∧
      t.die d.other = s.die d.other ∧ t.ref = s.ref ∧ SameLogic s t) ∧
  (∀ (d : Die) (photo : List (List Int)) (c : Chan) (mid : Bool) (s : State), (s.die d).powered = true →
    (s.die d).drives = true → mid = decide (s.now < (s.die d).clock.boundaryAt + 62500) →
    ∃ t, exec (.lightWindowClose d photo) s = .next t ∧
      t.now = max s.now (if mid then (s.die d).clock.boundaryAt + 62500 else (s.die d).clock.advance.boundaryAt) ∧
      ((s.die d).windowsOpen = false ∨ ((s.die d).chan c).windowValid t.now = false →
        ((t.die d).chan c).proof = ((s.die d).chan c).proof ∧ ((t.die d).chan c).win1 = none) ∧
      (∀ r w, (s.die d).windowsOpen = true → ((s.die d).chan c).windowValid t.now = true → (s.die d).ownRef c = some r →
        w = windowOf ((s.die d).lightOf c mid photo) ((s.die d).chan c).target ((s.die d).entry c).pilotDepth.toNat r →
        ((t.die d).chan c).win1 = some w ∧ ((t.die d).chan c).win2 = ((s.die d).chan c).win1 ∧
        (w.low = true → (∃ v, ((s.die d).chan c).win2 = some v ∧ v.low = true) →
          ((s.die d).chan c).proof = .qualifying ∨ ((s.die d).chan c).proof = .proven →
          ((t.die d).chan c).proof = .dark ∧ ((t.die d).chan c).kind = .light ∧ (t.die d).plClosed = false)) ∧
      t.die d.other = s.die d.other ∧ t.ref = s.ref ∧ SameLogic s t) ∧
  ((∀ (d : Die) (c : Chan) (s : State), (s.die d).powered = true → 64 ≤ ((s.die d).chan c).viewDiffer →
    ∃ t, exec (.lightViewDisagrees d c) s = .next t ∧ (fLightView.code, chanSubject d c) ∈ (t.die d).conds ∧
      (t.die d).chans = (s.die d).chans ∧ t.die d.other = s.die d.other ∧ t.ref = s.ref ∧ SameLogic s t) ∧
  (∀ (d : Die) (s : State), (s.die d).powered = true → (s.die d).margin < 768 → 1024 ≤ (s.die d).marginLow →
    (fMarginLow.code, d.subject) ∉ (s.die d).conds →
    ∃ t, exec (.lightMarginLow d) s = .next t ∧ (fMarginLow.code, d.subject) ∈ (t.die d).conds ∧
      (t.die d).marginLow = 0 ∧ (t.die d).chans = (s.die d).chans ∧ t.die d.other = s.die d.other ∧ t.ref = s.ref ∧
      SameLogic s t) ∧
  (∀ (d : Die) (s : State), (s.die d).powered = true →
    ∃ t, exec (.provingReportSend d) s = .next t ∧
      t.wire = .link d.cdLink .second ((s.lend d.cdLink .second).txSeq + 1) (.report (s.provingBytes d)) :: s.wire ∧
      t.now = (if (s.die d).provingSent = some (s.die d).proofKey then max s.now ((s.die d).provingAt + 8000000) else s.now) ∧
      t.die d = { s.die d with provingSent := some (s.die d).proofKey, provingAt := t.now } ∧
      SameOtherEnds d.cdLink .second s t ∧ t.die d.other = s.die d.other ∧ t.ref = s.ref ∧ SameLogic s t) ∧
  (∀ (d : Die) (seq : Byte) (payload : List Byte) (s : State), (s.lend d.cdLink .first).running = true →
    (payload.length = 16 → byteAt payload 0 = 0x10 →
      ∃ t, exec (.provingReportReceived d seq payload) s = .next t ∧ t.cd.proving d = payload ∧
        t.cd.proving d.other = s.cd.proving d.other ∧ SameHv s t ∧ t.ld = s.ld ∧ t.level = s.level ∧ t.wire = s.wire) ∧
    (payload.length ≠ 16 ∨ byteAt payload 0 ≠ 0x10 → (s.lend d.cdLink .first).rxerr ≠ 0xFF →
      ∃ t, exec (.provingReportReceived d seq payload) s = .next t ∧
        (t.lend d.cdLink .first).rxerr = (s.lend d.cdLink .first).rxerr + 1 ∧ SameLogic s t ∧ SameHv s t)))

/-! ### The referee (chapter 08) -/

/-- R49, R208, R209, R220: a powered die that takes Granted from two valid words drives from then on, and a DRIVE link
reads Driving where it can open its gates; one that takes Withdrawn turns its gates low, sends Not driving, opens its
loop, keeps no burst and begins the blank of the gap on both dies. Words that make no new state change nothing of the
grant. R218: a die that takes Kill asserted loses its gate-drive supply, holds every gate low and sends Not driving;
the release gives the supply back, with the latched grant Withdrawn, as a standby that is not ready or still boots.
Forms whose completion this concludes: grantTaken, withdrawnTaken, killAssertedTaken, killReleasedTaken. -/
def Obligations.GrantsAndKillsTakeEffectAtTheDie : Prop :=
  (∀ (d : Die) (words : List (BitVec 12)) (s : State), (s.die d).powered = true →
    (s.levelTaken d.grantLink true words = true → (s.die d).grant = false →
      ∃ t, exec (.grantTaken d words) s = .next t ∧ (t.die d).grant = true ∧ (t.lv d.grantLink).taken = true ∧
        (t.lv d.grantLink).silent = false ∧
        ((s.die d).canGate = true → (t.die d).gate = true ∧ (t.lv d.driveLink).sent = some true ∧
          (t.die d).gapBlank = false ∧ (t.die d.other).gapBlank = false) ∧
        t.ref = s.ref ∧ SameLogic s t ∧ (t.die d.other).grant = (s.die d.other).grant ∧
        (t.die d.other).gate = (s.die d.other).gate) ∧
    (s.levelTaken d.grantLink false words = true → (s.die d).grant = true →
      ∃ t, exec (.withdrawnTaken d words) s = .next t ∧ (t.die d).grant = false ∧ (t.die d).gate = false ∧
        (t.lv d.driveLink).sent = some false ∧ (t.die d).plClosed = false ∧ (t.die d).burst = none ∧
        (t.die d).store.eCommit = 0 ∧ (t.die d).gapBlank = true ∧
        t.die d.other = { s.die d.other with gapBlank := true } ∧ t.ref = s.ref ∧ SameLogic s t) ∧
    (s.levelTaken d.grantLink true words = false →
      ∃ t, exec (.grantTaken d words) s = .next t ∧
        t.die d = { s.die d with invalidWords := (t.die d).invalidWords } ∧ t.die d.other = s.die d.other ∧
        t.ref = s.ref ∧ SameLogic s t)) ∧
  (∀ (d : Die) (words : List (BitVec 12)) (s : State),
    ((s.die d).powered = true → s.levelTaken d.killLink true words = true → (s.die d).killed = false →
      ∃ t, exec (.killAssertedTaken d words) s = .next t ∧ (t.die d).killed = true ∧ (t.die d).gateSupply = false ∧
        (t.die d).gate = false ∧ (t.lv d.driveLink).sent = some false ∧ t.dieMode d = 6 ∧ (t.die d).plClosed = false ∧
        t.die d.other =
          { s.die d.other with gapBlank := (s.die d.other).gapBlank || (s.die d).drives } ∧ t.ref = s.ref ∧ SameLogic s t) ∧
    (s.levelTaken d.killLink false words = true → (s.die d).killed = true →
      ∃ t, exec (.killReleasedTaken d words) s = .next t ∧ (t.die d).killed = false ∧
        (t.die d).gateSupply = (s.die d).powered ∧ (t.die d).grant = false ∧
        ((s.die d).failed = false → (s.die d).shutdown = false → (s.die d).powered = true → t.dieMode d = 0 ∨ t.dieMode d = 2) ∧
        t.die d.other = s.die d.other ∧ t.ref = s.ref ∧ SameLogic s t))

/-- R217: while REF withdraws x it grants y only when DRIVE_x has read Not driving from valid words, or 20.0 µs after
the kill, whatever DRIVE_x reads then; the kill goes out 4.0 µs after the withdrawal; the switch is done when DRIVE_y
reads Driving. R217: a die that was sent Granted and does not drive within 10.0 µs is withdrawn for cause DROPPED; the
outgoing die is granted back only where it left for a soft cause, without a kill, and is switchable. Forms whose
completion this concludes: driveStateTaken, clearTimeout, killSettled, driveStartTimeout. -/
def Obligations.InterlockGrantsOnlyAClearDiesPartner : Prop :=
  ((∀ (x y : Die) (cause : Byte) (k n : Bool) (words : List (BitVec 12)) (s : State),
    s.ref.grant = .withdrawing x (some y) cause k n →
    x ≠ y → s.levelTaken x.driveLink false words = true → s.refDriving y = false →
    ∃ t, exec (.driveStateTaken x false words) s = .next t ∧
      t.ref.grant = (if k then s.ref.grant else .granting (some x) y cause false n) ∧
      (t.lv y.grantLink).sent = (if k then (s.lv y.grantLink).sent else some true) ∧
      t.ref.stepAt = (if k then s.ref.stepAt else s.now) ∧ t.la = s.la ∧ t.lb = s.lb ∧ t.now = s.now) ∧
  (∀ (x y : Die) (cause : Byte) (n : Bool) (s : State), s.ref.grant = .withdrawing x (some y) cause false n →
    ∃ t, exec .clearTimeout s = .next t ∧ t.ref.grant = .withdrawing x (some y) cause true n ∧
      (t.lv x.killLink).sent = some true ∧ t.ref.kill x = true ∧ t.now = max s.now (s.ref.stepAt + 4000) ∧
      t.ref.stepAt = t.now ∧ (t.lv y.grantLink).sent = (s.lv y.grantLink).sent ∧ t.la = s.la ∧ t.lb = s.lb) ∧
  (∀ (x y : Die) (cause : Byte) (n : Bool) (s : State), s.ref.grant = .withdrawing x (some y) cause true n → x ≠ y →
    s.refDriving y = false →
    ∃ t, exec .killSettled s = .next t ∧ t.ref.grant = .granting (some x) y cause true n ∧
      (t.lv y.grantLink).sent = some true ∧ t.now = max s.now (s.ref.stepAt + 20000) ∧ t.la = s.la ∧ t.lb = s.lb) ∧
  (∀ (x : Option Die) (y : Die) (cause : Byte) (k n : Bool) (words : List (BitVec 12)) (s : State),
    s.ref.grant = .granting x y cause k n → s.levelTaken y.driveLink true words = true → s.ref.darkSwitch = false → byteFeed (s.ref.view y).state = true →
    byteMode (s.ref.view y).state ≠ 7 → (s.lend y.refLink .first).lost = false →
    ∃ t, exec (.driveStateTaken y true words) s = .next t ∧ t.ref.grant = .granted y ∧ t.ref.lastCause = cause ∧
      t.ref.switchovers = satAdd s.ref.switchovers 1 ∧ t.la = s.la ∧ t.lb = s.lb ∧ t.now = s.now)) ∧
  (∀ (x : Option Die) (y : Die) (cause : Byte) (k n : Bool) (s : State), s.ref.grant = .granting x y cause k n →
    (s.lv y.driveLink).silent = true →
    ∃ t b m, exec .driveStartTimeout s = .next t ∧ t.ref.grant = .withdrawing y b 0x05 false m ∧
      (t.lv y.grantLink).sent = some false ∧ t.now = max s.now (s.ref.stepAt + 10000) ∧
      (∀ z, b = some z → x = some z ∧ softCause cause = true ∧ k = false ∧ s.switchable z = true) ∧
      t.la = s.la ∧ t.lb = s.lb ∧ SameLogic s t)

/-- R214, R215, R230: at the release of its reset REF sends nothing on GRANT and KILL; 8.0 µs later it adopts a die
that drives alone, and with no die driving it enters NO_GRANT or grants the preferred die. R215, R229: in NO_GRANT the
die that is not preferred is granted 20.0 ms after it first showed a standby MODE with its feed; REF looks again every
10.0 ms, and raises "no lamp driver" where it still may grant none. Forms whose completion this concludes: refReset,
refStartDecision, noGrantTimeout, noGrantRetry. -/
def Obligations.RefStartsOnEvidenceAndLeavesNoGrant : Prop :=
  ((∀ s : State, ∃ t, exec .refReset s = .next t ∧ t.ref.grant = .boot ∧ t.ref.bootAt = s.now ∧ t.ref.prefB = false ∧
    t.ref.darkSwitch = true ∧ t.ref.pathBadA = 0 ∧ t.ref.pathBadB = 0 ∧ t.ref.killA = false ∧ t.ref.killB = false ∧
    (∀ d : Die, (t.lv d.grantLink).sent = none ∧ (t.lv d.killLink).sent = none ∧ t.refDriving d = false) ∧
    t.la = s.la ∧ t.lb = s.lb ∧ SameLogic s t) ∧
  (∀ (d : Die) (s : State), s.ref.grant = .boot → s.refDriving d = true → s.refDriving d.other = false →
    s.ref.darkSwitch = false → byteFeed (s.ref.view d).state = true → byteMode (s.ref.view d).state ≠ 7 →
    (s.lend d.refLink .first).lost = false →
    ∃ t, exec .refStartDecision s = .next t ∧ t.ref.grant = .granted d ∧ (t.lv d.grantLink).sent = some true ∧
      (t.lv d.other.grantLink).sent = some false ∧ (t.lv .killA).sent = some false ∧ (t.lv .killB).sent = some false ∧
      t.now = max s.now (s.ref.bootAt + 8000) ∧ t.la = s.la ∧ t.lb = s.lb) ∧
  (∀ s : State, s.ref.grant = .boot → s.refDriving .la = false → s.refDriving .lb = false →
    ∃ t, exec .refStartDecision s = .next t ∧
      (t.ref.grant = .noGrant ∨ ∃ n, t.ref.grant = .granting none s.refPreferred causeInitial false n ∨
        t.ref.grant = .granting none s.refPreferred causeLastResort false n ∨
        t.ref.grant = .granting none s.refPreferred.other causeLastResort false n) ∧ t.la = s.la ∧ t.lb = s.lb)) ∧
  ((∀ (n : Nat) (s : State), s.ref.grant = .noGrant → s.mayGrant s.refPreferred = false →
    s.mayGrant s.refPreferred.other = true → (s.ref.view s.refPreferred.other).readySince = some n →
    ∃ t c m, exec .noGrantTimeout s = .next t ∧ t.ref.grant = .granting none s.refPreferred.other c false m ∧
      (t.lv s.refPreferred.other.grantLink).sent = some true ∧ t.la = s.la ∧ t.lb = s.lb ∧
      t.now = max s.now (n + 20000000)) ∧
  (∀ s : State, s.ref.grant = .noGrant → s.mayGrant .la = false → s.mayGrant .lb = false →
    ∃ t, exec .noGrantRetry s = .next t ∧ t.ref.grant = .noGrant ∧ t.ref.noDriver = true ∧
      t.now = max s.now (s.ref.stepAt + 10000000) ∧ t.level = s.level ∧ t.la = s.la ∧ t.lb = s.lb ∧ SameLogic s t))

/-- R210, R213, R220: boot ends with the self-check's verdict, a later self-check can fail the die; a powered die
sends DIE_HEALTH on both of its links at once after a change of its STATE byte or DARK mask, and otherwise every 8
cycles; REF takes a STATE byte with a MODE of Table 8.1, and the CD keeps the payload. Forms whose completion this
concludes: dieBootEnd, dieHealthSend, dieHealthReceived, lampDieSelfCheckFailed. -/
def Obligations.DieBootAndHealth : Prop :=
  (∀ (d : Die) (clockBad supplyBad frontBad : Bool) (words : ChMask) (hold : Bool) (s : State),
    (s.die d).powered = true → (s.die d).bootDone = false →
    ∃ t, exec (.dieBootEnd d clockBad supplyBad frontBad words hold) s = .next t ∧ (t.die d).bootDone = true ∧
      (t.die d).failed = ((s.die d).failed || clockBad || (supplyBad && !(s.die d).killed) || frontBad) ∧
      (t.die d).fuseBad = words ∧ (t.die d).holdBad = hold ∧
      ((s.die d).drives = false → t.die d.other = s.die d.other) ∧ t.ref = s.ref ∧ SameLogic s t) ∧
  (∀ (d : Die) (clockBad supplyBad frontBad : Bool) (s : State), (s.die d).powered = true → (s.die d).bootDone = true →
    ∃ t, exec (.lampDieSelfCheckFailed d clockBad supplyBad frontBad) s = .next t ∧
      t.die d = { s.die d with
        clockBad := (s.die d).clockBad || clockBad, supplyBad := (s.die d).supplyBad || (supplyBad && !(s.die d).killed),
        failed := (s.die d).failed || clockBad || (supplyBad && !(s.die d).killed) || frontBad } ∧
      t.die d.other = s.die d.other ∧ t.ref = s.ref ∧ SameLogic s t ∧ SameLinks s t) ∧
  (∀ (d : Die) (s : State), (s.die d).powered = true →
    ∃ t u, exec (.dieHealthSend d) s = .next t ∧
      u = (if (s.die d).healthSent = some (s.healthKey d) then s.until ((s.die d).healthAt + 8000000) else s) ∧
      t.now = u.now ∧
      t.wire = .link d.cdLink .second ((s.lend d.cdLink .second).txSeq + 1) (.report (u.healthOf d)) ::
        .link d.refLink .second ((s.lend d.refLink .second).txSeq + 1) (.report (u.healthOf d)) :: s.wire ∧
      t.die d = { s.die d with
        healthSent := some (u.healthKey d), healthLast := u.healthOf d, healthAt := u.now } ∧
      t.die d.other = s.die d.other ∧ t.ref = s.ref ∧ SameLogic s t ∧ t.level = s.level) ∧
  (∀ (d : Die) (seq : Byte) (payload : List Byte) (s : State), payload.length = 16 → byteAt payload 0 = 0x21 →
    ((s.lend d.refLink .first).running = true → (byteMode (byteAt payload 1)).toNat ≤ 8 →
      ∃ t, exec (.dieHealthReceived d true seq payload) s = .next t ∧ (t.ref.view d).state = byteAt payload 1 ∧
        (t.ref.view d).seen = true ∧ (t.ref.view d).dark = (half payload 4).extractLsb' 0 12 ∧ t.la = s.la ∧
        t.lb = s.lb) ∧
    ((s.lend d.cdLink .first).running = true →
      ∃ t, exec (.dieHealthReceived d false seq payload) s = .next t ∧ t.cd.health d = payload ∧ SameHv s t ∧
        t.level = s.level))

/-- R223, R224: the driver sends its mirror frame, one a lamp cycle; a standby takes one that is newer than the frame
it holds, counting how long map and slots have differed; a boundary without a frame is reported, and 8 disagreeing
frames raise "mirror disagrees". R227, R230: at the end of the hold a die falls back at its next boundary to the fuse
markers and the channels that always light, in scene 0; a standby that sees every sign of an orphaned node for 10 ms
takes the grant itself. Forms whose completion this concludes: mirrorSend, mirrorReceived, mirrorFrameMissed,
mirrorDisagrees, holdExpiry, fallbackEntry, orphanTakeover. -/
def Obligations.MirrorHoldAndOrphanKeepTheLamps : Prop :=
  ((∀ (d : Die) (s : State), s.mirroring = some d →
    ((s.die d).mirror.sent.map MirrorP.cycle) ≠ some (s.die d).clock.cycle32 →
    ∃ t, exec .mirrorSend s = .next t ∧
      t.wire = .link .mirror d.mirrorEnd ((s.lend .mirror d.mirrorEnd).txSeq + 1) (.mirror (s.mirrorOf d)) :: s.wire ∧
      (t.die d).mirror.sent = some (s.mirrorOf d) ∧ t.die d.other = s.die d.other ∧ t.ref = s.ref ∧ SameLogic s t) ∧
  (∀ (d : Die) (m : MirrorP) (s : State), (s.die d).powered = true → (s.lend .mirror d.mirrorEnd).running = true →
    (s.die d).drives = false → m.version = 1 →
    ((s.die d).newerFrame m = true →
      ∃ t, exec (.mirrorReceived d m) s = .next t ∧ (t.die d).mirror.complete = some m ∧
        (t.die d).mirror.completeAt = s.now ∧
        (t.die d).mirror.differ =
          (if m.mapCrc = (s.die d).mapCrc ∧ m.slotCrc = (s.die d).slotCrc then 0 else (s.die d).mirror.differ + 1) ∧
        (t.die d).map = (s.die d).map ∧ t.die d.other = s.die d.other ∧ t.ref = s.ref ∧ SameLogic s t) ∧
    ((s.die d).newerFrame m = false →
      ∃ t, exec (.mirrorReceived d m) s = .next t ∧ t.die d = s.die d ∧ t.die d.other = s.die d.other)) ∧
  (∀ (d : Die) (s : State), (s.die d).powered = true → (s.die d).drives = false → (s.die d).mirror.complete = none →
    ∃ t, exec (.mirrorFrameMissed d) s = .next t ∧ t.now = max s.now ((s.die d).clock.boundaryAt + 68500) ∧
      (t.die d).mirror = (s.die d).mirror ∧
      ((s.die d).reports = [] → ∃ r, (t.die d).reports = [r] ∧ r.code = 0x0405 ∧ r.event = 0) ∧
      t.die d.other = s.die d.other ∧ t.ref = s.ref ∧ SameLogic s t) ∧
  (∀ (d : Die) (s : State), (s.die d).powered = true → 8 ≤ (s.die d).mirror.differ →
    (fMirrorDisagrees.code, d.subject) ∉ (s.die d).conds →
    ∃ t, exec (.mirrorDisagrees d) s = .next t ∧ (fMirrorDisagrees.code, d.subject) ∈ (t.die d).conds ∧
      t.die d.other = s.die d.other ∧ t.ref = s.ref ∧ SameLogic s t)) ∧
  ((∀ (d : Die) (s : State), (s.die d).powered = true → (s.die d).cd.holding = true → (s.die d).cd.fallbackDue = false →
    ∃ t, exec (.holdExpiry d) s = .next t ∧
      t.die d = { s.die d with cd := { (s.die d).cd with fallbackDue := true } } ∧
      t.now = max s.now (s.die d).cd.holdUntil ∧ t.die d.other = s.die d.other ∧ t.ref = s.ref ∧ SameLogic s t ∧
      SameLinks s t) ∧
  (∀ (d : Die) (s : State), (s.die d).powered = true → (s.die d).cd.fallbackDue = true →
    (s.die d).cd.holdUntil ≤ (s.die d).clock.boundaryAt →
    ∃ t, exec (.fallbackEntry d) s = .next t ∧ (t.die d).cd.fallback = true ∧ (t.die d).cd.holding = false ∧
      (t.die d).cd.fallbackDue = false ∧ (t.die d).reqLit = (s.die d).fallbackMask ∧ (t.die d).scene = 0 ∧
      (t.die d).map = (s.die d).map ∧ t.die d.other = s.die d.other ∧ t.ref = s.ref ∧ SameLogic s t) ∧
  (∀ (d : Die) (s : State), s.orphaned d = true →
    ∃ t, exec (.orphanTakeover d) s = .next t ∧ (t.die d).grant = true ∧ (t.die d).orphan = true ∧
      ((s.die d).canGate = true → (t.die d).gate = true ∧ (t.lv d.driveLink).sent = some true) ∧
      t.now = max s.now (s.orphanSince d + 10000000) ∧ t.ref = s.ref ∧ SameLogic s t))

/-- R231, Table 8.5: what REF's COMMANDs answer and set. REF_CONFIG stores PREF and DARK_SWITCH, REF_STATUS only
answers, KILL_RELEASE ends a kill that stands, KILL_TEST kills only a standby, PATH_CLEAR clears the bits of its mask,
and SWITCH moves the grant only to a ready die. R231, R317: a kill test releases the kill 1.0 ms after it began and
reports whether MODE KILLED was seen; the CD keeps a SWITCH or KILL_TEST REPORT and shows the host that the drive was
switched. Forms whose completion this concludes: refConfig, refStatus, switch, refKillRelease, refKillTest,
killTestEnd, refPathClear, switchReportReceived, killTestReportReceived. -/
def Obligations.RefereeCommandsAndKillTests : Prop :=
  (∀ (seq : Byte) (s : State), (s.lend .cdRef .second).running = true → NewCommand .cdRef seq s →
    (∀ b : Byte, s.ref.grant = .boot →
      ∃ t, exec (.refConfig seq b) s = .next t ∧ Answered .cdRef seq [0x50, 0x00] s t ∧
        t.ref = { s.ref with prefB := bitOf b 7, darkSwitch := bitOf b 6 } ∧ t.level = s.level ∧ t.la = s.la ∧
        t.lb = s.lb ∧ SameLogic s t) ∧
    (∃ t, exec (.refStatus seq) s = .next t ∧ Answered .cdRef seq ([0x51, 0x00] ++ s.refStatusBytes) s t ∧ SameHv s t ∧
      t.level = s.level ∧ SameLogic s t) ∧
    (∀ (x y : Die), s.ref.grant = .granted x → x ≠ y → (s.switchable y && (s.ref.view y).ready) = true →
      (s.lv x.driveLink).taken = true →
      ∃ t n, exec (.switch seq y.code) s = .next t ∧ t.wire = .link .cdRef .second seq (.response [0x52, 0x00]) :: s.wire ∧
        t.ref.grant = .withdrawing x (some y) 0x08 false n ∧ (t.lv x.grantLink).sent = some false ∧ t.la = s.la ∧
        t.lb = s.lb) ∧
    (∀ (x y : Die), s.ref.grant = .granted x → x ≠ y → (s.switchable y && (s.ref.view y).ready) = false →
      ∃ t, exec (.switch seq y.code) s = .next t ∧ Answered .cdRef seq [0x52, 0x06] s t ∧ SameHv s t ∧
        t.level = s.level) ∧
    (∀ y : Die, s.ref.grant = .boot → s.ref.kill y = true →
      ∃ t, exec (.refKillRelease seq y.code) s = .next t ∧ Answered .cdRef seq [0x53, 0x00] s t ∧
        t.ref.kill y = false ∧ (t.lv y.killLink).sent = some false ∧ t.ref.grant = .boot ∧ t.la = s.la ∧ t.lb = s.lb) ∧
    (∀ y : Die, s.ref.grant.isStandby y = true → s.ref.kill y = false → s.ref.killTest = none →
      ∃ t, exec (.refKillTest seq y.code) s = .next t ∧ Answered .cdRef seq [0x54, 0x00] s t ∧ t.ref.kill y = true ∧
        (t.lv y.killLink).sent = some true ∧ t.ref.killTest = some y ∧ t.ref.grant = s.ref.grant ∧ t.la = s.la ∧
        t.lb = s.lb) ∧
    (∀ y : Die, s.ref.grant.isStandby y = false →
      ∃ t, exec (.refKillTest seq y.code) s = .next t ∧ Answered .cdRef seq [0x54, 0x07] s t ∧ SameHv s t ∧
        t.level = s.level) ∧
    (∀ (y : Die) (m : ChMask), s.ref.grant = .boot →
      ∃ t, exec (.refPathClear seq y.code m) s = .next t ∧ Answered .cdRef seq [0x55, 0x00] s t ∧
        t.ref.pathBad y = s.ref.pathBad y &&& ~~~m ∧ t.ref.pathBad y.other = s.ref.pathBad y.other ∧ t.level = s.level ∧
        t.la = s.la ∧ t.lb = s.lb)) ∧
  ((∀ (d : Die) (s : State), s.ref.killTest = some d → s.ref.grant = .boot →
    ∃ t, exec .killTestEnd s = .next t ∧ t.ref.killTest = none ∧ t.ref.kill d = false ∧
      (t.lv d.killLink).sent = some false ∧ t.now = max s.now (s.ref.killTestAt + 1000000) ∧
      .link .cdRef .second ((s.lend .cdRef .second).txSeq + 1) (.report (killTestBytes d (!s.ref.killTestSeen))) ∈ t.wire ∧
      t.la = s.la ∧ t.lb = s.lb ∧ SameLogic s t) ∧
  (∀ (seq : Byte) (payload : List Byte) (s : State), (s.lend .cdRef .first).running = true → payload.length = 16 →
    (byteAt payload 0 = 0x20 →
      ∃ t, exec (.switchReportReceived seq payload) s = .next t ∧ t.cd.swReport = payload ∧
        t.cd.port.events = s.cd.port.events ||| ((1 : Half) <<< 7) ∧ t.cd.ktReport = s.cd.ktReport ∧ SameHv s t ∧
        t.ld = s.ld) ∧
    (byteAt payload 0 = 0x22 →
      ∃ t, exec (.killTestReportReceived seq payload) s = .next t ∧ t.cd.ktReport = payload ∧
        t.cd.port.events = s.cd.port.events ||| ((1 : Half) <<< 7) ∧ t.cd.swReport = s.cd.swReport ∧ SameHv s t ∧
        t.ld = s.ld)))

/-! ### The energy store (chapter 09) -/

/-- R235, R238, R239: without a feed or while the store bleeds the charger is off, below 74.0 V it charges, from 75.0
V it holds; a charge from at most 70.0 V that reaches the hold voltage measures C_MEAS = Q ÷ (V_end − V_start), which
is kept where it lies in 400 µF to 12,000 µF, and the ESR from the step of voltage at its end; bleeding ends at 69.0
V; a store that has been below 70.0 V for 1.0 s, with its feed and no running burst, raises "store overdrawn". Forms
whose completion this concludes: storeChargeControl, storeMeasureDone, storeBleedDone, storeOverdrawn. -/
def Obligations.StoreIsChargedAndMeasured : Prop :=
  ∀ (d : Die) (s : State), (s.die d).powered = true →
    (∀ mv, ∃ t, exec (.storeChargeControl d mv) s = .next t ∧ OnlyStore d s t ∧ t.now = s.now ∧
      (t.die d).store = { (s.die d).store with
        storeMv := mv,
        charging := (s.die d).store.feedOk && !(s.die d).store.bleeding &&
          (decide (mv < 74000) || ((s.die d).store.charging && decide (mv < 75000))),
        underSince := if (s.die d).store.feedOk && decide (mv < 70000) && !(s.die d).bursting then
          some ((s.die d).store.underSince.getD s.now) else none }) ∧
    (∀ q v0 v1 step, (s.die d).store.feedOk = true → (s.die d).store.charging = true → v0 ≤ 70000 → 74500 ≤ v1 →
      ∃ t, exec (.storeMeasureDone d q v0 v1 step) s = .next t ∧ (t.die d).store.charging = false ∧
        (t.die d).store.storeMv = v1 ∧
        (t.die d).store.cMeas =
          (if 400 ≤ q * 1000 / (v1 - v0) ∧ q * 1000 / (v1 - v0) ≤ 12000 then some (q * 1000 / (v1 - v0))
           else (s.die d).store.cMeas) ∧
        (t.die d).store.esr =
          (if step / ((s.die d).store.policy.chgLimit * 50) ≤ 2000 then some (step / ((s.die d).store.policy.chgLimit * 50))
           else (s.die d).store.esr) ∧
        (t.die d).store.feedOk = true ∧ (t.die d).store.phase = (s.die d).store.phase ∧
        (t.die d).grant = (s.die d).grant ∧ t.die d.other = s.die d.other ∧ t.ref = s.ref ∧ SameLogic s t) ∧
    ((s.die d).store.bleeding = true →
      ∃ t, exec (.storeBleedDone d) s = .next t ∧ OnlyStore d s t ∧ t.now = s.now ∧
        (t.die d).store = { (s.die d).store with
          bleeding := false, charging := (s.die d).store.feedOk, storeMv := min (s.die d).store.storeMv 69000 }) ∧
    (∀ n, (s.die d).store.underSince = some n →
      ∃ t, exec (.storeOverdrawn d) s = .next t ∧ t.now = max s.now (n + 1000000000) ∧ (fOverdrawn.code, d.subject) ∈ (t.die d).conds ∧
        SameButReports (s.die d) (t.die d) ∧ t.die d.other = s.die d.other ∧ t.ref = s.ref ∧ SameLogic s t)

/-- R246, R247, R252, Table 9.7: the loss of the feed, below 14.0 V for 200 µs, begins RIDE and drops a waiting burst;
RIDE ends in LAST after RIDE_MS, or at once when E_AVAIL is down to E_RES; the feed's return in RIDE or LAST, 15.5 V
for 2.0 ms, makes the die FED again; a dip is counted. Forms whose completion this concludes: feedLost, feedDip,
feedPresent, rideEnd, lastLightEntry. -/
def Obligations.FeedLossRidesAndReturns : Prop :=
  ∀ (d : Die) (s : State), (s.die d).powered = true →
    (∀ dv held, dv < 140 → 200000 ≤ held → (s.die d).store.feedOk = true → (s.die d).store.phase = .fed →
      ∃ t, exec (.feedLost d dv held) s = .next t ∧ (t.die d).store.feedOk = false ∧ (t.die d).store.feedDv = dv ∧
        (t.die d).store.charging = false ∧
        ((t.die d).store.phase = .ride ∧ (t.die d).store.phaseAt = s.now ∧ (t.die d).store.ready = true ∨
          (t.die d).store.phase = .finish ∧ (t.die d).store.spentCause = 3 ∧
            (s.die d).store.eAvail ≤ (s.die d).eFinal) ∧
        (∀ b, (s.die d).burst = some b → b.running = false → (t.die d).burst = none) ∧
        (t.die d).grant = (s.die d).grant ∧ t.die d.other = s.die d.other ∧ t.ref = s.ref ∧ SameLogic s t) ∧
    (∀ dv held, 140 ≤ dv ∨ held < 200000 → exec (.feedLost d dv held) s = .next s) ∧
    (∀ dv held, dv < 140 → held < 200000 → (s.die d).store.feedOk = true →
      ∃ t, exec (.feedDip d dv held) s = .next t ∧ OnlyStore d s t ∧ t.now = s.now ∧
        (t.die d).store = { (s.die d).store with dips := (s.die d).store.dips + 1 }) ∧
    ((s.die d).store.phase = .ride → (∃ c, (s.die d).lastSet c = true) →
      ∃ t, exec (.rideEnd d) s = .next t ∧ (t.die d).store.phase = .last ∧ (t.die d).store.phaseAt = t.now ∧
        t.now = (if (s.die d).store.eAvail ≤ (s.die d).eRes then s.now
          else max s.now ((s.die d).store.phaseAt + (s.die d).store.policy.rideMs * 1000000)) ∧
        (t.die d).grant = (s.die d).grant ∧ t.die d.other = s.die d.other ∧ t.ref = s.ref ∧ SameLogic s t ∧
        SameLinks s t) ∧
    ((s.die d).store.phase = .last → (s.die d).store.lastAt ≤ (s.die d).clock.boundaryAt →
      ∃ t, exec (.lastLightEntry d) s = .next t ∧
        (∀ c, ((t.die d).chan c).target = ((s.die d).shown c (s.die d).clock.cycle).target) ∧
        (t.die d).store = (s.die d).store ∧ t.now = s.now ∧ t.die d.other = s.die d.other ∧ t.ref = s.ref ∧
        SameLogic s t) ∧
    (∀ dv held, 155 ≤ dv → 2000000 ≤ held → (s.die d).store.feedOk = false →
      (s.die d).store.phase = .ride ∨ (s.die d).store.phase = .last →
      ∃ t, exec (.feedPresent d dv held) s = .next t ∧ (t.die d).store.phase = .fed ∧ (t.die d).store.feedOk = true ∧
        (t.die d).store.feedDv = dv ∧ (t.die d).store.charging = !(s.die d).store.bleeding ∧ t.now = s.now ∧
        (t.die d).grant = (s.die d).grant ∧ t.die d.other = s.die d.other ∧ t.ref = s.ref ∧ SameLogic s t)

/-- R249, R251: 125 µs after its store is spent a die that still drives shuts down, gates low, and writes its final
record; with the record written it stops, in the slot that did not hold the record in force. R201, R206, R208, R239,
R251: at the release of its reset a die has a withdrawn grant, drives nothing, and has lost everything but its fuses,
its references and its final records. Forms whose completion this concludes: shutdownTimeout, finalRecordWritten,
lampDieResetRelease. -/
def Obligations.SpentStoreStopsTheDie : Prop :=
  (∀ (d : Die) (n : Nat) (s : State), (s.die d).powered = true → (s.die d).store.spentAt = some n →
    (s.die d).store.phase = .finish → (s.die d).shutdown = false →
    ∃ t, exec (.shutdownTimeout d) s = .next t ∧ t.now = max s.now (n + 125000) ∧ (t.die d).shutdown = true ∧
      (t.die d).gate = false ∧ (t.lv d.driveLink).sent = some false ∧
      (t.die d).store.writing = some ((s.until (n + 125000)).finalOf d) ∧ t.die d.other = s.die d.other ∧
      t.ref = s.ref ∧ SameLogic s t ∧ SameOtherLevels d.driveLink s t) ∧
  (∀ (d : Die) (r : FinalRecord) (s : State), (s.die d).powered = true → (s.die d).store.writing = some r →
    ∃ t, exec (.finalRecordWritten d) s = .next t ∧ (t.die d).powered = false ∧ (t.die d).gate = false ∧
      (t.die d).grant = false ∧ (t.die d).store.phase = .off ∧ (t.lv d.driveLink).sent = none ∧
      ((t.die d).store.finalA = some r ∧ (t.die d).store.finalB = (s.die d).store.finalB ∨
        (t.die d).store.finalB = some r ∧ (t.die d).store.finalA = (s.die d).store.finalA ∧
          (s.die d).store.finalNow = (s.die d).store.finalA) ∧
      (t.lend d.cdLink .second).running = false ∧ (t.lend d.refLink .second).running = false ∧
      t.die d.other = s.die d.other ∧ t.ref = s.ref ∧ SameLogic s t) ∧
  (∀ (d : Die) (mv : Nat) (s : State), ∃ t, exec (.lampDieResetRelease d mv) s = .next t ∧ (t.die d).powered = true ∧
    (t.die d).bootDone = false ∧ (t.die d).grant = false ∧ (t.die d).gate = false ∧ (t.die d).alarmSeq = 0 ∧
    (t.die d).identity = none ∧ (∀ c : Chan, (t.die d).map[c.val] = none) ∧ (t.die d).slots = defaultSlots ∧
    (t.die d).fuses = (s.die d).fuses ∧
    ((s.die d).store.writing = none → (t.die d).store.finalA = (s.die d).store.finalA ∧
      (t.die d).store.finalB = (s.die d).store.finalB) ∧ (∀ c, ((t.die d).chan c).own = ((s.die d).chan c).own) ∧
    (t.die d).killed = decide ((s.lv d.killLink).sent = some true) ∧ (t.lv d.driveLink).sent = some false ∧
    t.die d.other = s.die d.other ∧ t.ref = s.ref ∧ SameLogic s t)

/-! ### Power states (chapter 10) -/

/-- R258, R259, R266, Table 10.2: at its boundary a node takes what its own host asked as position 1 or alone, else
what its lead asked where Table 10.2 has a row for it; a woken node whose lead is still in Standby 1.0 s after its
commit goes on by itself. R261: draining ends with the CD's answer, eight cycles of GOING_DARK and Calm, once every
crossing is at rest (R41). R272: the power word is acknowledged; without it a waking or draining node floods "going
dark" and falls to Calm. Forms whose completion this concludes: powerStateFollow, wakeTargetTimeout, sleepAnswer,
drainComplete, calmEntry, powerWordAck, failsafeToCalm. -/
def Obligations.PowerStatesFollowTheLead : Prop :=
  (∀ (p : PowerState) (s : State), s.powerActs = true → s.ld.power ≠ .draining → s.ld.ownTarget = some p →
    p ≠ .draining → s.position = 1 ∨ s.position = 0 →
    ∃ t, exec .powerStateFollow s = .next t ∧ t.ld.power = p ∧ t.ld.ownTarget = none ∧
      t.now = max s.now (s.momentOf s.ld.ownAt) ∧ SameHv s t ∧ SameLinks s t ∧ (∀ q, t.port q = s.port q)) ∧
  (∀ (p q : PowerState) (c : Commit) (s : State), s.powerActs = true → s.ld.power ≠ .draining →
    s.ld.ownTarget = none → s.ld.request = some p → s.commit? = some c → s.ld.requestFrom = some c.leadId →
    (∀ w, s.ld.engine.switch = some w → s.ld.requestAt.toNat < w.boundary.toNat) →
    c.position ≠ 1 → followed s.ld.power p = some q → q ≠ .draining →
    ∃ t, exec .powerStateFollow s = .next t ∧ t.ld.power = q ∧ t.ld.request = none ∧
      t.now = max s.now (s.momentOf s.ld.requestAt) ∧ SameHv s t ∧ SameLinks s t) ∧
  (∀ (p : PowerState) (c : Commit) (s : State), s.powerActs = true → s.ld.power ≠ .draining →
    s.ld.ownTarget = none → s.ld.request = some p → s.commit? = some c → s.ld.requestFrom = some c.leadId →
    (∀ w, s.ld.engine.switch = some w → s.ld.requestAt.toNat < w.boundary.toNat) →
    c.position ≠ 1 → followed s.ld.power p = some .draining →
    ∃ t, exec .powerStateFollow s = .next t ∧ t.ld.power = .draining ∧ t.ld.sleepAsked = some t.now ∧
      t.ld.sleepAnswered = false ∧ SameHv s t ∧ SameLinks s t) ∧
  (∀ (g : GustCode) (s : State), s.powerActs = true → s.ld.power = .waking → s.ld.wakeTarget = some g →
    s.commit?.isSome = true → s.leadInStandby = true →
    ∃ t, exec .wakeTargetTimeout s = .next t ∧ t.ld.power = gustPower g ∧
      t.now = max s.now (s.ld.numberedAt + 1000000000) ∧ SameHv s t ∧ SameLinks s t) ∧
  (∀ (n : Nat) (s : State), s.powerActs = true → s.ld.power = .draining → s.ld.sleepAsked = some n →
    s.ld.sleepAnswered = false → s.cd.running = true → s.cd.serving = none →
    ∃ t, exec .sleepAnswer s = .next t ∧ t.ld = { s.ld with sleepAnswered := true } ∧ t.cd.faults.summaries = [] ∧
      (∀ c, s.commit? = some c → t.cd.retained.lastEpoch = c.epoch) ∧ t.ao = s.ao ∧ SameHv s t ∧ SameLinks s t ∧
      t.now = s.now) ∧
  (∀ s : State, s.powerActs = true → s.ld.power = .draining → s.ld.sleepAnswered = true → s.cd.goingDark = false →
    ∃ t, exec .drainComplete s = .next t ∧ t.cd = { s.cd with goingDark := true } ∧
      t.ld = { s.ld with drainStartAt := t.now } ∧ t.now = max s.now (s.ld.powerAt + 8000000) ∧ t.ao = s.ao ∧
      SameHv s t ∧ SameLinks s t) ∧
  (∀ s : State, s.crossingsRest = false → exec .calmEntry s = .next s) ∧
  (∀ s : State, s.powerActs = true → s.ld.power = .draining → s.cd.goingDark = true → s.crossingsRest = true →
    ∃ t, exec .calmEntry s = .next t ∧ t.ld.power = .calm ∧ t.cd.running = false ∧ t.ld.wakeArmed = true ∧
      (∀ q, (t.lane q).st = .off) ∧ (∀ x : HvDie, (t.lend x.cdLink .first).running = false) ∧
      t.now = max s.now (s.ld.drainStartAt + 1000000) ∧ t.ld.engine.commit = s.ld.engine.commit ∧ SameHv s t ∧
      t.ao = s.ao) ∧
  (∀ s : State, s.cd.running = true → s.ldRuns = true →
    ∃ t, exec .powerWordAck s = .next t ∧ t = { s with ld := { s.ld with powerAckAt := s.now } }) ∧
  (∀ s : State, s.powerActs = true → s.ld.power = .waking ∨ s.ld.power = .draining → s.cd.goingDark = false →
    ∃ t, exec .failsafeToCalm s = .next t ∧ t.ld.power = .calm ∧ t.cd.running = false ∧ t.ao.failsafe = true ∧
      max s.now s.ld.failsafeAt + 1000000 ≤ t.now ∧ t.ld.seqBeacon = s.ld.seqBeacon + 8 ∧ SameHv s t)

/-- R264, R265, R268 to R271: in Calm a Gust or a host frame whose CRC passes starts the node at level 1 under source
0x8 with the code its own burst repeats; the burst leaves on all four lanes for 8.0 ms, with c(0) at 1.000, and they
go to DETECT after it; a broken end is probed no sooner than 1.0 s after its last probe. Forms whose completion this
concludes: gustRecognised, hostWake, gustBurstStart, gustBurstEnd, probeBurst. -/
def Obligations.GustsWakeAndProbe : Prop :=
  (∀ (p : Port) (g : GustCode) (seen : List (Bool × Nat)) (s : State), s.ld.power = .calm → s.ld.wakeArmed = true →
    gustOf seen = some g →
    (∀ others code, code = (if others.any (fun l => gustOf l = some .active) then .active else g) →
      ∃ t, exec (.gustRecognised p seen others) s = .next t ∧ t.ao.reset.active = true ∧ t.ao.reset.level = 1 ∧
      t.ao.reset.source = 8 ∧ t.ld.gustDue = some code ∧ t.ld.wokenByGust = true ∧
      t.ld.wakeTarget = some code ∧ t.cd.nvm = s.cd.nvm ∧ t.cd.retained = s.cd.retained ∧
      SameHv s t ∧ t.now = s.now)) ∧
  (∀ (cmd : Byte) (f : HostFrame) (s : State), s.ld.power = .calm → s.ao.reset.active = false →
    cmd.toNat ≤ 3 → requestWhole cmd f = true → requestOk cmd f = true →
    ∃ t, exec (.hostWake cmd f) s = .next t ∧ t.ao.reset.active = true ∧ t.ao.reset.level = 1 ∧
      t.ao.reset.source = 8 ∧ t.ld.gustDue = some s.cd.retained.wakeCode ∧ t.ld.wokenByGust = false ∧
      t.wire = .miso ((0xB6 :: ones (f.bits / 8)).take (f.bits / 8)) :: s.wire ∧ t.cd.nvm = s.cd.nvm ∧
      t.cd.retained = s.cd.retained ∧ SameHv s t ∧ t.now = s.now) ∧
  (∀ (g : GustCode) (s : State), s.ldRuns = true → s.ld.gustDue = some g → s.ld.gustBusy = false →
    ∃ t, exec .gustBurstStart s = .next t ∧ t.ld.gustBusy = true ∧ t.ld.gustAt = s.now ∧
      (∀ q, (t.lane q).taps = ⟨0, 0, 0⟩ ∧ (t.lane q).st = (s.lane q).st ∧ t.port q = s.port q) ∧
      t.wire = [gustEmission .aftSkip g, gustEmission .aftNear g, gustEmission .foreSkip g, gustEmission .foreNear g] ++
        s.wire ∧ t.cd = s.cd ∧
      t.ao = s.ao ∧ SameHv s t ∧ SameLinks s t ∧ t.now = s.now) ∧
  (∀ s : State, s.ldRuns = true → s.ld.gustBusy = true →
    ∃ t, exec .gustBurstEnd s = .next t ∧ t.ld.gustBusy = false ∧ t.ld.gustDue = none ∧ t.now = max s.now (s.ld.gustAt + 8000000) ∧
      (∀ q, (t.lane q).st = .detect) ∧ SameHv s t ∧ SameLinks s t ∧ t.cd = s.cd ∧ t.ao = s.ao) ∧
  (∀ (e : VEnd) (s : State), s.ldRuns = true → s.ld.gustBusy = false → s.ld.firstProbe = some e →
    ∃ t, exec .gustBurstEnd s = .next t ∧ t.ld.probing e = false ∧ t.ld.probing e.other = s.ld.probing e.other ∧
      t.now = max s.now ((s.ld.probeAt e).getD s.now + 8000000) ∧ (t.lane e.near).st = .detect ∧
      (t.lane e.skip).st = .detect ∧ SameHv s t ∧ SameLinks s t ∧ t.cd = s.cd ∧ t.ao = s.ao) ∧
  (∀ (e : VEnd) (g : GustCode) (s : State), s.powerActs = true → powerGust s.ld.power = some g →
    (s.vend e).verdict = .broken → s.laneUp e.near = false → s.laneUp e.skip = false → s.ld.probing e = false →
    ∃ t, exec (.probeBurst e) s = .next t ∧ t.ld.probing e = true ∧ t.ld.probeAt e = some t.now ∧
      t.ld.probing e.other = s.ld.probing e.other ∧
      (∃ w, t.wire = [gustEmission e.skip g, gustEmission e.near g] ++ w ++ s.wire) ∧ (t.lane e.near).st = .off ∧ (t.lane e.skip).st = .off ∧
      (∀ q, q.vend ≠ e → t.lane q = s.lane q) ∧
      t.now = (match s.ld.probeAt e with | some n => max s.now (n + 1000000000) | none => s.now) ∧ SameHv s t ∧
      SameLinks s t ∧ t.cd = s.cd ∧ t.ao = s.ao)

/-! ### Reset, starts and options (chapter 11) -/

/-- R274 to R281, R305, Table 11.2: each source begins a reset at its level unless one at the same or a lower level is
in progress or the last-word window drops it. A reset of the logic side never reaches the lamp dies or REF, and what
NVM holds stays. R253: with VIN_L falling the node says its last word, and its return begins a reset at level 1. R276,
R277, R280, R253: RST_N and the thermal hold end when their cause does; in the last-word window their requests are
dropped, and the return of VIN_L begins a reset at level 1 under source 0x9. Forms whose completion this concludes:
lastWordEntry, lastWordReturn, por, brownoutReset, rstNReset, rstNRelease, watchdogExpiry, thermalTrip,
thermalHoldRelease, firmwareFaultReset, hvLinkLossReset. -/
def Obligations.ResetsTakeTheirLevelAndEnd : Prop :=
  (∀ s : State, s.cd.lastWord = false → s.ao.reset.active = false →
    (∀ (mv : Nat) (bad : Bool) (fuses : List Byte), mv < 2000 ∨ bad = true → s.ao.fuses ≠ [] →
      ∃ t, exec (.por mv bad fuses false) s = .next t ∧ t.ao.reset.active = true ∧ t.ao.reset.level = 0 ∧
        t.ao.reset.source = 0 ∧ t.ao.bkp0 = 0 ∧ t.ao.bkp7 = 0 ∧ t.cd.running = false ∧ t.cd.nvm = s.cd.nvm ∧
        t.cd.retained = .blank ∧ t.cd.gpio = zeros 8 ∧ t.ld.power = .off ∧ SameHv s t ∧ t.now = s.now) ∧
    (∀ (i : Instr) (n : Nat), (∃ mv ns, mv ≤ 2400 ∧ 5000 ≤ ns ∧ i = .brownoutReset mv ns false) ∧ n = 1 ∨
        (∃ temps ns, (∃ c ∈ temps, (135 : Int) ≤ c) ∧ 100000 ≤ ns ∧ i = .thermalTrip temps ns) ∧ n = 5 ∨
        (∃ ns, 10000 ≤ ns ∧ i = .rstNReset ns) ∧ n = 2 ∧ s.cd.frost = false →
      ∃ t, exec i s = .next t ∧ t.ao.reset.active = true ∧ t.ao.reset.level = s.sourceLevel n ∧
        t.ao.reset.source = BitVec.ofNat 8 n ∧ t.cd.running = false ∧ t.cd.nvm = s.cd.nvm ∧
        (s.sourceLevel n = 1 → t.cd.retained = s.cd.retained) ∧ (s.sourceLevel n = 0 → t.cd.retained = .blank) ∧
        SameHv s t ∧ t.now = s.now) ∧
    (∀ ns, ns < 1000 → exec (.rstNReset ns) s = .next s) ∧
    (s.regsLive = true →
      (s.cd.frost = false →
        ∃ t, exec .watchdogExpiry s = .next t ∧ t.ao.reset.active = true ∧ t.ao.reset.level = s.sourceLevel 3 ∧
          t.ao.reset.source = 3 ∧ t.now = max s.now s.watchdogAt ∧ t.cd.nvm = s.cd.nvm ∧
          t.cd.retained = s.cd.retained ∧ SameHv s t) ∧
      (∃ t, exec .firmwareFaultReset s = .next t ∧ t.ao.reset.active = true ∧ t.ao.reset.level = s.sourceLevel 6 ∧
        t.ao.reset.source = 6 ∧ t.cd.nvm = s.cd.nvm ∧ t.cd.retained = s.cd.retained ∧ SameHv s t ∧ t.now = s.now) ∧
      (∀ d : HvDie, (s.lend d.cdLink .first).running = true → (s.lend d.cdLink .first).lost = true →
        (s.lend d.cdLink .first).upSinceStart = true →
        (s.sourceLevel 7 = 2 →
          ∃ t, exec (.hvLinkLossReset d) s = .next t ∧ t.ao.reset.active = true ∧ t.ao.reset.level = 2 ∧
            t.ao.reset.source = 7 ∧ t.now = max s.now ((s.lend d.cdLink .first).lostAt + 10000000) ∧ SameHv s t) ∧
        (s.sourceLevel 7 = 3 → s.fences.contains (.cdEnd d) = false →
          ∃ t, exec (.hvLinkLossReset d) s = .next t ∧ t.ao.reset = s.ao.reset ∧ .cdEnd d ∈ t.fences ∧
            (t.lend d.cdLink .first).running = false ∧
            t.now = max s.now ((s.lend d.cdLink .first).lostAt + 10000000) ∧ SameHv s t)) ∧
      (s.ldRuns = true →
        ∀ mv ns, mv < 2600 → 5000 ≤ ns → ∃ t, exec (.lastWordEntry mv ns) s = .next t ∧ t.cd.lastWord = true ∧ t.ao = s.ao ∧
          t.cd.faults.summaries = [] ∧ t.ld.seqBeacon = s.ld.seqBeacon + 1 ∧ SameHv s t ∧ t.now = s.now))) ∧
  (∀ s : State,
    (s.ao.reset.holdRst = true →
      ∃ t, exec .rstNRelease s = .next t ∧
        t = { s with ao := { s.ao with reset := { s.ao.reset with holdRst := false, at_ := s.now } } }) ∧
    (∀ temps : List Int, s.ao.reset.holdThermal = true → (∀ c ∈ temps, c ≤ 115) →
      ∃ t, exec (.thermalHoldRelease temps) s = .next t ∧
        t = { s with ao := { s.ao with reset := { s.ao.reset with holdThermal := false, at_ := s.now } } }) ∧
    (s.cd.lastWord = true → (∀ ns, 10000 ≤ ns → exec (.rstNReset ns) s = .next s) ∧
      (∀ temps ns, exec (.thermalTrip temps ns) s = .next s) ∧
      (∀ mv ns, s.ao.reset.active = false → 2650 ≤ mv → 100000 ≤ ns →
        ∃ t, exec (.lastWordReturn mv ns) s = .next t ∧ t.ao.reset.active = true ∧ t.ao.reset.level = 1 ∧
          t.ao.reset.source = 9 ∧ t.cd.lastWord = false ∧ t.cd.nvm = s.cd.nvm ∧ t.cd.retained = s.cd.retained ∧
          SameHv s t ∧ t.now = s.now)))

/-- R264, R282, R285 to R288: past its holds a reset at level 0 or 1 senses the fuses, releases the links and lets the
LD wake, its lanes in DETECT unless a burst is due first; without a clock the islands stay held, BKP1 counts it, and
the release is tried again every 10 ms. R285, R321: the host port comes out of its own reset with a new deadline for
its heartbeat. Forms whose completion this concludes: resetPendingRetry, hostPortResetComplete, islandRelease. -/
def Obligations.IslandsAreReleased : Prop :=
  (∀ s : State, s.releasable = true → s.ao.reset.pendingClocks = false →
    (∃ t, exec (.islandRelease true) s = .next t ∧ t.ld.inReset = false ∧ t.ld.power = .waking ∧
      (s.ao.reset.level = 0 → t.ao.fuseOk = s.fuseCrcOk ∧ t.cd.gpio = s.fusePins) ∧
      (∀ x : HvDie, (t.lend x.cdLink .first).running = true ∧ (t.lend x.cdLink .first).lost = true) ∧
      t.ld.gustDue = s.ld.gustDue ∧ (s.ld.gustDue = none → ∀ p, (t.lane p).st = .detect) ∧
      (∀ g, s.ld.gustDue = some g → ∀ p, (t.lane p).st = .off) ∧ t.ao.reset.active = true ∧ SameHv s t ∧
      t.now = s.now) ∧
    (∃ t, exec (.islandRelease false) s = .next t ∧ t.ld = s.ld ∧ t.ao.reset.pendingClocks = true ∧
      t.ao.pendingBit = true ∧
      t.ao.bkp1.extractLsb' 16 16 = satHalf (s.ao.bkp1.extractLsb' 16 16) ∧
      t.now = max s.now (s.ao.reset.at_ + 10000000) ∧ SameHv s t ∧ SameLinks s t)) ∧
  (∀ s : State, s.releasable = true → s.ao.reset.pendingClocks = true →
    (∃ t, exec (.resetPendingRetry true) s = .next t ∧ t.ld.inReset = false ∧ t.ld.power = .waking ∧
      t.ao.reset.pendingClocks = false ∧ t.now = max s.now (s.ao.reset.at_ + 10000000) ∧ SameHv s t) ∧
    (∃ t, exec (.resetPendingRetry false) s = .next t ∧ t.ld = s.ld ∧ t.cd = s.cd ∧ t.ao.reset.pendingClocks = true ∧
      t.ao.bkp1.extractLsb' 16 16 = satHalf (s.ao.bkp1.extractLsb' 16 16) ∧
      t.now = max s.now (s.ao.reset.at_ + 10000000) ∧ SameHv s t ∧ SameLinks s t)) ∧
  (∀ s : State, s.releasable = false → s.regsLive = true → s.cd.port.pendingReset = true →
    ∀ up, ∃ t, exec (.resetPendingRetry up) s = .next t ∧ t.ao.pendingBit = true ∧ t.cd.port.pendingReset = true ∧
      t.ao.bkp1.extractLsb' 16 16 = satHalf (s.ao.bkp1.extractLsb' 16 16) ∧ t.ao.bkp1.getLsbD 8 = true ∧
      t.now = max s.now (s.cd.port.triedAt + 10000000) ∧ t.ld = s.ld ∧ SameHv s t ∧ SameLinks s t) ∧
  (∀ s : State, s.regsLive = true → s.cd.port.pendingReset = true →
    ∃ t, exec .hostPortResetComplete s = .next t ∧
      t = { s with cd := { s.cd with port := { s.cd.port with
        pendingReset := false, edges := 0, heartbeatAt := s.now } } })

/-- R289, R290, Table 11.7: a block reset fences its block and only that one: an endpoint stops, the bridge fails its
fetching tags, the NVM reads all ones and keeps its data, a lane is OFF, a time link stops; when the block is ready
the fence is released. Forms whose completion this concludes: blockReset, blockReady. -/
def Obligations.BlocksAreFencedAndReadied : Prop :=
  ∀ (b : Block) (s : State),
    (s.regsLive = true → s.fences.contains b = false →
      ∃ t, exec (.blockReset b false) s = .next t ∧ t.fences = b :: s.fences ∧ SameHv s t ∧ t.now = s.now ∧
        t.ao = s.ao ∧
        (∀ d, b = .cdEnd d → (t.lend d.cdLink .first).running = false ∧ (t.lend d.cdLink .first).opened = []) ∧
        (b = .bridge → t.cd.bridgeInReset = true ∧ t.ld = s.ld ∧ SameLinks s t ∧
          ∀ k : Fin 8, t.cd.tags[k.val] = (if (s.cd.tags[k.val]).st = .fetching then
            Tag.hold s.now rcTargetError [] s.cd.tags[k.val] else s.cd.tags[k.val])) ∧
        (b = .nvm → t.cd = { s.cd with nvm := { s.cd.nvm with inReset := true } } ∧
          t.nvmSeen.option = ⟨[]⟩ ∧ t.nvmSeen.bankA = ⟨[]⟩ ∧ t.nvmSeen.bankB = ⟨[]⟩ ∧ t.ld = s.ld ∧ SameLinks s t) ∧
        (∀ p, b = .lane p → (t.lane p).st = .off ∧ (∀ q, q ≠ p → (t.lane q).st = (s.lane q).st)) ∧
        (∀ d, b = .timeLink d → (t.lend d.timeLink .first).running = false ∧ (t.ld.timeLink d).running = false) ∧
        ((∃ x, b = .localLane x) → t.cd = s.cd ∧ SameLinks s t ∧ ∀ p, t.lane p = s.lane p ∧ t.port p = s.port p)) ∧
    (s.fences.contains b = true →
      ∃ t, exec (.blockReady b) s = .next t ∧ t.fences = s.fences.erase b ∧ SameHv s t ∧ t.now = s.now ∧ t.ao = s.ao ∧
        (∀ d, b = .cdEnd d → (t.lend d.cdLink .first).running = true) ∧
        (b = .bridge → t.cd.bridgeInReset = false ∧ ∀ k : Fin 8, (t.cd.tags[k.val]).st = .free) ∧
        (b = .nvm → t.cd = { s.cd with nvm := { s.cd.nvm with inReset := false } }) ∧
        (∀ p, b = .lane p → (t.lane p).st = .detect) ∧
        (∀ d, b = .timeLink d → (t.lend d.timeLink .first).running = true ∧ (t.ld.timeLink d).running = true))

/-- R293 to R297, R303, R383, Table 11.9: a start counts COUNT up to milestone 0x01, or goes to Frost where COUNT is
4; the firmware bank that passes its checks runs at milestone 0x02, and with no such bank COUNT is 4 and the node is
in Frost; a die that does not answer in 1.0 s is not waited for; milestone 0x06 writes COUNT 0. A die in the Frost set
requires its Frost channels, in scene 0. Forms whose completion this concludes: startBegin, firmwareSelect,
startComplete, dieAbsentTimeout, frostSetEntry. -/
def Obligations.StartReachesItsMilestones : Prop :=
  (∀ (a b c : Bool) (s : State), s.startReady = true → s.cd.nvm.inReset = false →
    (counterRead s.cd.nvm.counter).toNat < 4 → s.ao.fuseOk = true →
    ∃ t, exec (.startBegin a b c) s = .next t ∧ t.cd.running = true ∧ t.ao.reset.active = false ∧
      t.cd.milestone = 1 ∧ t.cd.frost = s.cd.frost ∧
      t.cd.nvm.counter = counterWrite (counterRead s.cd.nvm.counter + 1) s.cd.nvm.counter ∧
      t.ao.bkp2 = (s.cd.milestone ++ counterRead s.cd.nvm.counter) ++ (0 : Half) ∧ t.cd.faults.opened = [] ∧
      t.cd.startAt = s.now ∧ SameHv s t ∧ t.now = s.now) ∧
  (∀ (a b c : Bool) (s : State), s.startReady = true → 4 ≤ (counterRead s.cd.nvm.counter).toNat →
    ∃ t, exec (.startBegin a b c) s = .next t ∧ t.cd.running = true ∧ t.cd.frost = true ∧ t.cd.milestone = 0 ∧
      t.cd.nvm.counter = s.cd.nvm.counter ∧ SameHv s t ∧ t.now = s.now) ∧
  (∀ (v : Bool) (s : State), s.regsLive = true → s.cd.frost = false → s.cd.milestone = 1 →
    s.cd.nvm.inReset = false → s.nvmSeen.boot.trial = none → s.nvmSeen.boot.primaryB = v →
    match (if s.imgCheck (s.nvmSeen.bank v) = 0 then some v
      else if s.imgCheck (s.nvmSeen.bank !v) = 0 then some !v else none) with
    | some b =>
      if imgRelease (s.nvmSeen.bank b) = (4, 1) then
        ∃ t, exec .firmwareSelect s = .next t ∧ t.cd.runningBank = some b ∧ t.cd.lastVerified = some b ∧
          2 ≤ t.cd.milestone.toNat ∧ t.cd.frost = false ∧ t.ao = s.ao ∧ SameHv s t ∧ t.now = s.now
      else exec .firmwareSelect s = .fault .outsideManual
    | none =>
      ∃ t, exec .firmwareSelect s = .next t ∧ t.cd.frost = true ∧ t.cd.lastVerified = none ∧
        t.cd.nvm.counter = counterWrite 4 s.cd.nvm.counter ∧ SameHv s t ∧ t.now = s.now) ∧
  (∀ s : State, s.regsLive = true → s.cd.frost = false → s.cd.milestone = 1 → s.cd.nvm.inReset = false →
    s.nvmSeen.boot.trial = none → s.imgCheck s.nvmSeen.bankA ≠ 0 → s.imgCheck s.nvmSeen.bankB ≠ 0 →
    ∃ t, exec .firmwareSelect s = .next t ∧ t.cd.frost = true ∧ t.cd.lastVerified = none ∧
      t.cd.nvm.counter = counterWrite 4 s.cd.nvm.counter ∧ SameHv s t ∧ t.now = s.now) ∧
  (∀ s : State, s.regsLive = true → s.cd.frost = false → s.cd.milestone = 5 → s.cd.resetDue = none →
    s.cd.nvm.inReset = false →
    ∃ t, exec (.startComplete true) s = .next t ∧ t.cd.milestone = 6 ∧ t.cd.stone6At = s.now ∧
      t.cd.nvm.counter = counterWrite 0 s.cd.nvm.counter ∧ t.ld = s.ld ∧ SameHv s t ∧ SameLinks s t ∧ t.now = s.now) ∧
  (∀ (d : HvDie) (s : State), s.regsLive = true → s.cd.frost = false → 1 ≤ s.cd.milestone.toNat →
    s.cd.milestone.toNat ≤ 4 → (s.lend d.cdLink .first).lost = true → s.cd.absentDies &&& hvBit d = 0 →
    ∃ t, exec (.dieAbsentTimeout d) s = .next t ∧ t.cd.absentDies = s.cd.absentDies ||| hvBit d ∧
      t.now = max s.now (s.cd.startAt + 1000000000) ∧ t.ld = s.ld ∧ t.ao = s.ao ∧ SameHv s t ∧ SameLinks s t) ∧
  (∀ (d : Die) (s : State), (s.die d).powered = true → (s.die d).cd.frostDue = true →
    ∃ t, exec (.frostSetEntry d) s = .next t ∧ (t.die d).cd.frost = true ∧ (t.die d).cd.fallback = false ∧
      (t.die d).reqLit = (s.die d).frostMask ∧ (t.die d).scene = 0 ∧ (t.die d).map = (s.die d).map ∧
      (t.die d).grant = (s.die d).grant ∧ t.die d.other = s.die d.other ∧ t.ref = s.ref ∧ SameLogic s t ∧ t.now = s.now)

/-! ### The host port, the bridge and the registers (chapter 12) -/

/-- R310 to R316, R318, R320, Tables 12.3 to 12.7: a frame in a state in which frames are executed is answered by its
form, and PREV and HP_LAST hold its end. A NOP is answered OK; a READ of mapped words gives their bytes; a WRITE that
is allowed is applied and one that is not changes nothing; a wrong request CRC or a reserved CMD executes nothing;
while STARTING the island answers 0x8E to everything. Forms whose completion this concludes: nop, read, write,
reservedCmdFrame. -/
def Obligations.HostFramesAreAnsweredAndApplied : Prop :=
  ∀ (f : HostFrame) (s : State), s.ld.power ≠ .calm → s.regsLive = true → s.cd.port.pendingReset = false →
    s.cd.lastWord = false → s.cd.frost = false → s.cd.port.absent = false →
    (exactLength cmdNop f = true → requestOk cmdNop f = true →
      ∃ t, exec (.nop f) s = .next t ∧ t.wire = .miso (s.statusByte :: zeros 9) :: s.wire ∧
        t.cd = { s.cd with port := { s.cd.port with
          heartbeatAt := s.now, lastCmd := 0, lastRcode := 0, prev := 0, lastApplied := true } } ∧
        t.ao = s.ao ∧ t.ld = s.ld ∧ SameHv s t ∧ SameLinks s t ∧ t.now = s.now) ∧
    (exactLength cmdRead f = true → requestOk cmdRead f = true → s.targetOf f.target f.unit = .here → s.mapped f.address.toNat (frameWords f) = true →
      ∃ t, exec (.read f) s = .next t ∧
        t.wire = .miso (s.misoOf cmdRead f 0 (s.readWords f.address.toNat (frameWords f))) :: s.wire ∧
        t.cd = { s.cd with port := { s.cd.port with
          heartbeatAt := s.now, lastCmd := 1, lastRcode := 0, prev := 0, lastApplied := true } } ∧
        t.ao = s.ao ∧ t.ld = s.ld ∧ SameHv s t ∧ SameLinks s t ∧ t.now = s.now) ∧
    (exactLength cmdWrite f = true → requestOk cmdWrite f = true → requestData cmdWrite f ≤ f.data.length → s.targetOf f.target f.unit = .here →
      (s.writeRefused .host f.address.toNat (frameWords f) = none →
        ∃ t, exec (.write f) s = .next t ∧ t.cd.port.lastRcode = 0 ∧ t.cd.port.prev = 0 ∧
          (f.address = 0x6C → frameWords f = 1 → t.ao = { s.ao with bkp3 := word f.data 0 } ∧ t.ld = s.ld) ∧
          SameHv s t ∧ t.now = s.now) ∧
      (∀ r, s.writeRefused .host f.address.toNat (frameWords f) = some r →
        ∃ t, exec (.write f) s = .next t ∧ t.cd.port.lastRcode = r ∧ t.cd.port.prev = 2 ∧ t.cd.slots = s.cd.slots ∧
          t.ao = s.ao ∧ t.ld = s.ld ∧ SameHv s t ∧ SameLinks s t ∧ t.now = s.now)) ∧
    (exactLength cmdRead f = true → requestOk cmdRead f = false →
      ∃ t, exec (.read f) s = .next t ∧ t.wire = .miso (s.misoOf cmdRead f rcCrcError []) :: s.wire ∧
        t.cd = { s.cd with port := { s.cd.port with
          lastCmd := 1, lastRcode := 0x0C, prev := 3, lastApplied := false } } ∧
        t.ao = s.ao ∧ t.ld = s.ld ∧ SameHv s t ∧ t.now = s.now) ∧
    (∀ cmd : Byte, 3 < cmd.toNat → exactLength cmd f = true →
      ∃ t, exec (.reservedCmdFrame cmd f) s = .next t ∧ t.wire = .miso [s.statusByte, 0] :: s.wire ∧
        t.cd = { s.cd with port := { s.cd.port with
          lastCmd := cmd, lastRcode := 0x0B, prev := 2, lastApplied := false } } ∧
        t.ao = s.ao ∧ t.ld = s.ld ∧ SameHv s t ∧ t.now = s.now)

/-- R313, R328: a LOCKED_RMW of one word reads it, writes (old AND NOT MASK) OR (DATA AND MASK) and answers the old
word, in one step; with WORDS other than 0 it is BAD_COMMAND. One with a far target is LOCK_REJECTED and has no
effect, and a far WRITE to this node's own dies is NOT_PERMITTED; both at once, with no tag. Forms whose completion
this concludes: lockedRmw, farWrite. -/
def Obligations.LockedAccessIsLocalAndWhole : Prop :=
  ∀ (f : HostFrame) (s : State), s.ld.power ≠ .calm → s.regsLive = true → s.cd.port.pendingReset = false →
    s.cd.lastWord = false → s.cd.frost = false → s.cd.port.absent = false →
    (∀ old v : Word, exactLength cmdRmw f = true → requestOk cmdRmw f = true → 8 ≤ f.data.length → f.words = 0 →
      s.targetOf f.target f.unit = .here → s.writeRefused .host f.address.toNat 1 = none → s.cd.fullReset = none →
      old = word (s.readWords f.address.toNat 1) 0 → v = (old &&& ~~~word f.data 0) ||| (word f.data 4 &&& word f.data 0) →
      ∃ t, exec (.lockedRmw f) s = .next t ∧ t.wire = .miso (s.misoOf cmdRmw f 0 (be32 old)) :: s.wire ∧
        t.cd.port.lastApplied = true ∧ t.ao = (s.writeWord .host f.address.toNat v).ao ∧
        t.cd.slots = (s.writeWord .host f.address.toNat v).cd.slots ∧
        t.cd.order = (s.writeWord .host f.address.toNat v).cd.order ∧
        t.cd.port.events = (s.writeWord .host f.address.toNat v).cd.port.events ∧
        t.cd.port.mask = (s.writeWord .host f.address.toNat v).cd.port.mask ∧ t.ld = s.ld ∧ SameHv s t ∧
        SameLinks s t ∧ t.now = s.now) ∧
    (requestOk cmdRmw f = true → 8 ≤ f.data.length → f.words ≠ 0 → exactLength cmdRmw f = true →
      ∃ t, exec (.lockedRmw f) s = .next t ∧ t.wire = .miso (s.misoOf cmdRmw f 0x0B []) :: s.wire ∧
        t.cd.port.lastRcode = 0x0B ∧ t.cd.port.prev = 2 ∧ t.ao = s.ao ∧ t.cd.slots = s.cd.slots ∧
        t.cd.tags = s.cd.tags ∧ t.ld = s.ld ∧ SameHv s t ∧ SameLinks s t) ∧
    (requestOk cmdRmw f = true → 8 ≤ f.data.length → f.words = 0 → exactLength cmdRmw f = true →
      (∃ p u, s.targetOf f.target f.unit = .far p u) ∨ (∃ d, s.targetOf f.target f.unit = .own d) →
      ∃ t, exec (.lockedRmw f) s = .next t ∧ t.wire = .miso (s.misoOf cmdRmw f 0x08 []) :: s.wire ∧
        t.cd.port.lastRcode = 0x08 ∧ t.cd.port.prev = 2 ∧ t.ao = s.ao ∧ t.cd.slots = s.cd.slots ∧
        t.cd.tags = s.cd.tags ∧ t.ld = s.ld ∧ SameHv s t ∧ SameLinks s t) ∧
    (∀ d, requestOk cmdWrite f = true → requestData cmdWrite f ≤ f.data.length → exactLength cmdWrite f = true →
      s.targetOf f.target f.unit = .own d → f.address.toNat % 4 = 0 →
      ∃ t, exec (.farWrite f) s = .next t ∧ t.wire = .miso (s.misoOf cmdWrite f 0x05 []) :: s.wire ∧
        t.cd.port.lastRcode = 0x05 ∧ t.cd.port.prev = 2 ∧ t.ao = s.ao ∧ t.cd.slots = s.cd.slots ∧
        t.cd.tags = s.cd.tags ∧ t.ld = s.ld ∧ SameHv s t ∧ SameLinks s t)

/-- R322 to R328, Table 12.9: a far READ or WRITE that has no tag takes the lowest free one and is answered RETRY; one
whose tag is HELD is answered from it and frees it; with no free tag it is BUSY and counted; R330: one to a ghost has
NO_ROUTE. Forms whose completion this concludes: farRead, farWrite. -/
def Obligations.FarFramesUseTags : Prop :=
  ∀ (f : HostFrame) (p : Position) (unit : Byte) (s : State), s.ld.power ≠ .calm → s.regsLive = true →
    s.cd.port.pendingReset = false → s.cd.lastWord = false → s.cd.frost = false → s.cd.port.absent = false →
    s.targetOf f.target f.unit = .far p unit → f.address.toNat % 4 = 0 →
    ∀ (i : Instr) (cmd : Byte), i = .farRead f ∧ cmd = cmdRead ∨ i = .farWrite f ∧ cmd = cmdWrite →
      exactLength cmd f = true → requestOk cmd f = true → requestData cmd f ≤ f.data.length →
      (s.unroutable p = true →
        ∃ t, exec i s = .next t ∧ t.cd.port.lastRcode = 9 ∧ t.cd.tags = s.cd.tags ∧ t.ld = s.ld ∧ SameHv s t) ∧
      (s.unroutable p = false → s.cd.bridgeInReset = false → s.cd.tagFor cmd f = none →
        (∀ k, s.cd.freeTag = some k →
          ∃ t, exec i s = .next t ∧ t.cd.port.lastRcode = 1 ∧ t.cd.port.prev = 1 ∧
            t.cd.tags = s.cd.tags.set k.val ⟨.fetching, cmd, f, decide (cmd = cmdWrite), s.now, 0, [], []⟩ ∧
            SameHv s t ∧ SameLinks s t ∧ t.now = s.now) ∧
        (s.cd.freeTag = none →
          ∃ t, exec i s = .next t ∧ t.cd.port.lastRcode = 2 ∧ t.cd.bridgeBusy = satByte s.cd.bridgeBusy ∧
            t.cd.tags = s.cd.tags ∧ t.ld = s.ld ∧ SameHv s t)) ∧
      (∀ k, s.unroutable p = false → s.cd.tagFor cmd f = some k → (s.cd.tags[k.val]).st = .held →
        ∃ t, exec i s = .next t ∧ t.cd.port.lastRcode = (s.cd.tags[k.val]).rcode ∧
          t.wire = .miso (s.misoOf cmd f (s.cd.tags[k.val]).rcode (s.cd.tags[k.val]).data) :: s.wire ∧
          t.cd.tags = s.cd.tags.set k.val .free ∧ t.ld = s.ld ∧ SameHv s t ∧ SameLinks s t)

/-- R321, R327, R329, Table 12.9: a FETCHING tag times out after 2.0 ms and a HELD one expires after 10 ms, each
counted; a MGMT response fills the tag it answers and any other is counted late; a MGMT request served from the queue
is answered to its sender; a host silent for 100 ms is absent. Forms whose completion this concludes:
mgmtResponseReceived, tagTimeout, tagHoldExpiry, mgmtRequestServe, hostAbsent. -/
def Obligations.TagsResponsesAndHeartbeatInTime : Prop :=
  (∀ (k : Fin 8) (s : State), (s.cd.tags[k.val]).st = .fetching →
    ∃ t, exec (.tagTimeout k) s = .next t ∧ (t.cd.tags[k.val]).st = .held ∧ (t.cd.tags[k.val]).rcode = 3 ∧
      (∀ j : Fin 8, j ≠ k → t.cd.tags[j.val] = s.cd.tags[j.val]) ∧
      t.cd.bridgeTimeouts = satByte s.cd.bridgeTimeouts ∧ t.now = max s.now ((s.cd.tags[k.val]).at_ + 2000000) ∧
      t.ld = s.ld ∧ t.ao = s.ao ∧ SameHv s t ∧ SameLinks s t) ∧
  (∀ (k : Fin 8) (s : State), (s.cd.tags[k.val]).st = .held →
    ∃ t, exec (.tagHoldExpiry k) s = .next t ∧
      t.cd = { s.cd with tags := s.cd.tags.set k.val .free, bridgeExpired := satByte s.cd.bridgeExpired } ∧
      t.now = max s.now ((s.cd.tags[k.val]).at_ + 10000000) ∧ t.ld = s.ld ∧ t.ao = s.ao ∧ SameHv s t ∧ SameLinks s t) ∧
  (∀ (p : Port) (h : LineHdr) (m : MgmtP) (k : Fin 8) (s : State), m.tag.toNat = k.val → s.carries p = true →
    h.epoch = s.epoch → s.position ≠ 0 → h.dst = s.position → (s.port p).rx.inCut = none → s.regsLive = true →
    s.cd.bridgeInReset = false →
    ∃ t, exec (.mgmtResponseReceived p h m true) s = .next t ∧
      ((s.cd.tags[k.val]).answeredBy h.src m = true →
        (t.cd.tags[k.val]) = Tag.hold s.now (rcodeOfResult m.result) m.data (s.cd.tags[k.val]) ∧
        t.cd.bridgeLate = s.cd.bridgeLate) ∧
      ((s.cd.tags[k.val]).answeredBy h.src m = false →
        t.cd = { s.cd with bridgeLate := satByte s.cd.bridgeLate }) ∧
      SameHv s t ∧ SameLinks s t ∧ t.ao = s.ao ∧ t.now = s.now) ∧
  (∀ (p q : Port) (h : LineHdr) (m : MgmtP) (r : List (Port × LineHdr × MgmtP)) (s : State),
    s.ld.mgmtQueue = (p, h, m) :: r → s.regsLive = true → s.ldRuns = true → s.cd.responding = none →
    s.cd.frost = false → m.op = 1 → mgmtFormOk m = true → m.target = 0 →
    s.mapped m.address.toNat (m.count.toNat / 4) = true → s.route h.src = some q →
    ∃ t, exec .mgmtRequestServe s = .next t ∧ t.ld.mgmtQueue = r ∧
      (∃ g, (t.port q).localMgmt = (s.port q).localMgmt ++ [g] ∧ g.hdr.dst = h.src ∧
        g.body = .mgmt { m with
          op := 0x81, result := 0,
          data := fit (s.readWords m.address.toNat (m.count.toNat / 4)) m.count.toNat }) ∧
      t.cd = s.cd ∧ t.ao = s.ao ∧ SameHv s t ∧ SameLinks s t ∧ t.now = s.now) ∧
  (∀ s : State, s.regsLive = true → s.cd.port.pendingReset = false → s.cd.lastWord = false → s.cd.port.absent = false →
    ∃ t, exec .hostAbsent s = .next t ∧ t.cd.port.absent = true ∧
      t.now = max s.now (s.cd.port.heartbeatAt + 100000000) ∧ t.ld.seqBeacon = s.ld.seqBeacon + 1 ∧ t.ao = s.ao ∧
      SameHv s t ∧ SameLinks s t)

/-- R318, R337: ATTN_ACK clears event code k where bit k is 1, and nothing else. A write to MBX_CTRL submits a FILLING
slot of the writer and frees a FILLING or DONE slot of the writer; a slot whose two bits are equal, and every other
slot, stays as it was. Forms whose completion this concludes: attnAck, registerWrite. -/
def Obligations.AttentionAndMailboxControlActAsWritten : Prop :=
  ∀ s : State, s.regsLive = true →
    (∀ v : Word, ∃ t, exec (.attnAck v) s = .next t ∧
      (∀ k : Fin 16, t.cd.port.events.getLsbD k.val =
        (s.cd.port.events.getLsbD k.val && !(v.getLsbD k.val && decide (4 ≤ k.val ∧ k.val ≤ 10)))) ∧
      t = { s with cd := { s.cd with port := { s.cd.port with events := t.cd.port.events } } }) ∧
    (∀ (w : Writer) (v : Word), (∀ q, w = .far q → s.permits q = true) → s.cd.fullReset = none →
      ∃ t, exec (.registerWrite w 0x80 v) s = .next t ∧
        (∀ n : Fin 4, (s.slot n).owner = some w → v.getLsbD n.val = true → v.getLsbD (4 + n.val) = false →
          (s.slot n).st = .filling → t.slot n = { s.slot n with st := .busy, submitAt := s.now, missed := false }) ∧
        (∀ n : Fin 4, (s.slot n).owner = some w → v.getLsbD n.val = false → v.getLsbD (4 + n.val) = true →
          (s.slot n).st = .filling ∨ (s.slot n).st = .done → (t.slot n).st = .free ∧ (t.slot n).owner = none) ∧
        (∀ n : Fin 4, (s.slot n).owner ≠ some w ∨ v.getLsbD n.val = v.getLsbD (4 + n.val) ∨
            (v.getLsbD n.val = true ∧ (s.slot n).st ≠ .filling) ∨
            ((s.slot n).st ≠ .filling ∧ (s.slot n).st ≠ .done) → t.slot n = s.slot n) ∧
        t.cd = { s.cd with slots := t.cd.slots, order := t.cd.order } ∧ t.ao = s.ao ∧ t.ld = s.ld ∧ SameHv s t ∧
        SameLinks s t ∧ t.now = s.now)

/-- R330, R332, R335 to R337: a permitted write reaches its own register or slot; the first write makes its writer the
owner, SUBMIT gives a FILLING slot of its owner to the node and RELEASE frees it; a write that is not permitted
changes nothing. Forms whose completion this concludes: mbxSubmit, mbxRelease, mbxSlotWrite, registerWrite. -/
def Obligations.RegisterRowsReachTheirRegister : Prop :=
  ∀ s : State, s.regsLive = true →
    (∀ (w : Writer) (n : Fin 4), (s.slot n).owner = some w → (s.slot n).st = .filling →
      (∀ q, w = .far q → s.permits q = true) →
      (∃ t, exec (.mbxSubmit w (1 <<< n.val)) s = .next t ∧
        t.slot n = { s.slot n with st := .busy, submitAt := s.now, missed := false } ∧
        t.cd.order = s.cd.order ++ [n] ∧ SameOtherSlots n s t ∧ t.ao = s.ao ∧ t.ld = s.ld ∧ SameHv s t ∧
        SameLinks s t ∧ t.now = s.now) ∧
      (s.cd.fullReset = none →
        ∃ t, exec (.mbxRelease w (1 <<< n.val)) s = .next t ∧ (t.slot n).st = .free ∧ (t.slot n).owner = none ∧
          t.cd.order = s.cd.order ∧ SameOtherSlots n s t ∧ t.ao = s.ao ∧ t.ld = s.ld ∧ SameHv s t ∧ SameLinks s t ∧
          t.now = s.now)) ∧
    (∀ (w : Writer) (n : Fin 4) (v : List Byte), v.length = 4 → (s.slot n).takes w = true →
      (∀ q, w = .far q → s.permits q = true) →
      ∃ t, exec (.mbxSlotWrite w (BitVec.ofNat 32 (0x1000 + 256 * n.val)) v) s = .next t ∧
        t.slot n = { s.slot n with st := .filling, owner := some w, bytes := (s.slot n).bytes.fill 0 0 v, at_ := s.now } ∧
        SameOtherSlots n s t ∧ t.ao = s.ao ∧ t.ld = s.ld ∧ SameHv s t ∧ SameLinks s t ∧ t.now = s.now) ∧
    (∀ (w : Writer) (v : Word), (∀ q, w = .far q → s.permits q = true) →
      ∃ t, exec (.registerWrite w 0x70 v) s = .next t ∧ t = { s with ao := { s.ao with bkp4 := v } }) ∧
    (∀ (q : Position) (v : Word), s.permits q = false → exec (.registerWrite (.far q) 0x70 v) s = .next s) ∧
    (∀ (w : Writer) (v : Word), exec (.registerWrite w 0x60 v) s = .next s)

/-! ### The mailbox (chapters 13 and 14) -/

/-- R339 to R342, Table 13.3: a request that is served is checked in order: in Frost a command Frost does not accept
is NOT_IN_FROST, then a LEN outside its row is BAD_LENGTH; an OPCODE in neither table is BAD_OPCODE. A refused request
changes nothing but its own slot. R337, R340, Table 13.2: a slot that is FILLING for 100 ms without a write, or DONE
for 1.0 s, is free again, the latter counted; a request not answered within 10 ms of its submission is reported once.
R378: a full reset follows its answer after at most 20 ms. Forms whose completion this concludes: badOpcodeRequest,
slotFillTimeout, slotDoneExpiry, mailboxDeadlineMissed, fullResetTimeout. -/
def Obligations.MailboxRefusesInOrderAndInTime : Prop :=
  ((∀ (i : Instr) (op : Half) (r : MbxRow) (n : Fin 4) (s : State), mbxOpcode i = some op → mbxRow op = some r →
    Serves n op s →
    (s.cd.frost = true → r.frost = false →
      ∃ t, exec i s = .next t ∧ (t.slot n).st = .done ∧ byteAt (t.slot n).resp 6 = 0x04 ∧ OnlyAnswered n s t ∧
        t.ao = s.ao ∧ t.ld = s.ld ∧ SameHv s t ∧ SameLinks s t ∧ t.now = s.now) ∧
    (s.cd.frost = false ∨ r.frost = true → (s.slot n).len < r.lo ∨ r.hi < (s.slot n).len →
      ∃ t, exec i s = .next t ∧ (t.slot n).st = .done ∧ byteAt (t.slot n).resp 6 = 0x02 ∧ OnlyAnswered n s t ∧
        t.ao = s.ao ∧ t.ld = s.ld ∧ SameHv s t ∧ SameLinks s t ∧ t.now = s.now)) ∧
  (∀ (n : Fin 4) (s : State), s.nextSlot = some n → (s.slot n).orphaned = false → mbxRow (s.slot n).opcode = none →
    ∃ t, exec .badOpcodeRequest s = .next t ∧ ResponseIs n (if s.cd.frost then 0x04 else 0x01) [] s t ∧
      OnlyAnswered n s t ∧ t.ao = s.ao ∧ t.ld = s.ld ∧ SameHv s t ∧ SameLinks s t ∧ t.now = s.now)) ∧
  (∀ (n : Fin 4) (s : State),
    ((s.slot n).st = .filling →
      ∃ t, exec (.slotFillTimeout n) s = .next t ∧ (t.slot n).st = .free ∧ (t.slot n).owner = none ∧
        SameOtherSlots n s t ∧ t.now = max s.now ((s.slot n).at_ + 100000000) ∧
        t.cd = { s.cd with slots := t.cd.slots } ∧ t.ao = s.ao ∧ t.ld = s.ld ∧ SameHv s t ∧ SameLinks s t) ∧
    ((s.slot n).st = .done →
      ∃ t, exec (.slotDoneExpiry n) s = .next t ∧ (t.slot n).st = .free ∧ SameOtherSlots n s t ∧
        t.now = max s.now ((s.slot n).at_ + 1000000000) ∧
        t.cd = { s.cd with slots := t.cd.slots, mbxExpiries := satAdd s.cd.mbxExpiries 1 } ∧ t.ao = s.ao ∧ t.ld = s.ld ∧
        SameHv s t ∧ SameLinks s t) ∧
    (s.regsLive = true → s.cd.lastWord = false → (s.slot n).st = .busy → (s.slot n).missed = false →
      s.heldBack (s.slot n).opcode = false →
      ∃ t, exec (.mailboxDeadlineMissed n) s = .next t ∧ t.slot n = { s.slot n with missed := true } ∧
        SameOtherSlots n s t ∧ t.now = max s.now (s.deadlineFrom n + 10000000) ∧ t.ao = s.ao ∧ t.ld = s.ld ∧
        SameHv s t ∧ SameLinks s t) ∧
    (∀ m k, s.cd.fullReset = some (m, k) → s.regsLive = true → s.cd.lastWord = false → s.cd.frost = false →
      ∃ t, exec .fullResetTimeout s = .next t ∧ t.ao.reset.active = true ∧ t.ao.reset.level = s.sourceLevel 4 ∧
        t.ao.reset.source = 4 ∧ t.now = max s.now (k + 20000000) ∧ t.cd.nvm = s.cd.nvm ∧ SameHv s t))

/-- R345 to R347, R357 to R362, R365, R366, R371 to R377, R386: a command that only reads answers RESULT OK with the
bytes its rule names, formed from the state at one instant, and changes nothing but its own slot: LAMP_STATE page 0
without a driver to ask, and LEDGER_READ without a lamp die to ask, among them. Forms whose completion this concludes:
identity, optRead, roleGet, inaugGet, linkGet, permitGet, powerPolicyGet, gpioGet, lampState, counterRead,
eyeScanResult, eyeScanPoints, faultRead, ledgerRead, retainedRead, fwStatus. -/
def Obligations.MailboxReadsAnswerFromState : Prop :=
  (∀ (i : Instr) (op : Half) (ans : List Byte) (n : Fin 4) (s : State), Serves n op s → s.cd.frost = false →
    s.draining = false →
    (s.slot n).len = 0 →
        (i = .identity ∧ op = 0x0001 ∧ ans = s.identityBytes ∨ i = .roleGet ∧ op = 0x0026 ∧ ans = s.roleBytes ∨
          i = .inaugGet ∧ op = 0x0031 ∧ ans = s.inaugBytes ∨ i = .linkGet ∧ op = 0x0041 ∧ ans = s.linkBytes ∨
          i = .permitGet ∧ op = 0x0043 ∧ ans = be64 s.cd.shadow.permit ∨
          i = .powerPolicyGet ∧ op = 0x0051 ∧ ans = s.policyPayload ∨
          i = .gpioGet ∧ op = 0x0061 ∧ ans = fit s.cd.gpio 8 ∨
          i = .eyeScanResult ∧ op = 0x0151 ∧ ans = s.ld.eye.resultBytes ∨
          i = .ledgerRead ∧ op = 0x0170 ∧ ans = s.ledgerBytes ∧ (s.lend .cdLa .first).lost = true ∧
            (s.lend .cdLb .first).lost = true ∨
          i = .fwStatus ∧ op = 0x01A3 ∧ ans = s.fwStatusBytes) →
    ∃ t, exec i s = .next t ∧ ResponseIs n 0 ans s t ∧ OnlyAnswered n s t ∧ t.ao = s.ao ∧ t.ld = s.ld ∧ SameHv s t ∧
      SameLinks s t ∧ SameWrappers s t ∧ t.now = s.now) ∧
  (∀ (i : Instr) (op : Half) (ans : List Byte) (n : Fin 4) (s : State), Serves n op s → s.cd.frost = false →
    s.draining = false →
    ((s.slot n).len = 8 ∧ i = .optRead ∧ op = 0x0010 ∧ spanOk 8192 (s.slot n).payload = true ∧
        ans = fit (s.slot n).payload 8 ++
          s.nvmSeen.option.bytes 0xFF (word (s.slot n).payload 0).toNat (half (s.slot n).payload 4).toNat ∨
      (s.slot n).len = 4 ∧ i = .lampState ∧ op = 0x0100 ∧ byteAt (s.slot n).payload 0 = 0 ∧ s.cd.driver = none ∧
        ans = s.lampPage0 none ∨
      (s.slot n).len = 4 ∧ i = .lampState ∧ op = 0x0100 ∧ 1 ≤ (byteAt (s.slot n).payload 0).toNat ∧
        (byteAt (s.slot n).payload 0).toNat ≤ 7 ∧ ans = s.alarmPage (byteAt (s.slot n).payload 0).toNat ∨
      (s.slot n).len = 4 ∧ i = .counterRead ∧ op = 0x0140 ∧ groupOk (byteAt (s.slot n).payload 0) = true ∧
        bitOf (byteAt (s.slot n).payload 1) 0 = false ∧
        ans = [byteAt (s.slot n).payload 0, 0, 0, 0] ++ (s.groupWords (byteAt (s.slot n).payload 0)).flatMap be32 ∨
      (s.slot n).len = 4 ∧ i = .eyeScanPoints ∧ op = 0x0152 ∧ 1 ≤ (byteAt (s.slot n).payload 2).toNat ∧
        (byteAt (s.slot n).payload 2).toNat ≤ 60 ∧
        (half (s.slot n).payload 0).toNat + (byteAt (s.slot n).payload 2).toNat ≤ s.ld.eye.grid ∧
        ans = fit (s.slot n).payload 4 ++ ((List.range (byteAt (s.slot n).payload 2).toNat).flatMap fun k =>
          be32 (if (half (s.slot n).payload 0).toNat + k < s.ld.eye.measured then
            s.ld.eye.counts.getD ((half (s.slot n).payload 0).toNat + k) 0 else 0)) ∨
      (s.slot n).len = 8 ∧ i = .faultRead ∧ op = 0x0160 ∧ 1 ≤ (byteAt (s.slot n).payload 4).toNat ∧
        (byteAt (s.slot n).payload 4).toNat ≤ 7 ∧ word (s.slot n).payload 0 = 0xFFFFFFFF ∧
        ans = be32 s.nvmSeen.newestSeq ++ [BitVec.ofNat 8 (s.newestRecords (byteAt (s.slot n).payload 4).toNat).length,
          0, 0, 0] ++ (s.newestRecords (byteAt (s.slot n).payload 4).toNat).flatMap (·.2) ∨
      (s.slot n).len = 4 ∧ i = .retainedRead ∧ op = 0x0180 ∧ retainedSpan (s.slot n).payload = true ∧
        ans = fit (s.slot n).payload 4 ++ s.cd.retained.host.bytes 0 (half (s.slot n).payload 0).toNat
          (byteAt (s.slot n).payload 2).toNat) →
    ∃ t, exec i s = .next t ∧ ResponseIs n 0 ans s t ∧ OnlyAnswered n s t ∧ t.ao = s.ao ∧ t.ld = s.ld ∧ SameHv s t ∧
      SameLinks s t ∧ SameWrappers s t ∧ t.now = s.now)

/-- R347: OPT_READ repeats the first 8 bytes of its request and answers COUNT bytes of the option area from OFFSET as
they stand, whether the block is valid or not; a span outside the area or out of step is BAD_FIELD. Forms whose
completion this concludes: optRead. -/
def Obligations.OptReadReturnsTheAreaAsItStands : Prop :=
  ∀ (n : Fin 4) (p : List Byte) (s : State), Serves n 0x0010 s → s.draining = false → s.cd.lastWord = false →
    s.cd.nvm.inReset = false → (s.slot n).payload = p → (s.slot n).len = 8 →
    ((word p 0).toNat % 4 = 0 → (half p 4).toNat % 4 = 0 → 4 ≤ (half p 4).toNat → (half p 4).toNat ≤ 240 →
      (word p 0).toNat + (half p 4).toNat ≤ 8192 →
      ∃ t, exec .optRead s = .next t ∧
        ResponseIs n 0 (fit p 8 ++ s.cd.nvm.option.bytes 0xFF (word p 0).toNat (half p 4).toNat) s t ∧
        OnlyAnswered n s t ∧ t.ao = s.ao ∧ t.ld = s.ld ∧ SameHv s t ∧ SameLinks s t ∧ t.now = s.now) ∧
    ((word p 0).toNat % 4 ≠ 0 ∨ (half p 4).toNat % 4 ≠ 0 ∨ (half p 4).toNat < 4 ∨ 240 < (half p 4).toNat ∨
        8192 < (word p 0).toNat + (half p 4).toNat →
      ∃ t, exec .optRead s = .next t ∧ (t.slot n).st = .done ∧ byteAt (t.slot n).resp 6 = 0x03 ∧ OnlyAnswered n s t ∧
        t.ao = s.ao ∧ t.ld = s.ld ∧ SameHv s t ∧ SameLinks s t ∧ t.now = s.now)

/-- R355, R356, R358 to R362, R370, R371: what a command of configuration or power sets, and that nothing else of the
die it sets changes. INAUG_SET's options stand from the next cycle boundary; a LINK_SET that changes LOCAL_PORT
restarts the local links. Forms whose completion this concludes: sceneSet, lampHost, inaugSet, linkSet, permitSet,
gpioSet, powerSet, counterRead. -/
def Obligations.MailboxSettingsTakeEffect : Prop :=
  ∀ (n : Fin 4) (p : List Byte) (s : State), s.cd.frost = false → s.draining = false → (s.slot n).payload = p →
    (Serves n 0x0024 s → (s.slot n).len = 4 →
      ∃ t, exec .sceneSet s = .next t ∧ ResponseIs n 0 [if s.position = 1 then 1 else 0, 0, 0, 0] s t ∧
        t.ld = (if s.position = 1 then { s.ld with sceneHost := some (byteAt p 0 &&& 1) } else s.ld) ∧
        OnlyAnswered n s t ∧ t.ao = s.ao ∧ SameHv s t ∧ SameLinks s t) ∧
    (Serves n 0x0025 s → (s.slot n).len = 4 → s.ld.engine.switch = none →
      ∃ t, exec .lampHost s = .next t ∧
        t.cd.hostOn = (s.cd.hostOn &&& ~~~((half p 0).extractLsb' 0 12)) |||
          ((half p 2).extractLsb' 0 12 &&& (half p 0).extractLsb' 0 12) ∧
        (t.lend .cdLa .first).txSeq = (s.lend .cdLa .first).txSeq + 1 ∧
        (t.lend .cdLb .first).txSeq = (s.lend .cdLb .first).txSeq + 1 ∧ t.cd.shadow = s.cd.shadow ∧ t.ao = s.ao ∧
        t.ld = s.ld ∧ SameHv s t ∧ SameOtherSlots n s t) ∧
    (Serves n 0x0030 s → (s.slot n).len = 4 →
      ∃ t, exec .inaugSet s = .next t ∧ t.ld.engine.options = byteAt p 0 &&& 0xE0 ∧
        t.cd.shadow = { s.cd.shadow with inaug := byteAt p 0 &&& 0xE0 } ∧
        t.now = max s.now (s.momentOf s.nextBoundary) ∧ SameHv s t ∧ SameOtherSlots n s t ∧ t.ao = s.ao) ∧
    (Serves n 0x0040 s → (s.slot n).len = 4 → localPortOk (p.drop 1) = true →
      ∃ t, exec .linkSet s = .next t ∧
        t.cd.shadow = { s.cd.shadow with lanes := byteAt p 0 &&& 0xF0, localPort := localBytes (p.drop 1) } ∧
        t.ld = { s.ld.limits (byteAt p 0 &&& 0xF0) with
          localCfg := localBytes (p.drop 1), eth := t.ld.eth, twin := t.ld.twin } ∧
        (localBytes (p.drop 1) = s.ld.localCfg → t.ld.eth = s.ld.eth ∧ t.ld.twin = s.ld.twin) ∧
        (localBytes (p.drop 1) ≠ s.ld.localCfg → ∀ x, (t.ld.loc x).due = [] ∧
          (t.ld.loc x).restarts = (s.ld.loc x).restarts + 1) ∧ ResponseIs n 0 [] s t ∧
        SameOtherSlots n s t ∧ t.ao = s.ao ∧ SameHv s t ∧ SameLinks s t) ∧
    (Serves n 0x0042 s → (s.slot n).len = 8 →
      ∃ t, exec .permitSet s = .next t ∧ t.cd.shadow = { s.cd.shadow with permit := long p 0 } ∧ ResponseIs n 0 [] s t ∧
        SameOtherSlots n s t ∧ t.ao = s.ao ∧ t.ld = s.ld ∧ SameHv s t ∧ SameLinks s t) ∧
    (Serves n 0x0060 s → (s.slot n).len = 8 → gpioOk p = true →
      ∃ t, exec .gpioSet s = .next t ∧ t.cd.gpio = pinBytes p ∧ t.cd.shadow = { s.cd.shadow with gpio := pinBytes p } ∧
        ResponseIs n 0 [] s t ∧ SameOtherSlots n s t ∧ t.ao = s.ao ∧ t.ld = s.ld ∧ SameHv s t ∧ SameLinks s t) ∧
    (Serves n 0x0130 s → (s.slot n).len = 4 → (byteAt p 0).toNat ≤ 2 →
      ∃ t, exec .powerSet s = .next t ∧
        (s.position = 1 → ResponseIs n 0 [1, 0, 0, 0] s t ∧
          t.ld = { s.ld with ownTarget := some (targetPower (byteAt p 0)), ownAt := s.nextBoundary }) ∧
        (s.position ≠ 1 → s.position ≠ 0 → ResponseIs n 0 (zeros 4) s t ∧ t.ld = s.ld) ∧
        (s.position = 0 → s.ld.power = .active ∨ s.ld.power = .lull → ResponseIs n 0 [2, 0, 0, 0] s t ∧
          t.ld = { s.ld with ownTarget := some (targetPower (byteAt p 0)), ownAt := s.nextBoundary }) ∧
        (s.position = 0 → s.ld.power ≠ .active → s.ld.power ≠ .lull → ResponseIs n 5 (zeros 4) s t ∧ t.ld = s.ld) ∧
        OnlyAnswered n s t ∧ t.ao = s.ao ∧ SameHv s t ∧ SameLinks s t) ∧
    (∀ q : Port, Serves n 0x0140 s → (s.slot n).len = 4 → byteAt p 0 = q.code → bitOf (byteAt p 1) 0 = true →
      ∃ t, exec .counterRead s = .next t ∧
        ResponseIs n 0 ([q.code, 1, 0, 0] ++ (s.groupWords q.code).flatMap be32) s t ∧
        (t.port q).counters = .zero ∧ (∀ x, x ≠ q → t.port x = s.port x) ∧ (∀ x, t.lane x = s.lane x) ∧
        OnlyAnswered n s t ∧ t.ao = s.ao ∧ SameHv s t ∧ SameLinks s t)

/-- R347 to R350, R372, R377, R378: the option block is staged by its owner and replaces the block in NVM only when it
passes every check; an erase leaves an empty block; an eye scan begins on an UP lane; retained data are written where
they were named; a full reset is answered first. Forms whose completion this concludes: optBegin, optStage, optCommit,
optErase, eyeScanStart, retainedWrite, fullReset. -/
def Obligations.StagedDataAndResetRequests : Prop :=
  ∀ (n : Fin 4) (p : List Byte) (s : State), s.cd.frost = false → s.draining = false → (s.slot n).payload = p →
    (Serves n 0x0011 s → (s.slot n).len = 0 →
      ∃ t, exec .optBegin s = .next t ∧ t.cd.staging = some (.blank, s.slotOwner n) ∧ ResponseIs n 0 [] s t ∧
        t.cd.nvm = s.cd.nvm ∧ SameOtherSlots n s t ∧ t.ao = s.ao ∧ t.ld = s.ld ∧ SameHv s t ∧ SameLinks s t) ∧
    (∀ m, Serves n 0x0012 s → p.length = (s.slot n).len → 12 ≤ p.length → spanOk 8192 p = true →
      (half p 4).toNat + 8 = p.length →
      s.staged n = some m →
      ∃ t, exec .optStage s = .next t ∧
        t.cd.staging = some (m.fill 0xFF (word p 0).toNat (p.drop 8), s.slotOwner n) ∧ ResponseIs n 0 [] s t ∧
        t.cd.nvm = s.cd.nvm ∧ SameOtherSlots n s t ∧ t.ao = s.ao ∧ t.ld = s.ld ∧ SameHv s t ∧ SameLinks s t) ∧
    (∀ m, Serves n 0x0013 s → (s.slot n).len = 0 → s.staged n = some m → s.cd.nvm.inReset = false →
      match s.commitCheck (optBytes m) with
      | none =>
        ∃ t, exec (.optCommit true) s = .next t ∧ t.cd.nvm.option = optImage (optBytes m) ∧ t.cd.staging = none ∧
          (t.slot n).st = .done ∧ byteAt (t.slot n).resp 6 = 0 ∧ t.cd.nvm.bankA = s.cd.nvm.bankA ∧
          t.cd.nvm.bankB = s.cd.nvm.bankB ∧ SameOtherSlots n s t ∧ t.ao = s.ao ∧ t.ld = s.ld ∧ SameHv s t
      | some (c, k) =>
        ∃ t, exec (.optCommit true) s = .next t ∧ ResponseIs n 9 (s.commitBytes c k) s t ∧ t.cd.nvm = s.cd.nvm ∧
          t.cd.staging = none ∧ SameOtherSlots n s t ∧ t.ao = s.ao ∧ t.ld = s.ld ∧ SameHv s t) ∧
    (Serves n 0x0014 s → (s.slot n).len = 4 → word p 0 = 0xE5A50B0C → s.cd.nvm.inReset = false →
      ∃ t, exec (.optErase true) s = .next t ∧ t.cd.nvm.option = .blank ∧ ResponseIs n 0 [] s t ∧
        SameOtherSlots n s t ∧ t.ao = s.ao ∧ t.ld = s.ld ∧ SameHv s t ∧ SameLinks s t) ∧
    (∀ q : Port, Serves n 0x0150 s → (s.slot n).len = 4 → byteAt p 0 = q.code → (byteAt p 1).toNat ≤ 2 →
      4 ≤ (byteAt p 2).toNat → (byteAt p 2).toNat ≤ 6 → s.laneUp q = true → s.ld.eye.st ≠ 1 →
      ∃ t, exec .eyeScanStart s = .next t ∧
        t.ld = { s.ld with eye := ⟨1, q, (s.lane q).nrz, (byteAt p 1).toNat, (byteAt p 2).toNat, [], 0⟩ } ∧
        ResponseIs n 0 (be32 (BitVec.ofNat 32 (scanBoundMs (s.lane q).nrz (byteAt p 1).toNat))) s t ∧
        OnlyAnswered n s t ∧ t.ao = s.ao ∧ SameHv s t ∧ SameLinks s t) ∧
    (Serves n 0x0181 s → p.length = (s.slot n).len → 8 ≤ p.length → p.length ≤ 244 → retainedSpan p = true →
      p.length = 4 + (byteAt p 2).toNat →
      ∃ t, exec .retainedWrite s = .next t ∧
        t.cd.retained = { s.cd.retained with host := s.cd.retained.host.fill 0 (half p 0).toNat (p.drop 4) } ∧
        ResponseIs n 0 [] s t ∧ t.cd.nvm = s.cd.nvm ∧ SameOtherSlots n s t ∧ t.ao = s.ao ∧ t.ld = s.ld ∧ SameHv s t ∧
        SameLinks s t) ∧
    (Serves n 0x0190 s → (s.slot n).len = 4 → word p 0 = 0xB856F0F0 →
      ∃ t, exec .fullReset s = .next t ∧ t.cd.fullReset = some (n, s.now) ∧ ResponseIs n 0 [] s t ∧
        t.cd.nvm = s.cd.nvm ∧ SameOtherSlots n s t ∧ t.ao = s.ao ∧ t.ld = s.ld ∧ SameHv s t ∧ SameLinks s t)

/-- R353, R354, R361, R365, R367 to R369, R376, R428: a command for dies goes out on the links that stand, with the
COMMAND its rule names, and the request waits for the answers; where no die can be reached it is answered DIE_ABSENT.
Forms whose completion this concludes: mapSet, mapGet, slotSet, slotGet, powerPolicySet, lampState, burst,
redundSwitch, killTest, killRelease, pathClear, redundStatus, ledgerRead. -/
def Obligations.MailboxAsksTheDies : Prop :=
  (∀ (i : Instr) (op : Half) (cmd : List Byte) (n : Fin 4) (p : List Byte) (s : State), Serves n op s →
    s.cd.frost = false → s.draining = false → (s.slot n).payload = p →
    (i = .mapSet ∧ op = 0x0020 ∧ (s.slot n).len = 24 ∧ (byteAt p 0).toNat ≤ 11 ∧ s.effectOk (word p 4) = true ∧
        entryOk (mapSetEntry p) = true ∧ cmd = cmdMapWrite (byteAt p 0).toNat (word p 4) (mapSetEntry p) ∨
      i = .mapGet ∧ op = 0x0021 ∧ (s.slot n).len = 4 ∧ (byteAt p 0).toNat ≤ 11 ∧
        cmd = cmdMapRead (byteAt p 0).toNat ∨
      i = .slotSet ∧ op = 0x0022 ∧ (s.slot n).len = 24 ∧ 1 ≤ (byteAt p 0).toNat ∧ (byteAt p 0).toNat ≤ 15 ∧
        s.effectOk (word p 4) = true ∧ slotOk (byteAt p 1).toNat (stepsOf p 8) = true ∧
        cmd = cmdSlotWrite (byteAt p 0).toNat (word p 4) (slotSetSlot p) ∨
      i = .slotGet ∧ op = 0x0023 ∧ (s.slot n).len = 4 ∧ (byteAt p 0).toNat ≤ 15 ∧
        cmd = cmdSlotRead (byteAt p 0).toNat ∨
      i = .powerPolicySet ∧ op = 0x0050 ∧ (s.slot n).len = 52 ∧ applyBits p = 4 ∧ (policyOf (p.drop 4)).ok = true ∧
        cmd = cmdRegWrite 0x40 (policyBytes (policyOf (p.drop 4)))) →
    ((s.lend .cdLa .first).lost = false → (s.lend .cdLb .first).lost = false →
      ∃ t, exec i s = .next t ∧
        t.wire = .link .cdLb .first ((s.lend .cdLb .first).txSeq + 1) (.command cmd) ::
          .link .cdLa .first ((s.lend .cdLa .first).txSeq + 1) (.command cmd) :: s.wire ∧
        t.cd = { s.cd with serving := some ⟨n, op, none, none, some [], p⟩ } ∧ t.ao = s.ao ∧ t.ld = s.ld ∧ SameHv s t ∧
        t.now = s.now) ∧
    ((s.lend .cdLa .first).lost = true → (s.lend .cdLb .first).lost = true →
      ∃ t, exec i s = .next t ∧ (t.slot n).st = .done ∧ byteAt (t.slot n).resp 6 = 0x08 ∧ OnlyAnswered n s t ∧
        t.wire = s.wire ∧ t.ao = s.ao ∧ t.ld = s.ld ∧ SameHv s t ∧ SameLinks s t)) ∧
  (∀ (i : Instr) (op : Half) (cmd : List Byte) (n : Fin 4) (p : List Byte) (s : State), Serves n op s →
    s.cd.frost = false → s.draining = false → (s.slot n).payload = p →
    (i = .redundSwitch ∧ op = 0x0120 ∧ (s.slot n).len = 4 ∧ (byteAt p 0).toNat ≤ 1 ∧ cmd = cmdDie 0x52 (byteAt p 0) ∨
      i = .killTest ∧ op = 0x0121 ∧ (s.slot n).len = 4 ∧ (byteAt p 0).toNat ≤ 1 ∧ cmd = cmdDie 0x54 (byteAt p 0) ∨
      i = .killRelease ∧ op = 0x0122 ∧ (s.slot n).len = 4 ∧ (byteAt p 0).toNat ≤ 1 ∧ cmd = cmdDie 0x53 (byteAt p 0) ∨
      i = .pathClear ∧ op = 0x0123 ∧ (s.slot n).len = 4 ∧ (byteAt p 0).toNat ≤ 1 ∧
        cmd = cmdPathClear (byteAt p 0) ((half p 2).extractLsb' 0 12) ∨
      i = .redundStatus ∧ op = 0x0124 ∧ (s.slot n).len = 0 ∧ cmd = cmdRefStatus) →
    ((s.lend .cdRef .first).lost = false →
      ∃ t, exec i s = .next t ∧
        t.wire = .link .cdRef .first ((s.lend .cdRef .first).txSeq + 1) (.command cmd) :: s.wire ∧
        t.cd = { s.cd with serving := some ⟨n, op, some [], some [], none, p⟩ } ∧ t.ao = s.ao ∧ t.ld = s.ld ∧
        SameHv s t ∧ t.now = s.now) ∧
    ((s.lend .cdRef .first).lost = true →
      ∃ t, exec i s = .next t ∧ (t.slot n).st = .done ∧ byteAt (t.slot n).resp 6 = 0x08 ∧ OnlyAnswered n s t ∧
        t.wire = s.wire ∧ t.ao = s.ao ∧ t.ld = s.ld ∧ SameHv s t ∧ SameLinks s t)) ∧
  (∀ (n : Fin 4) (p : List Byte) (d : Die) (s : State), Serves n 0x0110 s → s.cd.frost = false → s.draining = false →
    (s.slot n).payload = p → (s.slot n).len = 8 → 1 ≤ (byteAt p 0).toNat → (byteAt p 0).toNat ≤ 15 →
    4 ≤ (word p 4).toNat → (word p 4).toNat ≤ 80000 → s.position ≠ 0 → s.cd.driver = some d → s.burstMask ≠ 0 →
    (s.lend d.cdLink .first).lost = false →
    ∃ t, exec .burst s = .next t ∧
      t.wire = .link d.cdLink .first ((s.lend d.cdLink .first).txSeq + 1)
        (.command (cmdBurst ((byteAt p 0).extractLsb' 0 4) (s.burstCycleAt (word p 4)) s.burstMask)) :: s.wire ∧
      t.ld.seqLampSync = s.ld.seqLampSync + 1 ∧ t.cd.serving.isSome = true ∧ t.slot n = s.slot n ∧ t.ao = s.ao ∧
      SameHv s t ∧ t.now = s.now) ∧
  (∀ (n : Fin 4) (p : List Byte) (d : Die) (s : State), Serves n 0x0100 s → s.cd.frost = false → s.draining = false →
    (s.slot n).payload = p → (s.slot n).len = 4 → byteAt p 0 = 0 → s.cd.driver = some d → (s.lend d.cdLink .first).lost = false →
    ∃ t, exec .lampState s = .next t ∧
      t.wire = .link d.cdLink .first ((s.lend d.cdLink .first).txSeq + 1) (.command (cmdRegRead 16 0x04)) :: s.wire ∧
      (∃ v, t.cd = { s.cd with serving := some v } ∧ v.slot = n ∧ v.info = fit p 4 ++ [d.code]) ∧ t.ao = s.ao ∧
      t.ld = s.ld ∧ SameHv s t ∧ t.now = s.now) ∧
  (∀ (n : Fin 4) (s : State), Serves n 0x0170 s → s.cd.frost = false → s.draining = false → (s.slot n).len = 0 →
    (s.lend .cdLa .first).lost = false → (s.lend .cdLb .first).lost = false →
    ∃ t, exec .ledgerRead s = .next t ∧
      t.wire = .link .cdLb .first ((s.lend .cdLb .first).txSeq + 1) (.command cmdFinalRead) ::
        .link .cdLa .first ((s.lend .cdLa .first).txSeq + 1) (.command cmdFinalRead) :: s.wire ∧
      (∃ v, t.cd = { s.cd with serving := some v } ∧ v.slot = n) ∧ t.ao = s.ao ∧ t.ld = s.ld ∧ SameHv s t ∧
      t.now = s.now)

/-- R383, R385 to R387: a load begins with the named bank erased, which must not be the running one; its owner
programs erased words; a check that passes makes the image VERIFIED and only then can it be made the trial of the next
start. Forms whose completion this concludes: fwBegin, fwWrite, fwVerify, fwVerifyDone, fwActivate. -/
def Obligations.FirmwareLoadsIntoTheOtherBank : Prop :=
  ∀ (n : Fin 4) (p : List Byte) (s : State), s.cd.frost = false → s.draining = false → (s.slot n).payload = p →
    s.cd.nvm.inReset = false →
    (Serves n 0x01A0 s → (s.slot n).len = 4 → (byteAt p 0).toNat ≤ 1 →
      (s.cd.runningBank ≠ some (fwLoadBank p) →
        ∃ t, exec .fwBegin s = .next t ∧ t.cd.nvm.bank (fwLoadBank p) = .blank ∧
          t.cd.nvm.bank (!fwLoadBank p) = s.cd.nvm.bank (!fwLoadBank p) ∧ t.cd.nvm.option = s.cd.nvm.option ∧
          t.cd.fw = ⟨.loading, fwLoadBank p, 0xFF, some (s.slotOwner n), 0, none⟩ ∧ ResponseIs n 0 [] s t ∧
          SameOtherSlots n s t ∧ t.ao = s.ao ∧ t.ld = s.ld ∧ SameHv s t) ∧
      (s.cd.runningBank = some (fwLoadBank p) →
        ∃ t, exec .fwBegin s = .next t ∧ ResponseIs n 5 [] s t ∧ OnlyAnswered n s t ∧ SameHv s t)) ∧
    (Serves n 0x01A1 s → p.length = (s.slot n).len → 12 ≤ p.length → p.length = 8 + (half p 4).toNat →
      fwSpan p = true → s.fwOwned n = true → s.cd.fw.st = .loading →
      readsBack (s.cd.nvm.bank s.cd.fw.bankB) (word p 0).toNat (p.drop 8) = true →
      ∃ t, exec .fwWrite s = .next t ∧
        t.cd.nvm.bank s.cd.fw.bankB = s.programBank (s.cd.nvm.bank s.cd.fw.bankB) (word p 0).toNat (p.drop 8) ∧
        t.cd.nvm.bank (!s.cd.fw.bankB) = s.cd.nvm.bank (!s.cd.fw.bankB) ∧
        t.cd.fw = { s.cd.fw with written := s.cd.fw.written + BitVec.ofNat 32 (p.drop 8).length } ∧
        ResponseIs n 0 [] s t ∧ SameOtherSlots n s t ∧ t.ao = s.ao ∧ t.ld = s.ld ∧ SameHv s t) ∧
    (Serves n 0x01A2 s → (s.slot n).len = 0 → s.fwOwned n = true → s.cd.fw.st = .loading →
      ∃ t, exec .fwVerify s = .next t ∧ t.cd.fw = { s.cd.fw with st := .verifying } ∧ ResponseIs n 0 [] s t ∧
        t.cd.nvm = s.cd.nvm ∧ SameOtherSlots n s t ∧ t.ao = s.ao ∧ t.ld = s.ld ∧ SameHv s t) ∧
    (s.regsLive = true → s.cd.fw.st = .verifying →
      ∃ t, exec .fwVerifyDone s = .next t ∧ t.cd.fw.check = s.imgCheck (s.cd.nvm.bank s.cd.fw.bankB) ∧
        t.cd.fw.st = (if s.imgCheck (s.cd.nvm.bank s.cd.fw.bankB) = 0 then .verified else .failed) ∧
        t.cd = { s.cd with fw := t.cd.fw, lastVerified := t.cd.lastVerified } ∧ t = { s with cd := t.cd }) ∧
    (Serves n 0x01A4 s → (s.slot n).len = 4 → word p 0 = 0xB856A5A5 → s.fwOwned n = true → s.cd.fw.st = .verified →
      ∃ t, exec .fwActivate s = .next t ∧ t.cd.fw = { s.cd.fw with st := .activated } ∧
        (t.cd.nvm.bootA = some { s.cd.nvm.boot with
            trial := some s.cd.fw.bankB, tried := false, seq := s.cd.nvm.boot.seq + 1, crcOk := true } ∨
          t.cd.nvm.bootB = some { s.cd.nvm.boot with
            trial := some s.cd.fw.bankB, tried := false, seq := s.cd.nvm.boot.seq + 1, crcOk := true }) ∧
        t.cd.nvm.bankA = s.cd.nvm.bankA ∧ t.cd.nvm.bankB = s.cd.nvm.bankB ∧ ResponseIs n 0 [] s t ∧
        SameOtherSlots n s t ∧ t.ao = s.ao ∧ t.ld = s.ld ∧ SameHv s t) ∧
    (Serves n 0x01A4 s → (s.slot n).len = 4 → word p 0 = 0xB856A5A5 → s.cd.fw.st ≠ .verified →
      ∃ t, exec .fwActivate s = .next t ∧ ResponseIs n 5 [] s t ∧ OnlyAnswered n s t ∧ SameHv s t)

/-! ### The books (chapters 15 and 16) -/

/-- R375, R389 to R393: a REPORT of a condition that is not open enters it and its record in the log, and the CD
answers with the REPORT's SEQ; a summary is written 1.0 s after its last repeat, and the count of dropped records as
one record. R427, R428, R430, R431: each powered minute is added to the ledger's counts, and outside Frost the dies'
final records are read; every 24 powered hours the ledger goes to the slot that does not hold its newest copy; an area
that has used half its retention is written again. Forms whose completion this concludes: faultReportReceived,
faultSummaryWrite, logOverflowWrite, ledgerSample, ledgerWrite, retentionRewrite. -/
def Obligations.ReportsSummariesAndLedgerReachNvm : Prop :=
  (∀ s : State, s.regsLive = true → s.cd.faults.written = [] → s.cd.nvm.inReset = false →
    (∀ (d : HvDie) (seq : Byte) (p : List Byte), (s.lend d.cdLink .first).running = true → p.length = 16 →
      byteAt p 0 = 0x30 → (byteAt p 1).extractLsb' 6 2 = 0 → conditionCodes.any (fun f => f.code = half p 2) = true →
      s.condOpen (half p 2) (byteAt p 4) = false → s.cd.faults.opened.length < 48 →
      ∃ t r, exec (.faultReportReceived d seq p) s = .next t ∧
        t.wire = .link d.cdLink .first seq (.response []) :: s.wire ∧ t.cd.faults.opened = s.cd.faults.opened ++ [r] ∧
        t.cd.nvm.log = (.valid { r with seq := s.cd.nvm.topSeq + 1 } :: s.cd.nvm.log).take 1536 ∧
        r.code = half p 2 ∧ r.subject = byteAt p 4 ∧ r.source = d.subject ∧ r.rep = half p 6 ∧
        r.data = slice p 8 6 ∧ r.tt = stampedTime s.trainTime (half p 14) ∧ r.epoch = s.epoch ∧
        OnlyBooks s.cd t.cd ∧ t.ao = s.ao ∧ t.ld = s.ld ∧ SameHv s t) ∧
    (∀ r n q, s.cd.faults.summaries = (r, n) :: q →
      ∃ t, exec .faultSummaryWrite s = .next t ∧ t.now = max s.now (n + 1000000000) ∧ t.cd.faults.summaries = q ∧
        t.cd.nvm.log = (.valid { r with
          epoch := s.epoch, position := s.position, seq := s.cd.nvm.topSeq + 1 } :: s.cd.nvm.log).take 1536 ∧
        OnlyBooksOf s t) ∧
    (s.cd.faults.dropped ≠ 0 →
      ∃ t r, exec .logOverflowWrite s = .next t ∧ t.cd.faults.dropped = 0 ∧
        t.cd.nvm.log = (.valid r :: s.cd.nvm.log).take 1536 ∧ r.code = 0x0707 ∧ r.event = 2 ∧
        r.rep = BitVec.ofNat 16 (min 65535 s.cd.faults.dropped) ∧ t.now = s.now ∧ OnlyBooksOf s t)) ∧
  (∀ s : State, s.regsLive = true → s.cd.nvm.inReset = false →
    (∀ j : Int, ∃ t, exec (.ledgerSample j) s = .next t ∧
      t.cd.nvm.ledger.book.minutes = s.cd.nvm.ledger.book.minutes + 1 ∧
      t.cd.nvm.ledger.book.line = s.cd.nvm.ledger.book.line +
        (if Port.all.any (fun p => (s.lane p).st ≠ .off) = true then wearFactor j else 0) ∧
      t.cd.nvm.retention = s.cd.nvm.retention.map (fun r => r + retentionFactor j) ∧
      t.cd.nvm.ledger.slotA = s.cd.nvm.ledger.slotA ∧ t.cd.nvm.ledger.slotB = s.cd.nvm.ledger.slotB ∧
      t.cd = { s.cd with nvm := { s.cd.nvm with
        ledger := t.cd.nvm.ledger, retention := t.cd.nvm.retention } } ∧
      (∀ d : Die, s.cd.frost = false → (s.lend d.cdLink .first).lost = false →
        .link d.cdLink .first ((s.lend d.cdLink .first).txSeq + 1) (.command cmdFinalRead) ∈ t.wire) ∧
      t.ao = s.ao ∧ t.ld = s.ld ∧ SameHv s t ∧ t.now = s.now) ∧
    (s.cd.nvm.ledger.writtenAt + 1440 ≤ s.cd.nvm.ledger.book.minutes →
      ∃ t, exec .ledgerWrite s = .next t ∧ t.cd.nvm.ledger.writtenAt = s.cd.nvm.ledger.book.minutes ∧
        (s.cd.nvm.ledger.newestB = true → t.cd.nvm.ledger.slotB = s.cd.nvm.ledger.slotB ∧
          t.cd.nvm.ledger.slotA = some (s.cd.nvm.ledger.nextSeq, t.cd.nvm.ledger.book)) ∧
        (s.cd.nvm.ledger.newestB = false → s.cd.nvm.ledger.slotA ≠ none →
          t.cd.nvm.ledger.slotA = s.cd.nvm.ledger.slotA ∧
          t.cd.nvm.ledger.slotB = some (s.cd.nvm.ledger.nextSeq, t.cd.nvm.ledger.book)) ∧
        t.cd.nvm.log = s.cd.nvm.log ∧ t.cd.nvm.option = s.cd.nvm.option ∧ t.ao = s.ao ∧ t.ld = s.ld ∧ SameHv s t ∧
        t.now = s.now) ∧
    (∀ area : Nat, 3 ≤ area → area < 9 → s.cd.nvm.writes.length = 9 → s.cd.nvm.retention.length = 9 →
      retentionLimit ≤ s.cd.nvm.retention.getD area 0 →
      ∃ t, exec (.retentionRewrite area) s = .next t ∧ t.cd.nvm.retention.getD area 0 = 0 ∧
        t.cd.nvm.writes.getD area 0 = s.cd.nvm.writes.getD area 0 + 1 ∧
        t = { s with cd := { s.cd with nvm := { s.cd.nvm with
          writes := t.cd.nvm.writes, retention := t.cd.nvm.retention, lastArea := some area } } }))
end

