-- ==== Sys2Proof/Laws/State.lean ====
section
/-! SUPPORT. One lemma per field per update of `State`: what each named operation of Machine/Ops.lean writes and what it
leaves. All are true by unfolding, so that no later proof unfolds a record update. -/

namespace Sys2Proof.Machine

variable (s : State)

/-! ### Time -/

@[simp] theorem State.until_pending (t : Nat) : (s.until t).pending = s.pending := rfl
@[simp] theorem State.until_now (t : Nat) : (s.until t).now = max s.now t := rfl
@[simp] theorem State.until_freeCount (t : Nat) : (s.until t).freeCount = s.freeCount := rfl
@[simp] theorem State.until_wire (t : Nat) : (s.until t).wire = s.wire := rfl
@[simp] theorem State.until_ao (t : Nat) : (s.until t).ao = s.ao := rfl
@[simp] theorem State.until_cd (t : Nat) : (s.until t).cd = s.cd := rfl
@[simp] theorem State.until_ld (t : Nat) : (s.until t).ld = s.ld := rfl
@[simp] theorem State.until_la (t : Nat) : (s.until t).la = s.la := rfl
@[simp] theorem State.until_lb (t : Nat) : (s.until t).lb = s.lb := rfl
@[simp] theorem State.until_ref (t : Nat) : (s.until t).ref = s.ref := rfl
@[simp] theorem State.until_ends (t : Nat) : (s.until t).ends = s.ends := rfl
@[simp] theorem State.until_errs (t : Nat) : (s.until t).errs = s.errs := rfl
@[simp] theorem State.until_level (t : Nat) : (s.until t).level = s.level := rfl
@[simp] theorem State.until_crossings (t : Nat) : (s.until t).crossings = s.crossings := rfl
@[simp] theorem State.until_fences (t : Nat) : (s.until t).fences = s.fences := rfl

/-! ### Ticks -/

@[simp] theorem State.tick_pending (n : Nat) : (s.tick n).pending = s.pending := rfl
@[simp] theorem State.tick_now (n : Nat) : (s.tick n).now = s.now + n := rfl
@[simp] theorem State.tick_freeCount (n : Nat) : (s.tick n).freeCount = s.freeCount := rfl
@[simp] theorem State.tick_wire (n : Nat) : (s.tick n).wire = s.wire := rfl
@[simp] theorem State.tick_ao (n : Nat) : (s.tick n).ao = s.ao := rfl
@[simp] theorem State.tick_cd (n : Nat) : (s.tick n).cd = s.cd := rfl
@[simp] theorem State.tick_ld (n : Nat) : (s.tick n).ld = s.ld := rfl
@[simp] theorem State.tick_la (n : Nat) : (s.tick n).la = s.la := rfl
@[simp] theorem State.tick_lb (n : Nat) : (s.tick n).lb = s.lb := rfl
@[simp] theorem State.tick_ref (n : Nat) : (s.tick n).ref = s.ref := rfl
@[simp] theorem State.tick_ends (n : Nat) : (s.tick n).ends = s.ends := rfl
@[simp] theorem State.tick_errs (n : Nat) : (s.tick n).errs = s.errs := rfl
@[simp] theorem State.tick_level (n : Nat) : (s.tick n).level = s.level := rfl
@[simp] theorem State.tick_crossings (n : Nat) : (s.tick n).crossings = s.crossings := rfl
@[simp] theorem State.tick_fences (n : Nat) : (s.tick n).fences = s.fences := rfl

/-! ### Free values -/

@[simp] theorem State.drawFree_pending : (s.drawFree).pending = s.pending := rfl
@[simp] theorem State.drawFree_now : (s.drawFree).now = s.now := rfl
@[simp] theorem State.drawFree_freeCount : (s.drawFree).freeCount = s.freeCount + 1 := rfl
@[simp] theorem State.drawFree_wire : (s.drawFree).wire = s.wire := rfl
@[simp] theorem State.drawFree_ao : (s.drawFree).ao = s.ao := rfl
@[simp] theorem State.drawFree_cd : (s.drawFree).cd = s.cd := rfl
@[simp] theorem State.drawFree_ld : (s.drawFree).ld = s.ld := rfl
@[simp] theorem State.drawFree_la : (s.drawFree).la = s.la := rfl
@[simp] theorem State.drawFree_lb : (s.drawFree).lb = s.lb := rfl
@[simp] theorem State.drawFree_ref : (s.drawFree).ref = s.ref := rfl
@[simp] theorem State.drawFree_ends : (s.drawFree).ends = s.ends := rfl
@[simp] theorem State.drawFree_errs : (s.drawFree).errs = s.errs := rfl
@[simp] theorem State.drawFree_level : (s.drawFree).level = s.level := rfl
@[simp] theorem State.drawFree_crossings : (s.drawFree).crossings = s.crossings := rfl
@[simp] theorem State.drawFree_fences : (s.drawFree).fences = s.fences := rfl

/-! ### One emission -/

@[simp] theorem State.emit_pending (e : Emission) : (s.emit e).pending = s.pending := rfl
@[simp] theorem State.emit_now (e : Emission) : (s.emit e).now = s.now := rfl
@[simp] theorem State.emit_freeCount (e : Emission) : (s.emit e).freeCount = s.freeCount := rfl
@[simp] theorem State.emit_wire (e : Emission) : (s.emit e).wire = e :: s.wire := rfl
@[simp] theorem State.emit_ao (e : Emission) : (s.emit e).ao = s.ao := rfl
@[simp] theorem State.emit_cd (e : Emission) : (s.emit e).cd = s.cd := rfl
@[simp] theorem State.emit_ld (e : Emission) : (s.emit e).ld = s.ld := rfl
@[simp] theorem State.emit_la (e : Emission) : (s.emit e).la = s.la := rfl
@[simp] theorem State.emit_lb (e : Emission) : (s.emit e).lb = s.lb := rfl
@[simp] theorem State.emit_ref (e : Emission) : (s.emit e).ref = s.ref := rfl
@[simp] theorem State.emit_ends (e : Emission) : (s.emit e).ends = s.ends := rfl
@[simp] theorem State.emit_errs (e : Emission) : (s.emit e).errs = s.errs := rfl
@[simp] theorem State.emit_level (e : Emission) : (s.emit e).level = s.level := rfl
@[simp] theorem State.emit_crossings (e : Emission) : (s.emit e).crossings = s.crossings := rfl
@[simp] theorem State.emit_fences (e : Emission) : (s.emit e).fences = s.fences := rfl

/-! ### Emissions -/

@[simp] theorem State.emits_pending (es : List Emission) : (s.emits es).pending = s.pending := rfl
@[simp] theorem State.emits_now (es : List Emission) : (s.emits es).now = s.now := rfl
@[simp] theorem State.emits_freeCount (es : List Emission) : (s.emits es).freeCount = s.freeCount := rfl
@[simp] theorem State.emits_wire (es : List Emission) : (s.emits es).wire = es.reverse ++ s.wire := rfl
@[simp] theorem State.emits_ao (es : List Emission) : (s.emits es).ao = s.ao := rfl
@[simp] theorem State.emits_cd (es : List Emission) : (s.emits es).cd = s.cd := rfl
@[simp] theorem State.emits_ld (es : List Emission) : (s.emits es).ld = s.ld := rfl
@[simp] theorem State.emits_la (es : List Emission) : (s.emits es).la = s.la := rfl
@[simp] theorem State.emits_lb (es : List Emission) : (s.emits es).lb = s.lb := rfl
@[simp] theorem State.emits_ref (es : List Emission) : (s.emits es).ref = s.ref := rfl
@[simp] theorem State.emits_ends (es : List Emission) : (s.emits es).ends = s.ends := rfl
@[simp] theorem State.emits_errs (es : List Emission) : (s.emits es).errs = s.errs := rfl
@[simp] theorem State.emits_level (es : List Emission) : (s.emits es).level = s.level := rfl
@[simp] theorem State.emits_crossings (es : List Emission) : (s.emits es).crossings = s.crossings := rfl
@[simp] theorem State.emits_fences (es : List Emission) : (s.emits es).fences = s.fences := rfl

/-! ### The referee -/

@[simp] theorem State.modRef_pending (f : Ref → Ref) : (s.modRef f).pending = s.pending := rfl
@[simp] theorem State.modRef_now (f : Ref → Ref) : (s.modRef f).now = s.now := rfl
@[simp] theorem State.modRef_freeCount (f : Ref → Ref) : (s.modRef f).freeCount = s.freeCount := rfl
@[simp] theorem State.modRef_wire (f : Ref → Ref) : (s.modRef f).wire = s.wire := rfl
@[simp] theorem State.modRef_ao (f : Ref → Ref) : (s.modRef f).ao = s.ao := rfl
@[simp] theorem State.modRef_cd (f : Ref → Ref) : (s.modRef f).cd = s.cd := rfl
@[simp] theorem State.modRef_ld (f : Ref → Ref) : (s.modRef f).ld = s.ld := rfl
@[simp] theorem State.modRef_la (f : Ref → Ref) : (s.modRef f).la = s.la := rfl
@[simp] theorem State.modRef_lb (f : Ref → Ref) : (s.modRef f).lb = s.lb := rfl
@[simp] theorem State.modRef_ref (f : Ref → Ref) : (s.modRef f).ref = f s.ref := rfl
@[simp] theorem State.modRef_ends (f : Ref → Ref) : (s.modRef f).ends = s.ends := rfl
@[simp] theorem State.modRef_errs (f : Ref → Ref) : (s.modRef f).errs = s.errs := rfl
@[simp] theorem State.modRef_level (f : Ref → Ref) : (s.modRef f).level = s.level := rfl
@[simp] theorem State.modRef_crossings (f : Ref → Ref) : (s.modRef f).crossings = s.crossings := rfl
@[simp] theorem State.modRef_fences (f : Ref → Ref) : (s.modRef f).fences = s.fences := rfl

/-! ### The line die -/

@[simp] theorem State.modLd_pending (f : LineDie → LineDie) : (s.modLd f).pending = s.pending := rfl
@[simp] theorem State.modLd_now (f : LineDie → LineDie) : (s.modLd f).now = s.now := rfl
@[simp] theorem State.modLd_freeCount (f : LineDie → LineDie) : (s.modLd f).freeCount = s.freeCount := rfl
@[simp] theorem State.modLd_wire (f : LineDie → LineDie) : (s.modLd f).wire = s.wire := rfl
@[simp] theorem State.modLd_ao (f : LineDie → LineDie) : (s.modLd f).ao = s.ao := rfl
@[simp] theorem State.modLd_cd (f : LineDie → LineDie) : (s.modLd f).cd = s.cd := rfl
@[simp] theorem State.modLd_ld (f : LineDie → LineDie) : (s.modLd f).ld = f s.ld := rfl
@[simp] theorem State.modLd_la (f : LineDie → LineDie) : (s.modLd f).la = s.la := rfl
@[simp] theorem State.modLd_lb (f : LineDie → LineDie) : (s.modLd f).lb = s.lb := rfl
@[simp] theorem State.modLd_ref (f : LineDie → LineDie) : (s.modLd f).ref = s.ref := rfl
@[simp] theorem State.modLd_ends (f : LineDie → LineDie) : (s.modLd f).ends = s.ends := rfl
@[simp] theorem State.modLd_errs (f : LineDie → LineDie) : (s.modLd f).errs = s.errs := rfl
@[simp] theorem State.modLd_level (f : LineDie → LineDie) : (s.modLd f).level = s.level := rfl
@[simp] theorem State.modLd_crossings (f : LineDie → LineDie) : (s.modLd f).crossings = s.crossings := rfl
@[simp] theorem State.modLd_fences (f : LineDie → LineDie) : (s.modLd f).fences = s.fences := rfl

/-! ### The control die -/

@[simp] theorem State.modCd_pending (f : ControlDie → ControlDie) : (s.modCd f).pending = s.pending := rfl
@[simp] theorem State.modCd_now (f : ControlDie → ControlDie) : (s.modCd f).now = s.now := rfl
@[simp] theorem State.modCd_freeCount (f : ControlDie → ControlDie) : (s.modCd f).freeCount = s.freeCount := rfl
@[simp] theorem State.modCd_wire (f : ControlDie → ControlDie) : (s.modCd f).wire = s.wire := rfl
@[simp] theorem State.modCd_ao (f : ControlDie → ControlDie) : (s.modCd f).ao = s.ao := rfl
@[simp] theorem State.modCd_cd (f : ControlDie → ControlDie) : (s.modCd f).cd = f s.cd := rfl
@[simp] theorem State.modCd_ld (f : ControlDie → ControlDie) : (s.modCd f).ld = s.ld := rfl
@[simp] theorem State.modCd_la (f : ControlDie → ControlDie) : (s.modCd f).la = s.la := rfl
@[simp] theorem State.modCd_lb (f : ControlDie → ControlDie) : (s.modCd f).lb = s.lb := rfl
@[simp] theorem State.modCd_ref (f : ControlDie → ControlDie) : (s.modCd f).ref = s.ref := rfl
@[simp] theorem State.modCd_ends (f : ControlDie → ControlDie) : (s.modCd f).ends = s.ends := rfl
@[simp] theorem State.modCd_errs (f : ControlDie → ControlDie) : (s.modCd f).errs = s.errs := rfl
@[simp] theorem State.modCd_level (f : ControlDie → ControlDie) : (s.modCd f).level = s.level := rfl
@[simp] theorem State.modCd_crossings (f : ControlDie → ControlDie) : (s.modCd f).crossings = s.crossings := rfl
@[simp] theorem State.modCd_fences (f : ControlDie → ControlDie) : (s.modCd f).fences = s.fences := rfl

/-! ### The always-on island -/

@[simp] theorem State.modAo_pending (f : AlwaysOn → AlwaysOn) : (s.modAo f).pending = s.pending := rfl
@[simp] theorem State.modAo_now (f : AlwaysOn → AlwaysOn) : (s.modAo f).now = s.now := rfl
@[simp] theorem State.modAo_freeCount (f : AlwaysOn → AlwaysOn) : (s.modAo f).freeCount = s.freeCount := rfl
@[simp] theorem State.modAo_wire (f : AlwaysOn → AlwaysOn) : (s.modAo f).wire = s.wire := rfl
@[simp] theorem State.modAo_ao (f : AlwaysOn → AlwaysOn) : (s.modAo f).ao = f s.ao := rfl
@[simp] theorem State.modAo_cd (f : AlwaysOn → AlwaysOn) : (s.modAo f).cd = s.cd := rfl
@[simp] theorem State.modAo_ld (f : AlwaysOn → AlwaysOn) : (s.modAo f).ld = s.ld := rfl
@[simp] theorem State.modAo_la (f : AlwaysOn → AlwaysOn) : (s.modAo f).la = s.la := rfl
@[simp] theorem State.modAo_lb (f : AlwaysOn → AlwaysOn) : (s.modAo f).lb = s.lb := rfl
@[simp] theorem State.modAo_ref (f : AlwaysOn → AlwaysOn) : (s.modAo f).ref = s.ref := rfl
@[simp] theorem State.modAo_ends (f : AlwaysOn → AlwaysOn) : (s.modAo f).ends = s.ends := rfl
@[simp] theorem State.modAo_errs (f : AlwaysOn → AlwaysOn) : (s.modAo f).errs = s.errs := rfl
@[simp] theorem State.modAo_level (f : AlwaysOn → AlwaysOn) : (s.modAo f).level = s.level := rfl
@[simp] theorem State.modAo_crossings (f : AlwaysOn → AlwaysOn) : (s.modAo f).crossings = s.crossings := rfl
@[simp] theorem State.modAo_fences (f : AlwaysOn → AlwaysOn) : (s.modAo f).fences = s.fences := rfl

/-! ### The inauguration engine -/

@[simp] theorem State.modEng_pending (f : Engine → Engine) : (s.modEng f).pending = s.pending := rfl
@[simp] theorem State.modEng_now (f : Engine → Engine) : (s.modEng f).now = s.now := rfl
@[simp] theorem State.modEng_freeCount (f : Engine → Engine) : (s.modEng f).freeCount = s.freeCount := rfl
@[simp] theorem State.modEng_wire (f : Engine → Engine) : (s.modEng f).wire = s.wire := rfl
@[simp] theorem State.modEng_ao (f : Engine → Engine) : (s.modEng f).ao = s.ao := rfl
@[simp] theorem State.modEng_cd (f : Engine → Engine) : (s.modEng f).cd = s.cd := rfl
@[simp] theorem State.modEng_ld (f : Engine → Engine) : (s.modEng f).ld = { s.ld with engine := f s.ld.engine } := rfl
@[simp] theorem State.modEng_la (f : Engine → Engine) : (s.modEng f).la = s.la := rfl
@[simp] theorem State.modEng_lb (f : Engine → Engine) : (s.modEng f).lb = s.lb := rfl
@[simp] theorem State.modEng_ref (f : Engine → Engine) : (s.modEng f).ref = s.ref := rfl
@[simp] theorem State.modEng_ends (f : Engine → Engine) : (s.modEng f).ends = s.ends := rfl
@[simp] theorem State.modEng_errs (f : Engine → Engine) : (s.modEng f).errs = s.errs := rfl
@[simp] theorem State.modEng_level (f : Engine → Engine) : (s.modEng f).level = s.level := rfl
@[simp] theorem State.modEng_crossings (f : Engine → Engine) : (s.modEng f).crossings = s.crossings := rfl
@[simp] theorem State.modEng_fences (f : Engine → Engine) : (s.modEng f).fences = s.fences := rfl

/-! ### The host port -/

@[simp] theorem State.modPortH_pending (f : HostPort → HostPort) : (s.modPortH f).pending = s.pending := rfl
@[simp] theorem State.modPortH_now (f : HostPort → HostPort) : (s.modPortH f).now = s.now := rfl
@[simp] theorem State.modPortH_freeCount (f : HostPort → HostPort) : (s.modPortH f).freeCount = s.freeCount := rfl
@[simp] theorem State.modPortH_wire (f : HostPort → HostPort) : (s.modPortH f).wire = s.wire := rfl
@[simp] theorem State.modPortH_ao (f : HostPort → HostPort) : (s.modPortH f).ao = s.ao := rfl
@[simp] theorem State.modPortH_cd (f : HostPort → HostPort) : (s.modPortH f).cd = { s.cd with port := f s.cd.port } := rfl
@[simp] theorem State.modPortH_ld (f : HostPort → HostPort) : (s.modPortH f).ld = s.ld := rfl
@[simp] theorem State.modPortH_la (f : HostPort → HostPort) : (s.modPortH f).la = s.la := rfl
@[simp] theorem State.modPortH_lb (f : HostPort → HostPort) : (s.modPortH f).lb = s.lb := rfl
@[simp] theorem State.modPortH_ref (f : HostPort → HostPort) : (s.modPortH f).ref = s.ref := rfl
@[simp] theorem State.modPortH_ends (f : HostPort → HostPort) : (s.modPortH f).ends = s.ends := rfl
@[simp] theorem State.modPortH_errs (f : HostPort → HostPort) : (s.modPortH f).errs = s.errs := rfl
@[simp] theorem State.modPortH_level (f : HostPort → HostPort) : (s.modPortH f).level = s.level := rfl
@[simp] theorem State.modPortH_crossings (f : HostPort → HostPort) : (s.modPortH f).crossings = s.crossings := rfl
@[simp] theorem State.modPortH_fences (f : HostPort → HostPort) : (s.modPortH f).fences = s.fences := rfl

/-! ### Ends of framed links -/

@[simp] theorem State.modEnd_pending (l : FLink) (e : LEnd) (f : LinkEnd → LinkEnd) : (s.modEnd l e f).pending = s.pending := rfl
@[simp] theorem State.modEnd_now (l : FLink) (e : LEnd) (f : LinkEnd → LinkEnd) : (s.modEnd l e f).now = s.now := rfl
@[simp] theorem State.modEnd_freeCount (l : FLink) (e : LEnd) (f : LinkEnd → LinkEnd) : (s.modEnd l e f).freeCount = s.freeCount := rfl
@[simp] theorem State.modEnd_wire (l : FLink) (e : LEnd) (f : LinkEnd → LinkEnd) : (s.modEnd l e f).wire = s.wire := rfl
@[simp] theorem State.modEnd_ao (l : FLink) (e : LEnd) (f : LinkEnd → LinkEnd) : (s.modEnd l e f).ao = s.ao := rfl
@[simp] theorem State.modEnd_cd (l : FLink) (e : LEnd) (f : LinkEnd → LinkEnd) : (s.modEnd l e f).cd = s.cd := rfl
@[simp] theorem State.modEnd_ld (l : FLink) (e : LEnd) (f : LinkEnd → LinkEnd) : (s.modEnd l e f).ld = s.ld := rfl
@[simp] theorem State.modEnd_la (l : FLink) (e : LEnd) (f : LinkEnd → LinkEnd) : (s.modEnd l e f).la = s.la := rfl
@[simp] theorem State.modEnd_lb (l : FLink) (e : LEnd) (f : LinkEnd → LinkEnd) : (s.modEnd l e f).lb = s.lb := rfl
@[simp] theorem State.modEnd_ref (l : FLink) (e : LEnd) (f : LinkEnd → LinkEnd) : (s.modEnd l e f).ref = s.ref := rfl
@[simp] theorem State.modEnd_ends (l : FLink) (e : LEnd) (f : LinkEnd → LinkEnd) : (s.modEnd l e f).ends = s.ends.set l e (f (s.ends.get l e)) := rfl
@[simp] theorem State.modEnd_errs (l : FLink) (e : LEnd) (f : LinkEnd → LinkEnd) : (s.modEnd l e f).errs = s.errs := rfl
@[simp] theorem State.modEnd_level (l : FLink) (e : LEnd) (f : LinkEnd → LinkEnd) : (s.modEnd l e f).level = s.level := rfl
@[simp] theorem State.modEnd_crossings (l : FLink) (e : LEnd) (f : LinkEnd → LinkEnd) : (s.modEnd l e f).crossings = s.crossings := rfl
@[simp] theorem State.modEnd_fences (l : FLink) (e : LEnd) (f : LinkEnd → LinkEnd) : (s.modEnd l e f).fences = s.fences := rfl

/-! ### Error books -/

@[simp] theorem State.modErr_pending (l : FLink) (f : LinkErrors → LinkErrors) : (s.modErr l f).pending = s.pending := rfl
@[simp] theorem State.modErr_now (l : FLink) (f : LinkErrors → LinkErrors) : (s.modErr l f).now = s.now := rfl
@[simp] theorem State.modErr_freeCount (l : FLink) (f : LinkErrors → LinkErrors) : (s.modErr l f).freeCount = s.freeCount := rfl
@[simp] theorem State.modErr_wire (l : FLink) (f : LinkErrors → LinkErrors) : (s.modErr l f).wire = s.wire := rfl
@[simp] theorem State.modErr_ao (l : FLink) (f : LinkErrors → LinkErrors) : (s.modErr l f).ao = s.ao := rfl
@[simp] theorem State.modErr_cd (l : FLink) (f : LinkErrors → LinkErrors) : (s.modErr l f).cd = s.cd := rfl
@[simp] theorem State.modErr_ld (l : FLink) (f : LinkErrors → LinkErrors) : (s.modErr l f).ld = s.ld := rfl
@[simp] theorem State.modErr_la (l : FLink) (f : LinkErrors → LinkErrors) : (s.modErr l f).la = s.la := rfl
@[simp] theorem State.modErr_lb (l : FLink) (f : LinkErrors → LinkErrors) : (s.modErr l f).lb = s.lb := rfl
@[simp] theorem State.modErr_ref (l : FLink) (f : LinkErrors → LinkErrors) : (s.modErr l f).ref = s.ref := rfl
@[simp] theorem State.modErr_ends (l : FLink) (f : LinkErrors → LinkErrors) : (s.modErr l f).ends = s.ends := rfl
@[simp] theorem State.modErr_errs (l : FLink) (f : LinkErrors → LinkErrors) : (s.modErr l f).errs = s.errs.set l (f (s.errs.get l)) := rfl
@[simp] theorem State.modErr_level (l : FLink) (f : LinkErrors → LinkErrors) : (s.modErr l f).level = s.level := rfl
@[simp] theorem State.modErr_crossings (l : FLink) (f : LinkErrors → LinkErrors) : (s.modErr l f).crossings = s.crossings := rfl
@[simp] theorem State.modErr_fences (l : FLink) (f : LinkErrors → LinkErrors) : (s.modErr l f).fences = s.fences := rfl

/-! ### Level links -/

@[simp] theorem State.modLevel_pending (l : LLink) (f : LevelLink → LevelLink) : (s.modLevel l f).pending = s.pending := rfl
@[simp] theorem State.modLevel_now (l : LLink) (f : LevelLink → LevelLink) : (s.modLevel l f).now = s.now := rfl
@[simp] theorem State.modLevel_freeCount (l : LLink) (f : LevelLink → LevelLink) : (s.modLevel l f).freeCount = s.freeCount := rfl
@[simp] theorem State.modLevel_wire (l : LLink) (f : LevelLink → LevelLink) : (s.modLevel l f).wire = s.wire := rfl
@[simp] theorem State.modLevel_ao (l : LLink) (f : LevelLink → LevelLink) : (s.modLevel l f).ao = s.ao := rfl
@[simp] theorem State.modLevel_cd (l : LLink) (f : LevelLink → LevelLink) : (s.modLevel l f).cd = s.cd := rfl
@[simp] theorem State.modLevel_ld (l : LLink) (f : LevelLink → LevelLink) : (s.modLevel l f).ld = s.ld := rfl
@[simp] theorem State.modLevel_la (l : LLink) (f : LevelLink → LevelLink) : (s.modLevel l f).la = s.la := rfl
@[simp] theorem State.modLevel_lb (l : LLink) (f : LevelLink → LevelLink) : (s.modLevel l f).lb = s.lb := rfl
@[simp] theorem State.modLevel_ref (l : LLink) (f : LevelLink → LevelLink) : (s.modLevel l f).ref = s.ref := rfl
@[simp] theorem State.modLevel_ends (l : LLink) (f : LevelLink → LevelLink) : (s.modLevel l f).ends = s.ends := rfl
@[simp] theorem State.modLevel_errs (l : LLink) (f : LevelLink → LevelLink) : (s.modLevel l f).errs = s.errs := rfl
@[simp] theorem State.modLevel_level (l : LLink) (f : LevelLink → LevelLink) : (s.modLevel l f).level = s.level.set l (f (s.level.get l)) := rfl
@[simp] theorem State.modLevel_crossings (l : LLink) (f : LevelLink → LevelLink) : (s.modLevel l f).crossings = s.crossings := rfl
@[simp] theorem State.modLevel_fences (l : LLink) (f : LevelLink → LevelLink) : (s.modLevel l f).fences = s.fences := rfl

/-! ### The source of a level link -/

@[simp] theorem State.drive_pending (l : LLink) (v : Option Bool) : (s.drive l v).pending = s.pending := rfl
@[simp] theorem State.drive_now (l : LLink) (v : Option Bool) : (s.drive l v).now = s.now := rfl
@[simp] theorem State.drive_freeCount (l : LLink) (v : Option Bool) : (s.drive l v).freeCount = s.freeCount := rfl
@[simp] theorem State.drive_wire (l : LLink) (v : Option Bool) : (s.drive l v).wire = s.wire := rfl
@[simp] theorem State.drive_ao (l : LLink) (v : Option Bool) : (s.drive l v).ao = s.ao := rfl
@[simp] theorem State.drive_cd (l : LLink) (v : Option Bool) : (s.drive l v).cd = s.cd := rfl
@[simp] theorem State.drive_ld (l : LLink) (v : Option Bool) : (s.drive l v).ld = s.ld := rfl
@[simp] theorem State.drive_la (l : LLink) (v : Option Bool) : (s.drive l v).la = s.la := rfl
@[simp] theorem State.drive_lb (l : LLink) (v : Option Bool) : (s.drive l v).lb = s.lb := rfl
@[simp] theorem State.drive_ref (l : LLink) (v : Option Bool) : (s.drive l v).ref = s.ref := rfl
@[simp] theorem State.drive_ends (l : LLink) (v : Option Bool) : (s.drive l v).ends = s.ends := rfl
@[simp] theorem State.drive_errs (l : LLink) (v : Option Bool) : (s.drive l v).errs = s.errs := rfl
@[simp] theorem State.drive_level (l : LLink) (v : Option Bool) : (s.drive l v).level = s.level.set l { s.level.get l with sent := v } := rfl
@[simp] theorem State.drive_crossings (l : LLink) (v : Option Bool) : (s.drive l v).crossings = s.crossings := rfl
@[simp] theorem State.drive_fences (l : LLink) (v : Option Bool) : (s.drive l v).fences = s.fences := rfl

/-! ### The receiver of a level link -/

@[simp] theorem State.take_pending (l : LLink) (v : Bool) : (s.take l v).pending = s.pending := rfl
@[simp] theorem State.take_now (l : LLink) (v : Bool) : (s.take l v).now = s.now := rfl
@[simp] theorem State.take_freeCount (l : LLink) (v : Bool) : (s.take l v).freeCount = s.freeCount := rfl
@[simp] theorem State.take_wire (l : LLink) (v : Bool) : (s.take l v).wire = s.wire := rfl
@[simp] theorem State.take_ao (l : LLink) (v : Bool) : (s.take l v).ao = s.ao := rfl
@[simp] theorem State.take_cd (l : LLink) (v : Bool) : (s.take l v).cd = s.cd := rfl
@[simp] theorem State.take_ld (l : LLink) (v : Bool) : (s.take l v).ld = s.ld := rfl
@[simp] theorem State.take_la (l : LLink) (v : Bool) : (s.take l v).la = s.la := rfl
@[simp] theorem State.take_lb (l : LLink) (v : Bool) : (s.take l v).lb = s.lb := rfl
@[simp] theorem State.take_ref (l : LLink) (v : Bool) : (s.take l v).ref = s.ref := rfl
@[simp] theorem State.take_ends (l : LLink) (v : Bool) : (s.take l v).ends = s.ends := rfl
@[simp] theorem State.take_errs (l : LLink) (v : Bool) : (s.take l v).errs = s.errs := rfl
@[simp] theorem State.take_level (l : LLink) (v : Bool) : (s.take l v).level = s.level.set l { s.level.get l with taken := v, silent := false } := rfl
@[simp] theorem State.take_crossings (l : LLink) (v : Bool) : (s.take l v).crossings = s.crossings := rfl
@[simp] theorem State.take_fences (l : LLink) (v : Bool) : (s.take l v).fences = s.fences := rfl

/-! ### Lanes -/

@[simp] theorem State.modLane_pending (p : Port) (f : Lane → Lane) : (s.modLane p f).pending = s.pending := rfl
@[simp] theorem State.modLane_now (p : Port) (f : Lane → Lane) : (s.modLane p f).now = s.now := rfl
@[simp] theorem State.modLane_freeCount (p : Port) (f : Lane → Lane) : (s.modLane p f).freeCount = s.freeCount := rfl
@[simp] theorem State.modLane_wire (p : Port) (f : Lane → Lane) : (s.modLane p f).wire = s.wire := rfl
@[simp] theorem State.modLane_ao (p : Port) (f : Lane → Lane) : (s.modLane p f).ao = s.ao := rfl
@[simp] theorem State.modLane_cd (p : Port) (f : Lane → Lane) : (s.modLane p f).cd = s.cd := rfl
@[simp] theorem State.modLane_ld (p : Port) (f : Lane → Lane) : (s.modLane p f).ld = s.ld.setLane p (f (s.ld.lane p)) := rfl
@[simp] theorem State.modLane_la (p : Port) (f : Lane → Lane) : (s.modLane p f).la = s.la := rfl
@[simp] theorem State.modLane_lb (p : Port) (f : Lane → Lane) : (s.modLane p f).lb = s.lb := rfl
@[simp] theorem State.modLane_ref (p : Port) (f : Lane → Lane) : (s.modLane p f).ref = s.ref := rfl
@[simp] theorem State.modLane_ends (p : Port) (f : Lane → Lane) : (s.modLane p f).ends = s.ends := rfl
@[simp] theorem State.modLane_errs (p : Port) (f : Lane → Lane) : (s.modLane p f).errs = s.errs := rfl
@[simp] theorem State.modLane_level (p : Port) (f : Lane → Lane) : (s.modLane p f).level = s.level := rfl
@[simp] theorem State.modLane_crossings (p : Port) (f : Lane → Lane) : (s.modLane p f).crossings = s.crossings := rfl
@[simp] theorem State.modLane_fences (p : Port) (f : Lane → Lane) : (s.modLane p f).fences = s.fences := rfl

/-! ### Line ports -/

@[simp] theorem State.modPort_pending (p : Port) (f : PortState → PortState) : (s.modPort p f).pending = s.pending := rfl
@[simp] theorem State.modPort_now (p : Port) (f : PortState → PortState) : (s.modPort p f).now = s.now := rfl
@[simp] theorem State.modPort_freeCount (p : Port) (f : PortState → PortState) : (s.modPort p f).freeCount = s.freeCount := rfl
@[simp] theorem State.modPort_wire (p : Port) (f : PortState → PortState) : (s.modPort p f).wire = s.wire := rfl
@[simp] theorem State.modPort_ao (p : Port) (f : PortState → PortState) : (s.modPort p f).ao = s.ao := rfl
@[simp] theorem State.modPort_cd (p : Port) (f : PortState → PortState) : (s.modPort p f).cd = s.cd := rfl
@[simp] theorem State.modPort_ld (p : Port) (f : PortState → PortState) : (s.modPort p f).ld = s.ld.setPort p (f (s.ld.port p)) := rfl
@[simp] theorem State.modPort_la (p : Port) (f : PortState → PortState) : (s.modPort p f).la = s.la := rfl
@[simp] theorem State.modPort_lb (p : Port) (f : PortState → PortState) : (s.modPort p f).lb = s.lb := rfl
@[simp] theorem State.modPort_ref (p : Port) (f : PortState → PortState) : (s.modPort p f).ref = s.ref := rfl
@[simp] theorem State.modPort_ends (p : Port) (f : PortState → PortState) : (s.modPort p f).ends = s.ends := rfl
@[simp] theorem State.modPort_errs (p : Port) (f : PortState → PortState) : (s.modPort p f).errs = s.errs := rfl
@[simp] theorem State.modPort_level (p : Port) (f : PortState → PortState) : (s.modPort p f).level = s.level := rfl
@[simp] theorem State.modPort_crossings (p : Port) (f : PortState → PortState) : (s.modPort p f).crossings = s.crossings := rfl
@[simp] theorem State.modPort_fences (p : Port) (f : PortState → PortState) : (s.modPort p f).fences = s.fences := rfl

/-! ### A frame on the line of a link -/

@[simp] theorem State.putLink_pending (l : FLink) (e : LEnd) (q : Byte) (b : LinkBody) : (s.putLink l e q b).pending = s.pending := rfl
@[simp] theorem State.putLink_now (l : FLink) (e : LEnd) (q : Byte) (b : LinkBody) : (s.putLink l e q b).now = s.now := rfl
@[simp] theorem State.putLink_freeCount (l : FLink) (e : LEnd) (q : Byte) (b : LinkBody) : (s.putLink l e q b).freeCount = s.freeCount := rfl
@[simp] theorem State.putLink_wire (l : FLink) (e : LEnd) (q : Byte) (b : LinkBody) : (s.putLink l e q b).wire = .link l e q b :: s.wire := rfl
@[simp] theorem State.putLink_ao (l : FLink) (e : LEnd) (q : Byte) (b : LinkBody) : (s.putLink l e q b).ao = s.ao := rfl
@[simp] theorem State.putLink_cd (l : FLink) (e : LEnd) (q : Byte) (b : LinkBody) : (s.putLink l e q b).cd = s.cd := rfl
@[simp] theorem State.putLink_ld (l : FLink) (e : LEnd) (q : Byte) (b : LinkBody) : (s.putLink l e q b).ld = s.ld := rfl
@[simp] theorem State.putLink_la (l : FLink) (e : LEnd) (q : Byte) (b : LinkBody) : (s.putLink l e q b).la = s.la := rfl
@[simp] theorem State.putLink_lb (l : FLink) (e : LEnd) (q : Byte) (b : LinkBody) : (s.putLink l e q b).lb = s.lb := rfl
@[simp] theorem State.putLink_ref (l : FLink) (e : LEnd) (q : Byte) (b : LinkBody) : (s.putLink l e q b).ref = s.ref := rfl
@[simp] theorem State.putLink_ends (l : FLink) (e : LEnd) (q : Byte) (b : LinkBody) : (s.putLink l e q b).ends = s.ends.set l e (LinkEnd.transmit l s.now (b.symbols q) (s.ends.get l e)) := rfl
@[simp] theorem State.putLink_errs (l : FLink) (e : LEnd) (q : Byte) (b : LinkBody) : (s.putLink l e q b).errs = s.errs := rfl
@[simp] theorem State.putLink_level (l : FLink) (e : LEnd) (q : Byte) (b : LinkBody) : (s.putLink l e q b).level = s.level := rfl
@[simp] theorem State.putLink_crossings (l : FLink) (e : LEnd) (q : Byte) (b : LinkBody) : (s.putLink l e q b).crossings = s.crossings := rfl
@[simp] theorem State.putLink_fences (l : FLink) (e : LEnd) (q : Byte) (b : LinkBody) : (s.putLink l e q b).fences = s.fences := rfl

/-! ### A frame on a link -/

@[simp] theorem State.sendLink_pending (l : FLink) (e : LEnd) (b : LinkBody) : (s.sendLink l e b).pending = s.pending := rfl
@[simp] theorem State.sendLink_now (l : FLink) (e : LEnd) (b : LinkBody) : (s.sendLink l e b).now = s.now := rfl
@[simp] theorem State.sendLink_freeCount (l : FLink) (e : LEnd) (b : LinkBody) : (s.sendLink l e b).freeCount = s.freeCount := rfl
@[simp] theorem State.sendLink_wire (l : FLink) (e : LEnd) (b : LinkBody) : (s.sendLink l e b).wire = .link l e ((s.ends.get l e).txSeq + 1) b :: s.wire := rfl
@[simp] theorem State.sendLink_ao (l : FLink) (e : LEnd) (b : LinkBody) : (s.sendLink l e b).ao = s.ao := rfl
@[simp] theorem State.sendLink_cd (l : FLink) (e : LEnd) (b : LinkBody) : (s.sendLink l e b).cd = s.cd := rfl
@[simp] theorem State.sendLink_ld (l : FLink) (e : LEnd) (b : LinkBody) : (s.sendLink l e b).ld = s.ld := rfl
@[simp] theorem State.sendLink_la (l : FLink) (e : LEnd) (b : LinkBody) : (s.sendLink l e b).la = s.la := rfl
@[simp] theorem State.sendLink_lb (l : FLink) (e : LEnd) (b : LinkBody) : (s.sendLink l e b).lb = s.lb := rfl
@[simp] theorem State.sendLink_ref (l : FLink) (e : LEnd) (b : LinkBody) : (s.sendLink l e b).ref = s.ref := rfl
@[simp] theorem State.sendLink_errs (l : FLink) (e : LEnd) (b : LinkBody) : (s.sendLink l e b).errs = s.errs := rfl
@[simp] theorem State.sendLink_level (l : FLink) (e : LEnd) (b : LinkBody) : (s.sendLink l e b).level = s.level := rfl
@[simp] theorem State.sendLink_crossings (l : FLink) (e : LEnd) (b : LinkBody) : (s.sendLink l e b).crossings = s.crossings := rfl
@[simp] theorem State.sendLink_fences (l : FLink) (e : LEnd) (b : LinkBody) : (s.sendLink l e b).fences = s.fences := rfl

/-! ### An answer on a link -/

@[simp] theorem State.answerLink_pending (l : FLink) (e : LEnd) (q : Byte) (b : List Byte) : (s.answerLink l e q b).pending = s.pending := rfl
@[simp] theorem State.answerLink_now (l : FLink) (e : LEnd) (q : Byte) (b : List Byte) : (s.answerLink l e q b).now = s.now := rfl
@[simp] theorem State.answerLink_freeCount (l : FLink) (e : LEnd) (q : Byte) (b : List Byte) : (s.answerLink l e q b).freeCount = s.freeCount := rfl
@[simp] theorem State.answerLink_wire (l : FLink) (e : LEnd) (q : Byte) (b : List Byte) : (s.answerLink l e q b).wire = .link l e q (.response b) :: s.wire := rfl
@[simp] theorem State.answerLink_ao (l : FLink) (e : LEnd) (q : Byte) (b : List Byte) : (s.answerLink l e q b).ao = s.ao := rfl
@[simp] theorem State.answerLink_cd (l : FLink) (e : LEnd) (q : Byte) (b : List Byte) : (s.answerLink l e q b).cd = s.cd := rfl
@[simp] theorem State.answerLink_ld (l : FLink) (e : LEnd) (q : Byte) (b : List Byte) : (s.answerLink l e q b).ld = s.ld := rfl
@[simp] theorem State.answerLink_la (l : FLink) (e : LEnd) (q : Byte) (b : List Byte) : (s.answerLink l e q b).la = s.la := rfl
@[simp] theorem State.answerLink_lb (l : FLink) (e : LEnd) (q : Byte) (b : List Byte) : (s.answerLink l e q b).lb = s.lb := rfl
@[simp] theorem State.answerLink_ref (l : FLink) (e : LEnd) (q : Byte) (b : List Byte) : (s.answerLink l e q b).ref = s.ref := rfl
@[simp] theorem State.answerLink_errs (l : FLink) (e : LEnd) (q : Byte) (b : List Byte) : (s.answerLink l e q b).errs = s.errs := rfl
@[simp] theorem State.answerLink_level (l : FLink) (e : LEnd) (q : Byte) (b : List Byte) : (s.answerLink l e q b).level = s.level := rfl
@[simp] theorem State.answerLink_crossings (l : FLink) (e : LEnd) (q : Byte) (b : List Byte) : (s.answerLink l e q b).crossings = s.crossings := rfl
@[simp] theorem State.answerLink_fences (l : FLink) (e : LEnd) (q : Byte) (b : List Byte) : (s.answerLink l e q b).fences = s.fences := rfl

/-! ### A COMMAND on a link -/

@[simp] theorem State.sendCommand_pending (l : FLink) (i : Issuer) (b : List Byte) : (s.sendCommand l i b).pending = s.pending := rfl
@[simp] theorem State.sendCommand_now (l : FLink) (i : Issuer) (b : List Byte) : (s.sendCommand l i b).now = s.now := rfl
@[simp] theorem State.sendCommand_freeCount (l : FLink) (i : Issuer) (b : List Byte) : (s.sendCommand l i b).freeCount = s.freeCount := rfl
@[simp] theorem State.sendCommand_wire (l : FLink) (i : Issuer) (b : List Byte) : (s.sendCommand l i b).wire = .link l .first ((s.ends.get l .first).txSeq + 1) (.command b) :: s.wire := rfl
@[simp] theorem State.sendCommand_ao (l : FLink) (i : Issuer) (b : List Byte) : (s.sendCommand l i b).ao = s.ao := rfl
@[simp] theorem State.sendCommand_cd (l : FLink) (i : Issuer) (b : List Byte) : (s.sendCommand l i b).cd = s.cd := rfl
@[simp] theorem State.sendCommand_ld (l : FLink) (i : Issuer) (b : List Byte) : (s.sendCommand l i b).ld = s.ld := rfl
@[simp] theorem State.sendCommand_la (l : FLink) (i : Issuer) (b : List Byte) : (s.sendCommand l i b).la = s.la := rfl
@[simp] theorem State.sendCommand_lb (l : FLink) (i : Issuer) (b : List Byte) : (s.sendCommand l i b).lb = s.lb := rfl
@[simp] theorem State.sendCommand_ref (l : FLink) (i : Issuer) (b : List Byte) : (s.sendCommand l i b).ref = s.ref := rfl
@[simp] theorem State.sendCommand_errs (l : FLink) (i : Issuer) (b : List Byte) : (s.sendCommand l i b).errs = s.errs := rfl
@[simp] theorem State.sendCommand_level (l : FLink) (i : Issuer) (b : List Byte) : (s.sendCommand l i b).level = s.level := rfl
@[simp] theorem State.sendCommand_crossings (l : FLink) (i : Issuer) (b : List Byte) : (s.sendCommand l i b).crossings = s.crossings := rfl
@[simp] theorem State.sendCommand_fences (l : FLink) (i : Issuer) (b : List Byte) : (s.sendCommand l i b).fences = s.fences := rfl

/-! ### Lamp dies -/

@[simp] theorem State.modDie_pending (d : Die) (f : LampDie → LampDie) : (s.modDie d f).pending = s.pending := by cases d <;> rfl
@[simp] theorem State.modDie_now (d : Die) (f : LampDie → LampDie) : (s.modDie d f).now = s.now := by cases d <;> rfl
@[simp] theorem State.modDie_freeCount (d : Die) (f : LampDie → LampDie) : (s.modDie d f).freeCount = s.freeCount := by cases d <;> rfl
@[simp] theorem State.modDie_wire (d : Die) (f : LampDie → LampDie) : (s.modDie d f).wire = s.wire := by cases d <;> rfl
@[simp] theorem State.modDie_ao (d : Die) (f : LampDie → LampDie) : (s.modDie d f).ao = s.ao := by cases d <;> rfl
@[simp] theorem State.modDie_cd (d : Die) (f : LampDie → LampDie) : (s.modDie d f).cd = s.cd := by cases d <;> rfl
@[simp] theorem State.modDie_ld (d : Die) (f : LampDie → LampDie) : (s.modDie d f).ld = s.ld := by cases d <;> rfl
@[simp] theorem State.modDie_ref (d : Die) (f : LampDie → LampDie) : (s.modDie d f).ref = s.ref := by cases d <;> rfl
@[simp] theorem State.modDie_ends (d : Die) (f : LampDie → LampDie) : (s.modDie d f).ends = s.ends := by cases d <;> rfl
@[simp] theorem State.modDie_errs (d : Die) (f : LampDie → LampDie) : (s.modDie d f).errs = s.errs := by cases d <;> rfl
@[simp] theorem State.modDie_level (d : Die) (f : LampDie → LampDie) : (s.modDie d f).level = s.level := by cases d <;> rfl
@[simp] theorem State.modDie_crossings (d : Die) (f : LampDie → LampDie) : (s.modDie d f).crossings = s.crossings := by cases d <;> rfl
@[simp] theorem State.modDie_fences (d : Die) (f : LampDie → LampDie) : (s.modDie d f).fences = s.fences := by cases d <;> rfl

@[simp] theorem State.die_modDie (d : Die) (f : LampDie → LampDie) : (s.modDie d f).die d = f (s.die d) := by
  cases d <;> rfl

@[simp] theorem State.die_modDie_other (d : Die) (f : LampDie → LampDie) :
    (s.modDie d f).die d.other = s.die d.other := by cases d <;> rfl

@[simp] theorem State.modDie_la (f : LampDie → LampDie) : (s.modDie .la f).la = f s.la := rfl
@[simp] theorem State.modDie_la_lb (f : LampDie → LampDie) : (s.modDie .la f).lb = s.lb := rfl
@[simp] theorem State.modDie_lb (f : LampDie → LampDie) : (s.modDie .lb f).lb = f s.lb := rfl
@[simp] theorem State.modDie_lb_la (f : LampDie → LampDie) : (s.modDie .lb f).la = s.la := rfl

/-! ### The NVM while its controller is fenced, and elsewhere (R290) -/

@[simp] theorem State.modNvm_pending (f : Nvm → Nvm) : (s.modNvm f).pending = s.pending := by unfold State.modNvm; split <;> rfl
@[simp] theorem State.modNvm_now (f : Nvm → Nvm) : (s.modNvm f).now = s.now := by unfold State.modNvm; split <;> rfl
@[simp] theorem State.modNvm_freeCount (f : Nvm → Nvm) : (s.modNvm f).freeCount = s.freeCount := by unfold State.modNvm; split <;> rfl
@[simp] theorem State.modNvm_wire (f : Nvm → Nvm) : (s.modNvm f).wire = s.wire := by unfold State.modNvm; split <;> rfl
@[simp] theorem State.modNvm_ao (f : Nvm → Nvm) : (s.modNvm f).ao = s.ao := by unfold State.modNvm; split <;> rfl
@[simp] theorem State.modNvm_ld (f : Nvm → Nvm) : (s.modNvm f).ld = s.ld := by unfold State.modNvm; split <;> rfl
@[simp] theorem State.modNvm_la (f : Nvm → Nvm) : (s.modNvm f).la = s.la := by unfold State.modNvm; split <;> rfl
@[simp] theorem State.modNvm_lb (f : Nvm → Nvm) : (s.modNvm f).lb = s.lb := by unfold State.modNvm; split <;> rfl
@[simp] theorem State.modNvm_ref (f : Nvm → Nvm) : (s.modNvm f).ref = s.ref := by unfold State.modNvm; split <;> rfl
@[simp] theorem State.modNvm_ends (f : Nvm → Nvm) : (s.modNvm f).ends = s.ends := by unfold State.modNvm; split <;> rfl
@[simp] theorem State.modNvm_errs (f : Nvm → Nvm) : (s.modNvm f).errs = s.errs := by unfold State.modNvm; split <;> rfl
@[simp] theorem State.modNvm_level (f : Nvm → Nvm) : (s.modNvm f).level = s.level := by unfold State.modNvm; split <;> rfl
@[simp] theorem State.modNvm_crossings (f : Nvm → Nvm) : (s.modNvm f).crossings = s.crossings := by unfold State.modNvm; split <;> rfl
@[simp] theorem State.modNvm_fences (f : Nvm → Nvm) : (s.modNvm f).fences = s.fences := by unfold State.modNvm; split <;> rfl

theorem State.modNvm_of_fenced (f : Nvm → Nvm) (h : s.cd.nvm.inReset = true) : s.modNvm f = s := by
  simp [State.modNvm, h]

theorem State.modNvm_of_open (f : Nvm → Nvm) (h : s.cd.nvm.inReset = false) :
    s.modNvm f = s.modCd fun c => { c with nvm := f c.nvm } := by
  simp [State.modNvm, h]

/-! ### Registers held by name -/

@[simp] theorem LinkEnds.get_set (v : LinkEnds) (l : FLink) (e : LEnd) (x : LinkEnd) : (v.set l e x).get l e = x := by
  cases l <;> cases e <;> rfl

theorem LinkEnds.get_set_ne (v : LinkEnds) (l m : FLink) (e g : LEnd) (x : LinkEnd) (h : (m, g) ≠ (l, e)) :
    (v.set l e x).get m g = v.get m g := by
  cases l <;> cases e <;> cases m <;> cases g <;> first | rfl | exact absurd rfl h

@[simp] theorem LinkErrs.get_set (v : LinkErrs) (l : FLink) (x : LinkErrors) : (v.set l x).get l = x := by
  cases l <;> rfl

@[simp] theorem LevelLinks.get_set (v : LevelLinks) (l : LLink) (x : LevelLink) : (v.set l x).get l = x := by
  cases l <;> rfl

theorem LevelLinks.get_set_ne (v : LevelLinks) (l m : LLink) (x : LevelLink) (h : m ≠ l) :
    (v.set l x).get m = v.get m := by
  cases l <;> cases m <;> first | rfl | exact absurd rfl h

@[simp] theorem LineDie.lane_setLane (l : LineDie) (p : Port) (x : Lane) : (l.setLane p x).lane p = x := by
  cases p <;> rfl

theorem LineDie.lane_setLane_ne (l : LineDie) (p q : Port) (x : Lane) (h : q ≠ p) :
    (l.setLane p x).lane q = l.lane q := by
  cases p <;> cases q <;> first | rfl | exact absurd rfl h

@[simp] theorem LineDie.port_setPort (l : LineDie) (p : Port) (x : PortState) : (l.setPort p x).port p = x := by
  cases p <;> rfl

theorem LineDie.port_setPort_ne (l : LineDie) (p q : Port) (x : PortState) (h : q ≠ p) :
    (l.setPort p x).port q = l.port q := by
  cases p <;> cases q <;> first | rfl | exact absurd rfl h

@[simp] theorem LineDie.lane_setPort (l : LineDie) (p q : Port) (x : PortState) : (l.setPort p x).lane q = l.lane q := by
  cases p <;> cases q <;> rfl

@[simp] theorem LineDie.port_setLane (l : LineDie) (p q : Port) (x : Lane) : (l.setLane p x).port q = l.port q := by
  cases p <;> cases q <;> rfl

end Sys2Proof.Machine
end

