-- ==== Sys2Proof/Laws/Frames.lean ====
section
/-! SUPPORT. One lemma per shared operation of the meanings: the parts of `State` that the operation leaves as they were,
whatever it does to the rest. A proof cites them through `simp` and unfolds no operation to see that it does not touch a die,
a link or a register bank. `_other` says it of the other lamp die. -/

namespace Sys2Proof.Machine

/-! ### Folds and conditionals -/

/-- What every step of a fold keeps, the fold keeps. -/
theorem foldl_keeps {α β : Type} (g : State → β) (f : State → α → State) (h : ∀ t x, g (f t x) = g t) (l : List α) (s : State) :
    g (l.foldl f s) = g s := by
  induction l generalizing s with
  | nil => rfl
  | cons a l ih => rw [List.foldl_cons, ih, h]

@[simp] theorem foldl_ao {α : Type} (f : State → α → State) (h : ∀ t x, (f t x).ao = t.ao) (l : List α) (s : State) :
    (l.foldl f s).ao = s.ao := foldl_keeps State.ao f h l s

@[simp] theorem ite_ao (c : Prop) [Decidable c] (a b : State) : (if c then a else b).ao = if c then a.ao else b.ao :=
  apply_ite State.ao c a b

@[simp] theorem State.forPorts_ao (ps : List Port) (f : Port → State → State) (h : ∀ p s, State.ao (f p s) = State.ao s)
    (s : State) : (s.forPorts ps f).ao = s.ao := by simp [State.forPorts, h]

@[simp] theorem foldl_cd {α : Type} (f : State → α → State) (h : ∀ t x, (f t x).cd = t.cd) (l : List α) (s : State) :
    (l.foldl f s).cd = s.cd := foldl_keeps State.cd f h l s

@[simp] theorem ite_cd (c : Prop) [Decidable c] (a b : State) : (if c then a else b).cd = if c then a.cd else b.cd :=
  apply_ite State.cd c a b

@[simp] theorem State.forPorts_cd (ps : List Port) (f : Port → State → State) (h : ∀ p s, State.cd (f p s) = State.cd s)
    (s : State) : (s.forPorts ps f).cd = s.cd := by simp [State.forPorts, h]

@[simp] theorem foldl_ld {α : Type} (f : State → α → State) (h : ∀ t x, (f t x).ld = t.ld) (l : List α) (s : State) :
    (l.foldl f s).ld = s.ld := foldl_keeps State.ld f h l s

@[simp] theorem ite_ld (c : Prop) [Decidable c] (a b : State) : (if c then a else b).ld = if c then a.ld else b.ld :=
  apply_ite State.ld c a b

@[simp] theorem State.forPorts_ld (ps : List Port) (f : Port → State → State) (h : ∀ p s, State.ld (f p s) = State.ld s)
    (s : State) : (s.forPorts ps f).ld = s.ld := by simp [State.forPorts, h]

@[simp] theorem foldl_la {α : Type} (f : State → α → State) (h : ∀ t x, (f t x).la = t.la) (l : List α) (s : State) :
    (l.foldl f s).la = s.la := foldl_keeps State.la f h l s

@[simp] theorem ite_la (c : Prop) [Decidable c] (a b : State) : (if c then a else b).la = if c then a.la else b.la :=
  apply_ite State.la c a b

@[simp] theorem State.forPorts_la (ps : List Port) (f : Port → State → State) (h : ∀ p s, State.la (f p s) = State.la s)
    (s : State) : (s.forPorts ps f).la = s.la := by simp [State.forPorts, h]

@[simp] theorem foldl_lb {α : Type} (f : State → α → State) (h : ∀ t x, (f t x).lb = t.lb) (l : List α) (s : State) :
    (l.foldl f s).lb = s.lb := foldl_keeps State.lb f h l s

@[simp] theorem ite_lb (c : Prop) [Decidable c] (a b : State) : (if c then a else b).lb = if c then a.lb else b.lb :=
  apply_ite State.lb c a b

@[simp] theorem State.forPorts_lb (ps : List Port) (f : Port → State → State) (h : ∀ p s, State.lb (f p s) = State.lb s)
    (s : State) : (s.forPorts ps f).lb = s.lb := by simp [State.forPorts, h]

@[simp] theorem foldl_ref {α : Type} (f : State → α → State) (h : ∀ t x, (f t x).ref = t.ref) (l : List α) (s : State) :
    (l.foldl f s).ref = s.ref := foldl_keeps State.ref f h l s

@[simp] theorem ite_ref (c : Prop) [Decidable c] (a b : State) : (if c then a else b).ref = if c then a.ref else b.ref :=
  apply_ite State.ref c a b

@[simp] theorem State.forPorts_ref (ps : List Port) (f : Port → State → State) (h : ∀ p s, State.ref (f p s) = State.ref s)
    (s : State) : (s.forPorts ps f).ref = s.ref := by simp [State.forPorts, h]

@[simp] theorem foldl_ends {α : Type} (f : State → α → State) (h : ∀ t x, (f t x).ends = t.ends) (l : List α) (s : State) :
    (l.foldl f s).ends = s.ends := foldl_keeps State.ends f h l s

@[simp] theorem ite_ends (c : Prop) [Decidable c] (a b : State) : (if c then a else b).ends = if c then a.ends else b.ends :=
  apply_ite State.ends c a b

@[simp] theorem State.forPorts_ends (ps : List Port) (f : Port → State → State) (h : ∀ p s, State.ends (f p s) = State.ends s)
    (s : State) : (s.forPorts ps f).ends = s.ends := by simp [State.forPorts, h]

@[simp] theorem foldl_errs {α : Type} (f : State → α → State) (h : ∀ t x, (f t x).errs = t.errs) (l : List α) (s : State) :
    (l.foldl f s).errs = s.errs := foldl_keeps State.errs f h l s

@[simp] theorem ite_errs (c : Prop) [Decidable c] (a b : State) : (if c then a else b).errs = if c then a.errs else b.errs :=
  apply_ite State.errs c a b

@[simp] theorem State.forPorts_errs (ps : List Port) (f : Port → State → State) (h : ∀ p s, State.errs (f p s) = State.errs s)
    (s : State) : (s.forPorts ps f).errs = s.errs := by simp [State.forPorts, h]

@[simp] theorem foldl_level {α : Type} (f : State → α → State) (h : ∀ t x, (f t x).level = t.level) (l : List α) (s : State) :
    (l.foldl f s).level = s.level := foldl_keeps State.level f h l s

@[simp] theorem ite_level (c : Prop) [Decidable c] (a b : State) : (if c then a else b).level = if c then a.level else b.level :=
  apply_ite State.level c a b

@[simp] theorem State.forPorts_level (ps : List Port) (f : Port → State → State) (h : ∀ p s, State.level (f p s) = State.level s)
    (s : State) : (s.forPorts ps f).level = s.level := by simp [State.forPorts, h]

@[simp] theorem foldl_crossings {α : Type} (f : State → α → State) (h : ∀ t x, (f t x).crossings = t.crossings) (l : List α) (s : State) :
    (l.foldl f s).crossings = s.crossings := foldl_keeps State.crossings f h l s

@[simp] theorem ite_crossings (c : Prop) [Decidable c] (a b : State) : (if c then a else b).crossings = if c then a.crossings else b.crossings :=
  apply_ite State.crossings c a b

@[simp] theorem State.forPorts_crossings (ps : List Port) (f : Port → State → State) (h : ∀ p s, State.crossings (f p s) = State.crossings s)
    (s : State) : (s.forPorts ps f).crossings = s.crossings := by simp [State.forPorts, h]

@[simp] theorem foldl_fences {α : Type} (f : State → α → State) (h : ∀ t x, (f t x).fences = t.fences) (l : List α) (s : State) :
    (l.foldl f s).fences = s.fences := foldl_keeps State.fences f h l s

@[simp] theorem ite_fences (c : Prop) [Decidable c] (a b : State) : (if c then a else b).fences = if c then a.fences else b.fences :=
  apply_ite State.fences c a b

@[simp] theorem State.forPorts_fences (ps : List Port) (f : Port → State → State) (h : ∀ p s, State.fences (f p s) = State.fences s)
    (s : State) : (s.forPorts ps f).fences = s.fences := by simp [State.forPorts, h]

@[simp] theorem foldl_pending {α : Type} (f : State → α → State) (h : ∀ t x, (f t x).pending = t.pending) (l : List α) (s : State) :
    (l.foldl f s).pending = s.pending := foldl_keeps State.pending f h l s

@[simp] theorem ite_pending (c : Prop) [Decidable c] (a b : State) : (if c then a else b).pending = if c then a.pending else b.pending :=
  apply_ite State.pending c a b

@[simp] theorem State.forPorts_pending (ps : List Port) (f : Port → State → State) (h : ∀ p s, State.pending (f p s) = State.pending s)
    (s : State) : (s.forPorts ps f).pending = s.pending := by simp [State.forPorts, h]

/-! ### The operations -/

@[simp] theorem State.until_frame (t : Nat) (s : State) :
    (State.until t s).ao = s.ao ∧ (State.until t s).cd = s.cd ∧ (State.until t s).ld = s.ld ∧ (State.until t s).la = s.la
    ∧ (State.until t s).lb = s.lb ∧ (State.until t s).ref = s.ref ∧ (State.until t s).ends = s.ends ∧ (State.until t
    s).errs = s.errs ∧ (State.until t s).level = s.level ∧ (State.until t s).crossings = s.crossings ∧ (State.until t
    s).fences = s.fences ∧ (State.until t s).pending = s.pending := by and_intros <;> rfl

@[simp] theorem State.tick_frame (n : Nat) (s : State) :
    (State.tick n s).ao = s.ao ∧ (State.tick n s).cd = s.cd ∧ (State.tick n s).ld = s.ld ∧ (State.tick n s).la = s.la ∧
    (State.tick n s).lb = s.lb ∧ (State.tick n s).ref = s.ref ∧ (State.tick n s).ends = s.ends ∧ (State.tick n s).errs =
    s.errs ∧ (State.tick n s).level = s.level ∧ (State.tick n s).crossings = s.crossings ∧ (State.tick n s).fences =
    s.fences ∧ (State.tick n s).pending = s.pending := by and_intros <;> rfl

@[simp] theorem State.drawFree_frame (s : State) :
    (State.drawFree s).ao = s.ao ∧ (State.drawFree s).cd = s.cd ∧ (State.drawFree s).ld = s.ld ∧ (State.drawFree s).la =
    s.la ∧ (State.drawFree s).lb = s.lb ∧ (State.drawFree s).ref = s.ref ∧ (State.drawFree s).ends = s.ends ∧
    (State.drawFree s).errs = s.errs ∧ (State.drawFree s).level = s.level ∧ (State.drawFree s).crossings = s.crossings ∧
    (State.drawFree s).fences = s.fences ∧ (State.drawFree s).pending = s.pending := by and_intros <;> rfl

@[simp] theorem State.emit_frame (e : Emission) (s : State) :
    (State.emit e s).ao = s.ao ∧ (State.emit e s).cd = s.cd ∧ (State.emit e s).ld = s.ld ∧ (State.emit e s).la = s.la ∧
    (State.emit e s).lb = s.lb ∧ (State.emit e s).ref = s.ref ∧ (State.emit e s).ends = s.ends ∧ (State.emit e s).errs =
    s.errs ∧ (State.emit e s).level = s.level ∧ (State.emit e s).crossings = s.crossings ∧ (State.emit e s).fences =
    s.fences ∧ (State.emit e s).pending = s.pending := by and_intros <;> rfl

@[simp] theorem State.emits_frame (es : List Emission) (s : State) :
    (State.emits es s).ao = s.ao ∧ (State.emits es s).cd = s.cd ∧ (State.emits es s).ld = s.ld ∧ (State.emits es s).la =
    s.la ∧ (State.emits es s).lb = s.lb ∧ (State.emits es s).ref = s.ref ∧ (State.emits es s).ends = s.ends ∧ (State.emits
    es s).errs = s.errs ∧ (State.emits es s).level = s.level ∧ (State.emits es s).crossings = s.crossings ∧ (State.emits
    es s).fences = s.fences ∧ (State.emits es s).pending = s.pending := by and_intros <;> rfl

@[simp] theorem State.setDie_frame (d : Die) (v : LampDie) (s : State) :
    (State.setDie d v s).ao = s.ao ∧ (State.setDie d v s).cd = s.cd ∧ (State.setDie d v s).ld = s.ld ∧ (State.setDie d v
    s).ref = s.ref ∧ (State.setDie d v s).ends = s.ends ∧ (State.setDie d v s).errs = s.errs ∧ (State.setDie d v s).level
    = s.level ∧ (State.setDie d v s).crossings = s.crossings ∧ (State.setDie d v s).fences = s.fences ∧ (State.setDie d v
    s).pending = s.pending := by
  and_intros <;> first | rfl | (simp [State.setDie]; done) | ((unfold State.setDie; (try dsimp only); repeat' split) <;> first | rfl | simp [*])

@[simp] theorem State.setDie_other_la (v : LampDie) (s : State) :
    (State.setDie .la v s).lb = s.lb := rfl

@[simp] theorem State.setDie_other_lb (v : LampDie) (s : State) :
    (State.setDie .lb v s).la = s.la := rfl

@[simp] theorem State.modDie_frame (d : Die) (f : LampDie → LampDie) (s : State) :
    (State.modDie d f s).ao = s.ao ∧ (State.modDie d f s).cd = s.cd ∧ (State.modDie d f s).ld = s.ld ∧ (State.modDie d f
    s).ref = s.ref ∧ (State.modDie d f s).ends = s.ends ∧ (State.modDie d f s).errs = s.errs ∧ (State.modDie d f s).level
    = s.level ∧ (State.modDie d f s).crossings = s.crossings ∧ (State.modDie d f s).fences = s.fences ∧ (State.modDie d f
    s).pending = s.pending := by simp [State.modDie]

@[simp] theorem State.modDie_other_la (f : LampDie → LampDie) (s : State) :
    (State.modDie .la f s).lb = s.lb := rfl

@[simp] theorem State.modDie_other_lb (f : LampDie → LampDie) (s : State) :
    (State.modDie .lb f s).la = s.la := rfl

@[simp] theorem State.modRef_frame (f : Ref → Ref) (s : State) :
    (State.modRef f s).ao = s.ao ∧ (State.modRef f s).cd = s.cd ∧ (State.modRef f s).ld = s.ld ∧ (State.modRef f s).la =
    s.la ∧ (State.modRef f s).lb = s.lb ∧ (State.modRef f s).ends = s.ends ∧ (State.modRef f s).errs = s.errs ∧
    (State.modRef f s).level = s.level ∧ (State.modRef f s).crossings = s.crossings ∧ (State.modRef f s).fences = s.fences
    ∧ (State.modRef f s).pending = s.pending := by and_intros <;> rfl

@[simp] theorem State.modLd_frame (f : LineDie → LineDie) (s : State) :
    (State.modLd f s).ao = s.ao ∧ (State.modLd f s).cd = s.cd ∧ (State.modLd f s).la = s.la ∧ (State.modLd f s).lb = s.lb
    ∧ (State.modLd f s).ref = s.ref ∧ (State.modLd f s).ends = s.ends ∧ (State.modLd f s).errs = s.errs ∧ (State.modLd f
    s).level = s.level ∧ (State.modLd f s).crossings = s.crossings ∧ (State.modLd f s).fences = s.fences ∧ (State.modLd f
    s).pending = s.pending := by and_intros <;> rfl

@[simp] theorem State.modCd_frame (f : ControlDie → ControlDie) (s : State) :
    (State.modCd f s).ao = s.ao ∧ (State.modCd f s).ld = s.ld ∧ (State.modCd f s).la = s.la ∧ (State.modCd f s).lb = s.lb
    ∧ (State.modCd f s).ref = s.ref ∧ (State.modCd f s).ends = s.ends ∧ (State.modCd f s).errs = s.errs ∧ (State.modCd f
    s).level = s.level ∧ (State.modCd f s).crossings = s.crossings ∧ (State.modCd f s).fences = s.fences ∧ (State.modCd f
    s).pending = s.pending := by and_intros <;> rfl

@[simp] theorem State.modAo_frame (f : AlwaysOn → AlwaysOn) (s : State) :
    (State.modAo f s).cd = s.cd ∧ (State.modAo f s).ld = s.ld ∧ (State.modAo f s).la = s.la ∧ (State.modAo f s).lb = s.lb
    ∧ (State.modAo f s).ref = s.ref ∧ (State.modAo f s).ends = s.ends ∧ (State.modAo f s).errs = s.errs ∧ (State.modAo f
    s).level = s.level ∧ (State.modAo f s).crossings = s.crossings ∧ (State.modAo f s).fences = s.fences ∧ (State.modAo f
    s).pending = s.pending := by and_intros <;> rfl

@[simp] theorem State.modEng_frame (f : Engine → Engine) (s : State) :
    (State.modEng f s).ao = s.ao ∧ (State.modEng f s).cd = s.cd ∧ (State.modEng f s).la = s.la ∧ (State.modEng f s).lb =
    s.lb ∧ (State.modEng f s).ref = s.ref ∧ (State.modEng f s).ends = s.ends ∧ (State.modEng f s).errs = s.errs ∧
    (State.modEng f s).level = s.level ∧ (State.modEng f s).crossings = s.crossings ∧ (State.modEng f s).fences = s.fences
    ∧ (State.modEng f s).pending = s.pending := by and_intros <;> rfl

@[simp] theorem State.modPortH_frame (f : HostPort → HostPort) (s : State) :
    (State.modPortH f s).ao = s.ao ∧ (State.modPortH f s).ld = s.ld ∧ (State.modPortH f s).la = s.la ∧ (State.modPortH f
    s).lb = s.lb ∧ (State.modPortH f s).ref = s.ref ∧ (State.modPortH f s).ends = s.ends ∧ (State.modPortH f s).errs =
    s.errs ∧ (State.modPortH f s).level = s.level ∧ (State.modPortH f s).crossings = s.crossings ∧ (State.modPortH f
    s).fences = s.fences ∧ (State.modPortH f s).pending = s.pending := by and_intros <;> rfl

@[simp] theorem State.modNvm_frame (f : Nvm → Nvm) (s : State) :
    (State.modNvm f s).ao = s.ao ∧ (State.modNvm f s).ld = s.ld ∧ (State.modNvm f s).la = s.la ∧ (State.modNvm f s).lb =
    s.lb ∧ (State.modNvm f s).ref = s.ref ∧ (State.modNvm f s).ends = s.ends ∧ (State.modNvm f s).errs = s.errs ∧
    (State.modNvm f s).level = s.level ∧ (State.modNvm f s).crossings = s.crossings ∧ (State.modNvm f s).fences = s.fences
    ∧ (State.modNvm f s).pending = s.pending := by simp [State.modNvm]

@[simp] theorem State.modStore_frame (d : Die) (f : Store → Store) (s : State) :
    (State.modStore d f s).ao = s.ao ∧ (State.modStore d f s).cd = s.cd ∧ (State.modStore d f s).ld = s.ld ∧
    (State.modStore d f s).ref = s.ref ∧ (State.modStore d f s).ends = s.ends ∧ (State.modStore d f s).errs = s.errs ∧
    (State.modStore d f s).level = s.level ∧ (State.modStore d f s).crossings = s.crossings ∧ (State.modStore d f
    s).fences = s.fences ∧ (State.modStore d f s).pending = s.pending := by simp [State.modStore]

@[simp] theorem State.modStore_other_la (f : Store → Store) (s : State) :
    (State.modStore .la f s).lb = s.lb := rfl

@[simp] theorem State.modStore_other_lb (f : Store → Store) (s : State) :
    (State.modStore .lb f s).la = s.la := rfl

@[simp] theorem State.modEnd_frame (l : FLink) (e : LEnd) (f : LinkEnd → LinkEnd) (s : State) :
    (State.modEnd l e f s).ao = s.ao ∧ (State.modEnd l e f s).cd = s.cd ∧ (State.modEnd l e f s).ld = s.ld ∧ (State.modEnd
    l e f s).la = s.la ∧ (State.modEnd l e f s).lb = s.lb ∧ (State.modEnd l e f s).ref = s.ref ∧ (State.modEnd l e f
    s).errs = s.errs ∧ (State.modEnd l e f s).level = s.level ∧ (State.modEnd l e f s).crossings = s.crossings ∧
    (State.modEnd l e f s).fences = s.fences ∧ (State.modEnd l e f s).pending = s.pending := by and_intros <;> rfl

@[simp] theorem State.modErr_frame (l : FLink) (f : LinkErrors → LinkErrors) (s : State) :
    (State.modErr l f s).ao = s.ao ∧ (State.modErr l f s).cd = s.cd ∧ (State.modErr l f s).ld = s.ld ∧ (State.modErr l f
    s).la = s.la ∧ (State.modErr l f s).lb = s.lb ∧ (State.modErr l f s).ref = s.ref ∧ (State.modErr l f s).ends = s.ends
    ∧ (State.modErr l f s).level = s.level ∧ (State.modErr l f s).crossings = s.crossings ∧ (State.modErr l f s).fences =
    s.fences ∧ (State.modErr l f s).pending = s.pending := by and_intros <;> rfl

@[simp] theorem State.putLink_frame (l : FLink) (e : LEnd) (seq : Byte) (b : LinkBody) (s : State) :
    (State.putLink l e seq b s).ao = s.ao ∧ (State.putLink l e seq b s).cd = s.cd ∧ (State.putLink l e seq b s).ld = s.ld
    ∧ (State.putLink l e seq b s).la = s.la ∧ (State.putLink l e seq b s).lb = s.lb ∧ (State.putLink l e seq b s).ref =
    s.ref ∧ (State.putLink l e seq b s).errs = s.errs ∧ (State.putLink l e seq b s).level = s.level ∧ (State.putLink l e
    seq b s).crossings = s.crossings ∧ (State.putLink l e seq b s).fences = s.fences ∧ (State.putLink l e seq b s).pending
    = s.pending := by and_intros <;> rfl

@[simp] theorem State.sendLink_frame (l : FLink) (e : LEnd) (b : LinkBody) (s : State) :
    (State.sendLink l e b s).ao = s.ao ∧ (State.sendLink l e b s).cd = s.cd ∧ (State.sendLink l e b s).ld = s.ld ∧
    (State.sendLink l e b s).la = s.la ∧ (State.sendLink l e b s).lb = s.lb ∧ (State.sendLink l e b s).ref = s.ref ∧
    (State.sendLink l e b s).errs = s.errs ∧ (State.sendLink l e b s).level = s.level ∧ (State.sendLink l e b s).crossings
    = s.crossings ∧ (State.sendLink l e b s).fences = s.fences ∧ (State.sendLink l e b s).pending = s.pending := by and_intros <;> rfl

@[simp] theorem State.insertAlarm_frame (d : Die) (seq : Byte) (r : AlarmRecord) (s : State) :
    (State.insertAlarm d seq r s).ao = s.ao ∧ (State.insertAlarm d seq r s).cd = s.cd ∧ (State.insertAlarm d seq r s).ld =
    s.ld ∧ (State.insertAlarm d seq r s).ref = s.ref ∧ (State.insertAlarm d seq r s).errs = s.errs ∧ (State.insertAlarm d
    seq r s).level = s.level ∧ (State.insertAlarm d seq r s).crossings = s.crossings ∧ (State.insertAlarm d seq r
    s).fences = s.fences ∧ (State.insertAlarm d seq r s).pending = s.pending := by simp [State.insertAlarm]

@[simp] theorem State.insertAlarm_other_la (seq : Byte) (r : AlarmRecord) (s : State) :
    (State.insertAlarm .la seq r s).lb = s.lb := rfl

@[simp] theorem State.insertAlarm_other_lb (seq : Byte) (r : AlarmRecord) (s : State) :
    (State.insertAlarm .lb seq r s).la = s.la := rfl

@[simp] theorem State.answerLink_frame (l : FLink) (e : LEnd) (seq : Byte) (payload : List Byte) (s : State) :
    (State.answerLink l e seq payload s).ao = s.ao ∧ (State.answerLink l e seq payload s).cd = s.cd ∧ (State.answerLink l
    e seq payload s).ld = s.ld ∧ (State.answerLink l e seq payload s).la = s.la ∧ (State.answerLink l e seq payload s).lb
    = s.lb ∧ (State.answerLink l e seq payload s).ref = s.ref ∧ (State.answerLink l e seq payload s).errs = s.errs ∧
    (State.answerLink l e seq payload s).level = s.level ∧ (State.answerLink l e seq payload s).crossings = s.crossings ∧
    (State.answerLink l e seq payload s).fences = s.fences ∧ (State.answerLink l e seq payload s).pending = s.pending := by and_intros <;> rfl

@[simp] theorem State.sendCommand_frame (l : FLink) (i : Issuer) (payload : List Byte) (s : State) :
    (State.sendCommand l i payload s).ao = s.ao ∧ (State.sendCommand l i payload s).cd = s.cd ∧ (State.sendCommand l i
    payload s).ld = s.ld ∧ (State.sendCommand l i payload s).la = s.la ∧ (State.sendCommand l i payload s).lb = s.lb ∧
    (State.sendCommand l i payload s).ref = s.ref ∧ (State.sendCommand l i payload s).errs = s.errs ∧ (State.sendCommand l
    i payload s).level = s.level ∧ (State.sendCommand l i payload s).crossings = s.crossings ∧ (State.sendCommand l i
    payload s).fences = s.fences ∧ (State.sendCommand l i payload s).pending = s.pending := by and_intros <;> rfl

@[simp] theorem State.modLevel_frame (l : LLink) (f : LevelLink → LevelLink) (s : State) :
    (State.modLevel l f s).ao = s.ao ∧ (State.modLevel l f s).cd = s.cd ∧ (State.modLevel l f s).ld = s.ld ∧
    (State.modLevel l f s).la = s.la ∧ (State.modLevel l f s).lb = s.lb ∧ (State.modLevel l f s).ref = s.ref ∧
    (State.modLevel l f s).ends = s.ends ∧ (State.modLevel l f s).errs = s.errs ∧ (State.modLevel l f s).crossings =
    s.crossings ∧ (State.modLevel l f s).fences = s.fences ∧ (State.modLevel l f s).pending = s.pending := by and_intros <;> rfl

@[simp] theorem State.drive_frame (l : LLink) (v : Option Bool) (s : State) :
    (State.drive l v s).ao = s.ao ∧ (State.drive l v s).cd = s.cd ∧ (State.drive l v s).ld = s.ld ∧ (State.drive l v s).la
    = s.la ∧ (State.drive l v s).lb = s.lb ∧ (State.drive l v s).ref = s.ref ∧ (State.drive l v s).ends = s.ends ∧
    (State.drive l v s).errs = s.errs ∧ (State.drive l v s).crossings = s.crossings ∧ (State.drive l v s).fences =
    s.fences ∧ (State.drive l v s).pending = s.pending := by and_intros <;> rfl

@[simp] theorem State.take_frame (l : LLink) (v : Bool) (s : State) :
    (State.take l v s).ao = s.ao ∧ (State.take l v s).cd = s.cd ∧ (State.take l v s).ld = s.ld ∧ (State.take l v s).la =
    s.la ∧ (State.take l v s).lb = s.lb ∧ (State.take l v s).ref = s.ref ∧ (State.take l v s).ends = s.ends ∧ (State.take
    l v s).errs = s.errs ∧ (State.take l v s).crossings = s.crossings ∧ (State.take l v s).fences = s.fences ∧ (State.take
    l v s).pending = s.pending := by and_intros <;> rfl

@[simp] theorem State.modLane_frame (p : Port) (f : Lane → Lane) (s : State) :
    (State.modLane p f s).ao = s.ao ∧ (State.modLane p f s).cd = s.cd ∧ (State.modLane p f s).la = s.la ∧ (State.modLane p
    f s).lb = s.lb ∧ (State.modLane p f s).ref = s.ref ∧ (State.modLane p f s).ends = s.ends ∧ (State.modLane p f s).errs
    = s.errs ∧ (State.modLane p f s).level = s.level ∧ (State.modLane p f s).crossings = s.crossings ∧ (State.modLane p f
    s).fences = s.fences ∧ (State.modLane p f s).pending = s.pending := by and_intros <;> rfl

@[simp] theorem State.modPort_frame (p : Port) (f : PortState → PortState) (s : State) :
    (State.modPort p f s).ao = s.ao ∧ (State.modPort p f s).cd = s.cd ∧ (State.modPort p f s).la = s.la ∧ (State.modPort p
    f s).lb = s.lb ∧ (State.modPort p f s).ref = s.ref ∧ (State.modPort p f s).ends = s.ends ∧ (State.modPort p f s).errs
    = s.errs ∧ (State.modPort p f s).level = s.level ∧ (State.modPort p f s).crossings = s.crossings ∧ (State.modPort p f
    s).fences = s.fences ∧ (State.modPort p f s).pending = s.pending := by and_intros <;> rfl

@[simp] theorem State.modCounters_frame (p : Port) (f : PortCounters → PortCounters) (s : State) :
    (State.modCounters p f s).ao = s.ao ∧ (State.modCounters p f s).cd = s.cd ∧ (State.modCounters p f s).la = s.la ∧
    (State.modCounters p f s).lb = s.lb ∧ (State.modCounters p f s).ref = s.ref ∧ (State.modCounters p f s).ends = s.ends
    ∧ (State.modCounters p f s).errs = s.errs ∧ (State.modCounters p f s).level = s.level ∧ (State.modCounters p f
    s).crossings = s.crossings ∧ (State.modCounters p f s).fences = s.fences ∧ (State.modCounters p f s).pending =
    s.pending := by and_intros <;> rfl

@[simp] theorem State.modVend_frame (e : VEnd) (f : EndState → EndState) (s : State) :
    (State.modVend e f s).ao = s.ao ∧ (State.modVend e f s).cd = s.cd ∧ (State.modVend e f s).la = s.la ∧ (State.modVend e
    f s).lb = s.lb ∧ (State.modVend e f s).ref = s.ref ∧ (State.modVend e f s).ends = s.ends ∧ (State.modVend e f s).errs
    = s.errs ∧ (State.modVend e f s).level = s.level ∧ (State.modVend e f s).crossings = s.crossings ∧ (State.modVend e f
    s).fences = s.fences ∧ (State.modVend e f s).pending = s.pending := by and_intros <;> rfl

@[simp] theorem State.modLocal_frame (i : LocalIf) (f : LocalPort → LocalPort) (s : State) :
    (State.modLocal i f s).ao = s.ao ∧ (State.modLocal i f s).cd = s.cd ∧ (State.modLocal i f s).la = s.la ∧
    (State.modLocal i f s).lb = s.lb ∧ (State.modLocal i f s).ref = s.ref ∧ (State.modLocal i f s).ends = s.ends ∧
    (State.modLocal i f s).errs = s.errs ∧ (State.modLocal i f s).level = s.level ∧ (State.modLocal i f s).crossings =
    s.crossings ∧ (State.modLocal i f s).fences = s.fences ∧ (State.modLocal i f s).pending = s.pending := by and_intros <;> rfl

@[simp] theorem State.modTime_frame (d : Die) (f : TimeLink → TimeLink) (s : State) :
    (State.modTime d f s).ao = s.ao ∧ (State.modTime d f s).cd = s.cd ∧ (State.modTime d f s).la = s.la ∧ (State.modTime d
    f s).lb = s.lb ∧ (State.modTime d f s).ref = s.ref ∧ (State.modTime d f s).ends = s.ends ∧ (State.modTime d f s).errs
    = s.errs ∧ (State.modTime d f s).level = s.level ∧ (State.modTime d f s).crossings = s.crossings ∧ (State.modTime d f
    s).fences = s.fences ∧ (State.modTime d f s).pending = s.pending := by and_intros <;> rfl

@[simp] theorem State.modTime_other_la (f : TimeLink → TimeLink) (s : State) :
    (State.modTime .la f s).lb = s.lb := rfl

@[simp] theorem State.modTime_other_lb (f : TimeLink → TimeLink) (s : State) :
    (State.modTime .lb f s).la = s.la := rfl

@[simp] theorem State.modView_frame (d : Die) (f : RefView → RefView) (s : State) :
    (State.modView d f s).ao = s.ao ∧ (State.modView d f s).cd = s.cd ∧ (State.modView d f s).ld = s.ld ∧ (State.modView d
    f s).la = s.la ∧ (State.modView d f s).lb = s.lb ∧ (State.modView d f s).ends = s.ends ∧ (State.modView d f s).errs =
    s.errs ∧ (State.modView d f s).level = s.level ∧ (State.modView d f s).crossings = s.crossings ∧ (State.modView d f
    s).fences = s.fences ∧ (State.modView d f s).pending = s.pending := by and_intros <;> rfl

@[simp] theorem State.modView_other_la (f : RefView → RefView) (s : State) :
    (State.modView .la f s).lb = s.lb := rfl

@[simp] theorem State.modView_other_lb (f : RefView → RefView) (s : State) :
    (State.modView .lb f s).la = s.la := rfl

@[simp] theorem State.setTrainTime_frame (tt : TrainTime) (s : State) :
    (State.setTrainTime tt s).ao = s.ao ∧ (State.setTrainTime tt s).cd = s.cd ∧ (State.setTrainTime tt s).la = s.la ∧
    (State.setTrainTime tt s).lb = s.lb ∧ (State.setTrainTime tt s).ref = s.ref ∧ (State.setTrainTime tt s).ends = s.ends
    ∧ (State.setTrainTime tt s).errs = s.errs ∧ (State.setTrainTime tt s).level = s.level ∧ (State.setTrainTime tt
    s).crossings = s.crossings ∧ (State.setTrainTime tt s).fences = s.fences ∧ (State.setTrainTime tt s).pending =
    s.pending := by and_intros <;> rfl

@[simp] theorem State.setRate_frame (ppb : Int) (s : State) :
    (State.setRate ppb s).ao = s.ao ∧ (State.setRate ppb s).cd = s.cd ∧ (State.setRate ppb s).la = s.la ∧ (State.setRate
    ppb s).lb = s.lb ∧ (State.setRate ppb s).ref = s.ref ∧ (State.setRate ppb s).ends = s.ends ∧ (State.setRate ppb
    s).errs = s.errs ∧ (State.setRate ppb s).level = s.level ∧ (State.setRate ppb s).crossings = s.crossings ∧
    (State.setRate ppb s).fences = s.fences ∧ (State.setRate ppb s).pending = s.pending := by and_intros <;> rfl

@[simp] theorem State.setEvent_frame (code : Nat) (s : State) :
    (State.setEvent code s).ao = s.ao ∧ (State.setEvent code s).ld = s.ld ∧ (State.setEvent code s).la = s.la ∧
    (State.setEvent code s).lb = s.lb ∧ (State.setEvent code s).ref = s.ref ∧ (State.setEvent code s).ends = s.ends ∧
    (State.setEvent code s).errs = s.errs ∧ (State.setEvent code s).level = s.level ∧ (State.setEvent code s).crossings =
    s.crossings ∧ (State.setEvent code s).fences = s.fences ∧ (State.setEvent code s).pending = s.pending := by and_intros <;> rfl

@[simp] theorem State.writeRec_frame (r : FaultRec) (s : State) :
    (State.writeRec r s).ao = s.ao ∧ (State.writeRec r s).ld = s.ld ∧ (State.writeRec r s).la = s.la ∧ (State.writeRec r
    s).lb = s.lb ∧ (State.writeRec r s).ref = s.ref ∧ (State.writeRec r s).ends = s.ends ∧ (State.writeRec r s).errs =
    s.errs ∧ (State.writeRec r s).level = s.level ∧ (State.writeRec r s).crossings = s.crossings ∧ (State.writeRec r
    s).fences = s.fences ∧ (State.writeRec r s).pending = s.pending := by simp [State.writeRec]

@[simp] theorem State.modBook_frame (f : FaultBook → FaultBook) (s : State) :
    (State.modBook f s).ao = s.ao ∧ (State.modBook f s).ld = s.ld ∧ (State.modBook f s).la = s.la ∧ (State.modBook f s).lb
    = s.lb ∧ (State.modBook f s).ref = s.ref ∧ (State.modBook f s).ends = s.ends ∧ (State.modBook f s).errs = s.errs ∧
    (State.modBook f s).level = s.level ∧ (State.modBook f s).crossings = s.crossings ∧ (State.modBook f s).fences =
    s.fences ∧ (State.modBook f s).pending = s.pending := by and_intros <;> rfl

@[simp] theorem State.writeSummary_frame (r : FaultRec) (s : State) :
    (State.writeSummary r s).ao = s.ao ∧ (State.writeSummary r s).ld = s.ld ∧ (State.writeSummary r s).la = s.la ∧
    (State.writeSummary r s).lb = s.lb ∧ (State.writeSummary r s).ref = s.ref ∧ (State.writeSummary r s).ends = s.ends ∧
    (State.writeSummary r s).errs = s.errs ∧ (State.writeSummary r s).level = s.level ∧ (State.writeSummary r s).crossings
    = s.crossings ∧ (State.writeSummary r s).fences = s.fences ∧ (State.writeSummary r s).pending = s.pending := by simp [State.writeSummary]

@[simp] theorem State.mergeEvent_frame (r : FaultRec) (s : State) :
    (State.mergeEvent r s).ao = s.ao ∧ (State.mergeEvent r s).ld = s.ld ∧ (State.mergeEvent r s).la = s.la ∧
    (State.mergeEvent r s).lb = s.lb ∧ (State.mergeEvent r s).ref = s.ref ∧ (State.mergeEvent r s).ends = s.ends ∧
    (State.mergeEvent r s).errs = s.errs ∧ (State.mergeEvent r s).level = s.level ∧ (State.mergeEvent r s).crossings =
    s.crossings ∧ (State.mergeEvent r s).fences = s.fences ∧ (State.mergeEvent r s).pending = s.pending := by
  and_intros <;> first | rfl | (simp [State.mergeEvent]; done) | ((unfold State.mergeEvent; (try dsimp only); repeat' split) <;> first | rfl | simp [*])

@[simp] theorem State.recordEvent_frame (r : FaultRec) (s : State) :
    (State.recordEvent r s).ao = s.ao ∧ (State.recordEvent r s).ld = s.ld ∧ (State.recordEvent r s).la = s.la ∧
    (State.recordEvent r s).lb = s.lb ∧ (State.recordEvent r s).ref = s.ref ∧ (State.recordEvent r s).ends = s.ends ∧
    (State.recordEvent r s).errs = s.errs ∧ (State.recordEvent r s).level = s.level ∧ (State.recordEvent r s).crossings =
    s.crossings ∧ (State.recordEvent r s).fences = s.fences ∧ (State.recordEvent r s).pending = s.pending := by simp [State.recordEvent]

@[simp] theorem State.recordCond_frame (r : FaultRec) (s : State) :
    (State.recordCond r s).ao = s.ao ∧ (State.recordCond r s).ld = s.ld ∧ (State.recordCond r s).la = s.la ∧
    (State.recordCond r s).lb = s.lb ∧ (State.recordCond r s).ref = s.ref ∧ (State.recordCond r s).ends = s.ends ∧
    (State.recordCond r s).errs = s.errs ∧ (State.recordCond r s).level = s.level ∧ (State.recordCond r s).crossings =
    s.crossings ∧ (State.recordCond r s).fences = s.fences ∧ (State.recordCond r s).pending = s.pending := by simp [State.recordCond]

@[simp] theorem State.cdRaiseFrom_frame (src : Byte) (tt : TrainTime) (rep : Half) (f : FaultDef) (subject : Byte) (data :
    List Byte) (s : State) :
    (State.cdRaiseFrom src tt rep f subject data s).ao = s.ao ∧ (State.cdRaiseFrom src tt rep f subject data s).ld = s.ld
    ∧ (State.cdRaiseFrom src tt rep f subject data s).la = s.la ∧ (State.cdRaiseFrom src tt rep f subject data s).lb =
    s.lb ∧ (State.cdRaiseFrom src tt rep f subject data s).ref = s.ref ∧ (State.cdRaiseFrom src tt rep f subject data
    s).ends = s.ends ∧ (State.cdRaiseFrom src tt rep f subject data s).errs = s.errs ∧ (State.cdRaiseFrom src tt rep f
    subject data s).level = s.level ∧ (State.cdRaiseFrom src tt rep f subject data s).crossings = s.crossings ∧
    (State.cdRaiseFrom src tt rep f subject data s).fences = s.fences ∧ (State.cdRaiseFrom src tt rep f subject data
    s).pending = s.pending := by simp [State.cdRaiseFrom]

@[simp] theorem State.cdClearFrom_frame (src : Byte) (tt : TrainTime) (f : FaultDef) (subject : Byte) (s : State) :
    (State.cdClearFrom src tt f subject s).ao = s.ao ∧ (State.cdClearFrom src tt f subject s).ld = s.ld ∧
    (State.cdClearFrom src tt f subject s).la = s.la ∧ (State.cdClearFrom src tt f subject s).lb = s.lb ∧
    (State.cdClearFrom src tt f subject s).ref = s.ref ∧ (State.cdClearFrom src tt f subject s).ends = s.ends ∧
    (State.cdClearFrom src tt f subject s).errs = s.errs ∧ (State.cdClearFrom src tt f subject s).level = s.level ∧
    (State.cdClearFrom src tt f subject s).crossings = s.crossings ∧ (State.cdClearFrom src tt f subject s).fences =
    s.fences ∧ (State.cdClearFrom src tt f subject s).pending = s.pending := by
  and_intros <;> first | rfl | (simp [State.cdClearFrom]; done) | ((unfold State.cdClearFrom; (try dsimp only); repeat' split) <;> first | rfl | simp [*])

@[simp] theorem State.ldReport_frame (event : BitVec 2) (f : FaultDef) (subject : Byte) (data : List Byte) (s : State) :
    (State.ldReport event f subject data s).ao = s.ao ∧ (State.ldReport event f subject data s).la = s.la ∧
    (State.ldReport event f subject data s).lb = s.lb ∧ (State.ldReport event f subject data s).ref = s.ref ∧
    (State.ldReport event f subject data s).ends = s.ends ∧ (State.ldReport event f subject data s).errs = s.errs ∧
    (State.ldReport event f subject data s).level = s.level ∧ (State.ldReport event f subject data s).crossings =
    s.crossings ∧ (State.ldReport event f subject data s).fences = s.fences ∧ (State.ldReport event f subject data
    s).pending = s.pending := by simp [State.ldReport]

@[simp] theorem State.ldRaise_frame (f : FaultDef) (subject : Byte) (data : List Byte) (s : State) :
    (State.ldRaise f subject data s).ao = s.ao ∧ (State.ldRaise f subject data s).la = s.la ∧ (State.ldRaise f subject
    data s).lb = s.lb ∧ (State.ldRaise f subject data s).ref = s.ref ∧ (State.ldRaise f subject data s).ends = s.ends ∧
    (State.ldRaise f subject data s).errs = s.errs ∧ (State.ldRaise f subject data s).level = s.level ∧ (State.ldRaise f
    subject data s).crossings = s.crossings ∧ (State.ldRaise f subject data s).fences = s.fences ∧ (State.ldRaise f
    subject data s).pending = s.pending := by simp [State.ldRaise]

@[simp] theorem State.ldClear_frame (f : FaultDef) (subject : Byte) (s : State) :
    (State.ldClear f subject s).ao = s.ao ∧ (State.ldClear f subject s).la = s.la ∧ (State.ldClear f subject s).lb = s.lb
    ∧ (State.ldClear f subject s).ref = s.ref ∧ (State.ldClear f subject s).ends = s.ends ∧ (State.ldClear f subject
    s).errs = s.errs ∧ (State.ldClear f subject s).level = s.level ∧ (State.ldClear f subject s).crossings = s.crossings ∧
    (State.ldClear f subject s).fences = s.fences ∧ (State.ldClear f subject s).pending = s.pending := by simp [State.ldClear]

@[simp] theorem State.cdRaise_frame (f : FaultDef) (subject : Byte) (data : List Byte) (s : State) :
    (State.cdRaise f subject data s).ao = s.ao ∧ (State.cdRaise f subject data s).ld = s.ld ∧ (State.cdRaise f subject
    data s).la = s.la ∧ (State.cdRaise f subject data s).lb = s.lb ∧ (State.cdRaise f subject data s).ref = s.ref ∧
    (State.cdRaise f subject data s).ends = s.ends ∧ (State.cdRaise f subject data s).errs = s.errs ∧ (State.cdRaise f
    subject data s).level = s.level ∧ (State.cdRaise f subject data s).crossings = s.crossings ∧ (State.cdRaise f subject
    data s).fences = s.fences ∧ (State.cdRaise f subject data s).pending = s.pending := by simp [State.cdRaise]

@[simp] theorem State.cdClear_frame (f : FaultDef) (subject : Byte) (s : State) :
    (State.cdClear f subject s).ao = s.ao ∧ (State.cdClear f subject s).ld = s.ld ∧ (State.cdClear f subject s).la = s.la
    ∧ (State.cdClear f subject s).lb = s.lb ∧ (State.cdClear f subject s).ref = s.ref ∧ (State.cdClear f subject s).ends =
    s.ends ∧ (State.cdClear f subject s).errs = s.errs ∧ (State.cdClear f subject s).level = s.level ∧ (State.cdClear f
    subject s).crossings = s.crossings ∧ (State.cdClear f subject s).fences = s.fences ∧ (State.cdClear f subject
    s).pending = s.pending := by simp [State.cdClear]

@[simp] theorem State.sendReport_frame (l : FLink) (r : DieReport) (s : State) :
    (State.sendReport l r s).ao = s.ao ∧ (State.sendReport l r s).cd = s.cd ∧ (State.sendReport l r s).ld = s.ld ∧
    (State.sendReport l r s).la = s.la ∧ (State.sendReport l r s).lb = s.lb ∧ (State.sendReport l r s).ref = s.ref ∧
    (State.sendReport l r s).errs = s.errs ∧ (State.sendReport l r s).level = s.level ∧ (State.sendReport l r s).crossings
    = s.crossings ∧ (State.sendReport l r s).fences = s.fences ∧ (State.sendReport l r s).pending = s.pending := by simp [State.sendReport]

@[simp] theorem State.sendQueued_frame (l : FLink) (seq : Byte) (q : List DieReport) (s : State) :
    (State.sendQueued l seq q s).ao = s.ao ∧ (State.sendQueued l seq q s).cd = s.cd ∧ (State.sendQueued l seq q s).ld =
    s.ld ∧ (State.sendQueued l seq q s).la = s.la ∧ (State.sendQueued l seq q s).lb = s.lb ∧ (State.sendQueued l seq q
    s).ref = s.ref ∧ (State.sendQueued l seq q s).errs = s.errs ∧ (State.sendQueued l seq q s).level = s.level ∧
    (State.sendQueued l seq q s).crossings = s.crossings ∧ (State.sendQueued l seq q s).fences = s.fences ∧
    (State.sendQueued l seq q s).pending = s.pending := by
  and_intros <;> first | rfl | (simp [State.sendQueued]; done) | ((unfold State.sendQueued; (try dsimp only); repeat' split) <;> first | rfl | simp [*])

@[simp] theorem State.dieReport_frame (d : Die) (event : BitVec 2) (f : FaultDef) (subject : Byte) (data : List Byte) (s :
    State) :
    (State.dieReport d event f subject data s).ao = s.ao ∧ (State.dieReport d event f subject data s).cd = s.cd ∧
    (State.dieReport d event f subject data s).ld = s.ld ∧ (State.dieReport d event f subject data s).ref = s.ref ∧
    (State.dieReport d event f subject data s).errs = s.errs ∧ (State.dieReport d event f subject data s).level = s.level
    ∧ (State.dieReport d event f subject data s).crossings = s.crossings ∧ (State.dieReport d event f subject data
    s).fences = s.fences ∧ (State.dieReport d event f subject data s).pending = s.pending := by simp [State.dieReport]

@[simp] theorem State.dieReport_other_la (event : BitVec 2) (f : FaultDef) (subject : Byte) (data : List Byte) (s : State) :
    (State.dieReport .la event f subject data s).lb = s.lb := by simp [State.dieReport]

@[simp] theorem State.dieReport_other_lb (event : BitVec 2) (f : FaultDef) (subject : Byte) (data : List Byte) (s : State) :
    (State.dieReport .lb event f subject data s).la = s.la := by simp [State.dieReport]

@[simp] theorem State.dieRaise_frame (d : Die) (f : FaultDef) (subject : Byte) (data : List Byte) (s : State) :
    (State.dieRaise d f subject data s).ao = s.ao ∧ (State.dieRaise d f subject data s).cd = s.cd ∧ (State.dieRaise d f
    subject data s).ld = s.ld ∧ (State.dieRaise d f subject data s).ref = s.ref ∧ (State.dieRaise d f subject data s).errs
    = s.errs ∧ (State.dieRaise d f subject data s).level = s.level ∧ (State.dieRaise d f subject data s).crossings =
    s.crossings ∧ (State.dieRaise d f subject data s).fences = s.fences ∧ (State.dieRaise d f subject data s).pending =
    s.pending := by simp [State.dieRaise]

@[simp] theorem State.dieRaise_other_la (f : FaultDef) (subject : Byte) (data : List Byte) (s : State) :
    (State.dieRaise .la f subject data s).lb = s.lb := by simp [State.dieRaise]

@[simp] theorem State.dieRaise_other_lb (f : FaultDef) (subject : Byte) (data : List Byte) (s : State) :
    (State.dieRaise .lb f subject data s).la = s.la := by simp [State.dieRaise]

@[simp] theorem State.dieClear_frame (d : Die) (f : FaultDef) (subject : Byte) (s : State) :
    (State.dieClear d f subject s).ao = s.ao ∧ (State.dieClear d f subject s).cd = s.cd ∧ (State.dieClear d f subject
    s).ld = s.ld ∧ (State.dieClear d f subject s).ref = s.ref ∧ (State.dieClear d f subject s).errs = s.errs ∧
    (State.dieClear d f subject s).level = s.level ∧ (State.dieClear d f subject s).crossings = s.crossings ∧
    (State.dieClear d f subject s).fences = s.fences ∧ (State.dieClear d f subject s).pending = s.pending := by simp [State.dieClear]

@[simp] theorem State.dieClear_other_la (f : FaultDef) (subject : Byte) (s : State) :
    (State.dieClear .la f subject s).lb = s.lb := by simp [State.dieClear]

@[simp] theorem State.dieClear_other_lb (f : FaultDef) (subject : Byte) (s : State) :
    (State.dieClear .lb f subject s).la = s.la := by simp [State.dieClear]

@[simp] theorem State.dieCond_frame (d : Die) (f : FaultDef) (subject : Byte) (data : List Byte) (holds : Bool) (s : State)
    :
    (State.dieCond d f subject data holds s).ao = s.ao ∧ (State.dieCond d f subject data holds s).cd = s.cd ∧
    (State.dieCond d f subject data holds s).ld = s.ld ∧ (State.dieCond d f subject data holds s).ref = s.ref ∧
    (State.dieCond d f subject data holds s).errs = s.errs ∧ (State.dieCond d f subject data holds s).level = s.level ∧
    (State.dieCond d f subject data holds s).crossings = s.crossings ∧ (State.dieCond d f subject data holds s).fences =
    s.fences ∧ (State.dieCond d f subject data holds s).pending = s.pending := by simp [State.dieCond]

@[simp] theorem State.dieCond_other_la (f : FaultDef) (subject : Byte) (data : List Byte) (holds : Bool) (s : State) :
    (State.dieCond .la f subject data holds s).lb = s.lb := by simp [State.dieCond]

@[simp] theorem State.dieCond_other_lb (f : FaultDef) (subject : Byte) (data : List Byte) (holds : Bool) (s : State) :
    (State.dieCond .lb f subject data holds s).la = s.la := by simp [State.dieCond]

@[simp] theorem State.refReport_frame (event : BitVec 2) (f : FaultDef) (subject : Byte) (data : List Byte) (s : State) :
    (State.refReport event f subject data s).ao = s.ao ∧ (State.refReport event f subject data s).cd = s.cd ∧
    (State.refReport event f subject data s).ld = s.ld ∧ (State.refReport event f subject data s).la = s.la ∧
    (State.refReport event f subject data s).lb = s.lb ∧ (State.refReport event f subject data s).errs = s.errs ∧
    (State.refReport event f subject data s).level = s.level ∧ (State.refReport event f subject data s).crossings =
    s.crossings ∧ (State.refReport event f subject data s).fences = s.fences ∧ (State.refReport event f subject data
    s).pending = s.pending := by simp [State.refReport]

@[simp] theorem State.refRaise_frame (f : FaultDef) (subject : Byte) (data : List Byte) (s : State) :
    (State.refRaise f subject data s).ao = s.ao ∧ (State.refRaise f subject data s).cd = s.cd ∧ (State.refRaise f subject
    data s).ld = s.ld ∧ (State.refRaise f subject data s).la = s.la ∧ (State.refRaise f subject data s).lb = s.lb ∧
    (State.refRaise f subject data s).errs = s.errs ∧ (State.refRaise f subject data s).level = s.level ∧ (State.refRaise
    f subject data s).crossings = s.crossings ∧ (State.refRaise f subject data s).fences = s.fences ∧ (State.refRaise f
    subject data s).pending = s.pending := by simp [State.refRaise]

@[simp] theorem State.refClear_frame (f : FaultDef) (subject : Byte) (s : State) :
    (State.refClear f subject s).ao = s.ao ∧ (State.refClear f subject s).cd = s.cd ∧ (State.refClear f subject s).ld =
    s.ld ∧ (State.refClear f subject s).la = s.la ∧ (State.refClear f subject s).lb = s.lb ∧ (State.refClear f subject
    s).errs = s.errs ∧ (State.refClear f subject s).level = s.level ∧ (State.refClear f subject s).crossings = s.crossings
    ∧ (State.refClear f subject s).fences = s.fences ∧ (State.refClear f subject s).pending = s.pending := by simp [State.refClear]

@[simp] theorem State.resendDie_frame (d : Die) (s : State) :
    (State.resendDie d s).ao = s.ao ∧ (State.resendDie d s).cd = s.cd ∧ (State.resendDie d s).ld = s.ld ∧ (State.resendDie
    d s).ref = s.ref ∧ (State.resendDie d s).errs = s.errs ∧ (State.resendDie d s).level = s.level ∧ (State.resendDie d
    s).crossings = s.crossings ∧ (State.resendDie d s).fences = s.fences ∧ (State.resendDie d s).pending = s.pending := by simp [State.resendDie]

@[simp] theorem State.resendDie_other_la (s : State) :
    (State.resendDie .la s).lb = s.lb := by simp [State.resendDie]

@[simp] theorem State.resendDie_other_lb (s : State) :
    (State.resendDie .lb s).la = s.la := by simp [State.resendDie]

@[simp] theorem State.resendRef_frame (s : State) :
    (State.resendRef s).ao = s.ao ∧ (State.resendRef s).cd = s.cd ∧ (State.resendRef s).ld = s.ld ∧ (State.resendRef s).la
    = s.la ∧ (State.resendRef s).lb = s.lb ∧ (State.resendRef s).errs = s.errs ∧ (State.resendRef s).level = s.level ∧
    (State.resendRef s).crossings = s.crossings ∧ (State.resendRef s).fences = s.fences ∧ (State.resendRef s).pending =
    s.pending := by simp [State.resendRef]

@[simp] theorem State.raiseAt_frame (st : Station) (f : FaultDef) (subject : Byte) (data : List Byte) (s : State) :
    (State.raiseAt st f subject data s).ao = s.ao ∧ (State.raiseAt st f subject data s).errs = s.errs ∧ (State.raiseAt st
    f subject data s).level = s.level ∧ (State.raiseAt st f subject data s).crossings = s.crossings ∧ (State.raiseAt st f
    subject data s).fences = s.fences ∧ (State.raiseAt st f subject data s).pending = s.pending := by
  and_intros <;> first | rfl | (simp [State.raiseAt]; done) | ((unfold State.raiseAt; (try dsimp only); repeat' split) <;> first | rfl | simp [*])

@[simp] theorem State.clearAt_frame (st : Station) (f : FaultDef) (subject : Byte) (s : State) :
    (State.clearAt st f subject s).ao = s.ao ∧ (State.clearAt st f subject s).errs = s.errs ∧ (State.clearAt st f subject
    s).level = s.level ∧ (State.clearAt st f subject s).crossings = s.crossings ∧ (State.clearAt st f subject s).fences =
    s.fences ∧ (State.clearAt st f subject s).pending = s.pending := by
  and_intros <;> first | rfl | (simp [State.clearAt]; done) | ((unfold State.clearAt; (try dsimp only); repeat' split) <;> first | rfl | simp [*])

@[simp] theorem State.sendState_frame (effect : Word) (epoch : Half) (s : State) :
    (State.sendState effect epoch s).ao = s.ao ∧ (State.sendState effect epoch s).ld = s.ld ∧ (State.sendState effect
    epoch s).la = s.la ∧ (State.sendState effect epoch s).lb = s.lb ∧ (State.sendState effect epoch s).ref = s.ref ∧
    (State.sendState effect epoch s).errs = s.errs ∧ (State.sendState effect epoch s).level = s.level ∧ (State.sendState
    effect epoch s).crossings = s.crossings ∧ (State.sendState effect epoch s).fences = s.fences ∧ (State.sendState effect
    epoch s).pending = s.pending := by simp [State.sendState]

@[simp] theorem State.refreshState_frame (s : State) :
    (State.refreshState s).ao = s.ao ∧ (State.refreshState s).ld = s.ld ∧ (State.refreshState s).la = s.la ∧
    (State.refreshState s).lb = s.lb ∧ (State.refreshState s).ref = s.ref ∧ (State.refreshState s).errs = s.errs ∧
    (State.refreshState s).level = s.level ∧ (State.refreshState s).crossings = s.crossings ∧ (State.refreshState
    s).fences = s.fences ∧ (State.refreshState s).pending = s.pending := by simp [State.refreshState]

@[simp] theorem State.checkHvApplied_frame (s : State) :
    (State.checkHvApplied s).ao = s.ao ∧ (State.checkHvApplied s).ld = s.ld ∧ (State.checkHvApplied s).la = s.la ∧
    (State.checkHvApplied s).lb = s.lb ∧ (State.checkHvApplied s).ref = s.ref ∧ (State.checkHvApplied s).ends = s.ends ∧
    (State.checkHvApplied s).errs = s.errs ∧ (State.checkHvApplied s).level = s.level ∧ (State.checkHvApplied s).crossings
    = s.crossings ∧ (State.checkHvApplied s).fences = s.fences ∧ (State.checkHvApplied s).pending = s.pending := by simp [State.checkHvApplied]

@[simp] theorem State.configNext_frame (d : HvDie) (s : State) :
    (State.configNext d s).ao = s.ao ∧ (State.configNext d s).ld = s.ld ∧ (State.configNext d s).la = s.la ∧
    (State.configNext d s).lb = s.lb ∧ (State.configNext d s).ref = s.ref ∧ (State.configNext d s).errs = s.errs ∧
    (State.configNext d s).level = s.level ∧ (State.configNext d s).crossings = s.crossings ∧ (State.configNext d
    s).fences = s.fences ∧ (State.configNext d s).pending = s.pending := by
  and_intros <;> first | rfl | (simp [State.configNext]; done) | ((unfold State.configNext; (try dsimp only); repeat' split) <;> first | rfl | simp [*])

@[simp] theorem State.configureDie_frame (d : HvDie) (s : State) :
    (State.configureDie d s).ao = s.ao ∧ (State.configureDie d s).ld = s.ld ∧ (State.configureDie d s).la = s.la ∧
    (State.configureDie d s).lb = s.lb ∧ (State.configureDie d s).ref = s.ref ∧ (State.configureDie d s).errs = s.errs ∧
    (State.configureDie d s).level = s.level ∧ (State.configureDie d s).crossings = s.crossings ∧ (State.configureDie d
    s).fences = s.fences ∧ (State.configureDie d s).pending = s.pending := by simp [State.configureDie]

@[simp] theorem State.blockInvalid_frame (check : Byte) (index : Byte) (s : State) :
    (State.blockInvalid check index s).ao = s.ao ∧ (State.blockInvalid check index s).ld = s.ld ∧ (State.blockInvalid
    check index s).la = s.la ∧ (State.blockInvalid check index s).lb = s.lb ∧ (State.blockInvalid check index s).ref =
    s.ref ∧ (State.blockInvalid check index s).ends = s.ends ∧ (State.blockInvalid check index s).errs = s.errs ∧
    (State.blockInvalid check index s).level = s.level ∧ (State.blockInvalid check index s).crossings = s.crossings ∧
    (State.blockInvalid check index s).fences = s.fences ∧ (State.blockInvalid check index s).pending = s.pending := by simp [State.blockInvalid]

@[simp] theorem State.configAnswer_frame (d : HvDie) (l : List Byte) (s : State) :
    (State.configAnswer d l s).ao = s.ao ∧ (State.configAnswer d l s).ld = s.ld ∧ (State.configAnswer d l s).la = s.la ∧
    (State.configAnswer d l s).lb = s.lb ∧ (State.configAnswer d l s).ref = s.ref ∧ (State.configAnswer d l s).errs =
    s.errs ∧ (State.configAnswer d l s).level = s.level ∧ (State.configAnswer d l s).crossings = s.crossings ∧
    (State.configAnswer d l s).fences = s.fences ∧ (State.configAnswer d l s).pending = s.pending := by
  and_intros <;> first | rfl | (simp [State.configAnswer]; done) | ((unfold State.configAnswer; (try dsimp only); repeat' split) <;> first | rfl | simp [*])

@[simp] theorem State.nextSeq_frame (p : Port) (b : LineBody) (s : State) :
    (State.nextSeq p b s).1.ao = s.ao ∧ (State.nextSeq p b s).1.cd = s.cd ∧ (State.nextSeq p b s).1.la = s.la ∧
    (State.nextSeq p b s).1.lb = s.lb ∧ (State.nextSeq p b s).1.ref = s.ref ∧ (State.nextSeq p b s).1.ends = s.ends ∧
    (State.nextSeq p b s).1.errs = s.errs ∧ (State.nextSeq p b s).1.level = s.level ∧ (State.nextSeq p b s).1.crossings =
    s.crossings ∧ (State.nextSeq p b s).1.fences = s.fences ∧ (State.nextSeq p b s).1.pending = s.pending := by
  and_intros <;> first | rfl | (simp [State.nextSeq]; done) | ((unfold State.nextSeq; (try dsimp only); repeat' split) <;> first | rfl | simp [*])

@[simp] theorem State.pushControl_frame (p : Port) (f : LineFrame) (s : State) :
    (State.pushControl p f s).ao = s.ao ∧ (State.pushControl p f s).cd = s.cd ∧ (State.pushControl p f s).la = s.la ∧
    (State.pushControl p f s).lb = s.lb ∧ (State.pushControl p f s).ref = s.ref ∧ (State.pushControl p f s).ends = s.ends
    ∧ (State.pushControl p f s).errs = s.errs ∧ (State.pushControl p f s).level = s.level ∧ (State.pushControl p f
    s).crossings = s.crossings ∧ (State.pushControl p f s).fences = s.fences ∧ (State.pushControl p f s).pending =
    s.pending := by and_intros <;> rfl

@[simp] theorem State.sendHop_frame (p : Port) (b : LineBody) (s : State) :
    (State.sendHop p b s).ao = s.ao ∧ (State.sendHop p b s).cd = s.cd ∧ (State.sendHop p b s).la = s.la ∧ (State.sendHop p
    b s).lb = s.lb ∧ (State.sendHop p b s).ref = s.ref ∧ (State.sendHop p b s).ends = s.ends ∧ (State.sendHop p b s).errs
    = s.errs ∧ (State.sendHop p b s).level = s.level ∧ (State.sendHop p b s).crossings = s.crossings ∧ (State.sendHop p b
    s).fences = s.fences ∧ (State.sendHop p b s).pending = s.pending := by simp [State.sendHop]

@[simp] theorem State.addKey_frame (k : FloodKey) (s : State) :
    (State.addKey k s).ao = s.ao ∧ (State.addKey k s).cd = s.cd ∧ (State.addKey k s).la = s.la ∧ (State.addKey k s).lb =
    s.lb ∧ (State.addKey k s).ref = s.ref ∧ (State.addKey k s).ends = s.ends ∧ (State.addKey k s).errs = s.errs ∧
    (State.addKey k s).level = s.level ∧ (State.addKey k s).crossings = s.crossings ∧ (State.addKey k s).fences = s.fences
    ∧ (State.addKey k s).pending = s.pending := by and_intros <;> rfl

@[simp] theorem State.sendFlood_frame (p : Port) (f : LineFrame) (s : State) :
    (State.sendFlood p f s).ao = s.ao ∧ (State.sendFlood p f s).cd = s.cd ∧ (State.sendFlood p f s).la = s.la ∧
    (State.sendFlood p f s).lb = s.lb ∧ (State.sendFlood p f s).ref = s.ref ∧ (State.sendFlood p f s).ends = s.ends ∧
    (State.sendFlood p f s).errs = s.errs ∧ (State.sendFlood p f s).level = s.level ∧ (State.sendFlood p f s).crossings =
    s.crossings ∧ (State.sendFlood p f s).fences = s.fences ∧ (State.sendFlood p f s).pending = s.pending := by
  and_intros <;> first | rfl | (simp [State.sendFlood]; done) | ((unfold State.sendFlood; (try dsimp only); repeat' split) <;> first | rfl | simp [*])

@[simp] theorem State.forwardFlood_frame (p : Port) (f : LineFrame) (s : State) :
    (State.forwardFlood p f s).ao = s.ao ∧ (State.forwardFlood p f s).cd = s.cd ∧ (State.forwardFlood p f s).la = s.la ∧
    (State.forwardFlood p f s).lb = s.lb ∧ (State.forwardFlood p f s).ref = s.ref ∧ (State.forwardFlood p f s).ends =
    s.ends ∧ (State.forwardFlood p f s).errs = s.errs ∧ (State.forwardFlood p f s).level = s.level ∧ (State.forwardFlood p
    f s).crossings = s.crossings ∧ (State.forwardFlood p f s).fences = s.fences ∧ (State.forwardFlood p f s).pending =
    s.pending := by simp [State.forwardFlood]

@[simp] theorem State.originate_frame (f : LineFrame) (s : State) :
    (State.originate f s).ao = s.ao ∧ (State.originate f s).cd = s.cd ∧ (State.originate f s).la = s.la ∧ (State.originate
    f s).lb = s.lb ∧ (State.originate f s).ref = s.ref ∧ (State.originate f s).ends = s.ends ∧ (State.originate f s).errs
    = s.errs ∧ (State.originate f s).level = s.level ∧ (State.originate f s).crossings = s.crossings ∧ (State.originate f
    s).fences = s.fences ∧ (State.originate f s).pending = s.pending := by simp [State.originate]

@[simp] theorem State.placeAlarm_frame (p : Port) (f : LineFrame) (s : State) :
    (State.placeAlarm p f s).ao = s.ao ∧ (State.placeAlarm p f s).cd = s.cd ∧ (State.placeAlarm p f s).la = s.la ∧
    (State.placeAlarm p f s).lb = s.lb ∧ (State.placeAlarm p f s).ref = s.ref ∧ (State.placeAlarm p f s).ends = s.ends ∧
    (State.placeAlarm p f s).errs = s.errs ∧ (State.placeAlarm p f s).level = s.level ∧ (State.placeAlarm p f s).crossings
    = s.crossings ∧ (State.placeAlarm p f s).fences = s.fences ∧ (State.placeAlarm p f s).pending = s.pending := by simp [State.placeAlarm]

@[simp] theorem State.originateAlarm_frame (isRepeat : Bool) (r : AlarmRecord) (s : State) :
    (State.originateAlarm isRepeat r s).ao = s.ao ∧ (State.originateAlarm isRepeat r s).cd = s.cd ∧ (State.originateAlarm
    isRepeat r s).la = s.la ∧ (State.originateAlarm isRepeat r s).lb = s.lb ∧ (State.originateAlarm isRepeat r s).ref =
    s.ref ∧ (State.originateAlarm isRepeat r s).ends = s.ends ∧ (State.originateAlarm isRepeat r s).errs = s.errs ∧
    (State.originateAlarm isRepeat r s).level = s.level ∧ (State.originateAlarm isRepeat r s).crossings = s.crossings ∧
    (State.originateAlarm isRepeat r s).fences = s.fences ∧ (State.originateAlarm isRepeat r s).pending = s.pending := by simp [State.originateAlarm]

@[simp] theorem State.modPool_frame (p : Port) (b : LineBody) (f : Credit → Credit) (s : State) :
    (State.modPool p b f s).ao = s.ao ∧ (State.modPool p b f s).cd = s.cd ∧ (State.modPool p b f s).la = s.la ∧
    (State.modPool p b f s).lb = s.lb ∧ (State.modPool p b f s).ref = s.ref ∧ (State.modPool p b f s).ends = s.ends ∧
    (State.modPool p b f s).errs = s.errs ∧ (State.modPool p b f s).level = s.level ∧ (State.modPool p b f s).crossings =
    s.crossings ∧ (State.modPool p b f s).fences = s.fences ∧ (State.modPool p b f s).pending = s.pending := by
  and_intros <;> first | rfl | (simp [State.modPool]; done) | ((unfold State.modPool; (try dsimp only); repeat' split) <;> first | rfl | simp [*])

@[simp] theorem State.credAccept_frame (p : Port) (b : LineBody) (s : State) :
    (State.credAccept p b s).ao = s.ao ∧ (State.credAccept p b s).cd = s.cd ∧ (State.credAccept p b s).la = s.la ∧
    (State.credAccept p b s).lb = s.lb ∧ (State.credAccept p b s).ref = s.ref ∧ (State.credAccept p b s).ends = s.ends ∧
    (State.credAccept p b s).errs = s.errs ∧ (State.credAccept p b s).level = s.level ∧ (State.credAccept p b s).crossings
    = s.crossings ∧ (State.credAccept p b s).fences = s.fences ∧ (State.credAccept p b s).pending = s.pending := by simp [State.credAccept]

@[simp] theorem State.credFree_frame (p : Port) (b : LineBody) (s : State) :
    (State.credFree p b s).ao = s.ao ∧ (State.credFree p b s).cd = s.cd ∧ (State.credFree p b s).la = s.la ∧
    (State.credFree p b s).lb = s.lb ∧ (State.credFree p b s).ref = s.ref ∧ (State.credFree p b s).ends = s.ends ∧
    (State.credFree p b s).errs = s.errs ∧ (State.credFree p b s).level = s.level ∧ (State.credFree p b s).crossings =
    s.crossings ∧ (State.credFree p b s).fences = s.fences ∧ (State.credFree p b s).pending = s.pending := by simp [State.credFree]

@[simp] theorem State.sendMgmt_frame (dst : Position) (m : MgmtP) (s : State) :
    (State.sendMgmt dst m s).ao = s.ao ∧ (State.sendMgmt dst m s).cd = s.cd ∧ (State.sendMgmt dst m s).la = s.la ∧
    (State.sendMgmt dst m s).lb = s.lb ∧ (State.sendMgmt dst m s).ref = s.ref ∧ (State.sendMgmt dst m s).ends = s.ends ∧
    (State.sendMgmt dst m s).errs = s.errs ∧ (State.sendMgmt dst m s).level = s.level ∧ (State.sendMgmt dst m s).crossings
    = s.crossings ∧ (State.sendMgmt dst m s).fences = s.fences ∧ (State.sendMgmt dst m s).pending = s.pending := by
  and_intros <;> first | rfl | (simp [State.sendMgmt]; done) | ((unfold State.sendMgmt; (try dsimp only); repeat' split) <;> first | rfl | simp [*])

@[simp] theorem State.pushTransit_frame (q : Port) (t : Transit) (s : State) :
    (State.pushTransit q t s).ao = s.ao ∧ (State.pushTransit q t s).cd = s.cd ∧ (State.pushTransit q t s).la = s.la ∧
    (State.pushTransit q t s).lb = s.lb ∧ (State.pushTransit q t s).ref = s.ref ∧ (State.pushTransit q t s).ends = s.ends
    ∧ (State.pushTransit q t s).errs = s.errs ∧ (State.pushTransit q t s).level = s.level ∧ (State.pushTransit q t
    s).crossings = s.crossings ∧ (State.pushTransit q t s).fences = s.fences ∧ (State.pushTransit q t s).pending =
    s.pending := by
  and_intros <;> first | rfl | (simp [State.pushTransit]; done) | ((unfold State.pushTransit; (try dsimp only); repeat' split) <;> first | rfl | simp [*])

@[simp] theorem State.forwardCarried_frame (p : Port) (f : LineFrame) (whole : Bool) (s : State) :
    (State.forwardCarried p f whole s).1.ao = s.ao ∧ (State.forwardCarried p f whole s).1.cd = s.cd ∧
    (State.forwardCarried p f whole s).1.la = s.la ∧ (State.forwardCarried p f whole s).1.lb = s.lb ∧
    (State.forwardCarried p f whole s).1.ref = s.ref ∧ (State.forwardCarried p f whole s).1.ends = s.ends ∧
    (State.forwardCarried p f whole s).1.errs = s.errs ∧ (State.forwardCarried p f whole s).1.level = s.level ∧
    (State.forwardCarried p f whole s).1.crossings = s.crossings ∧ (State.forwardCarried p f whole s).1.fences = s.fences
    ∧ (State.forwardCarried p f whole s).1.pending = s.pending := by
  and_intros <;> first | rfl | (simp [State.forwardCarried]; done) | ((unfold State.forwardCarried; (try dsimp only); repeat' split) <;> first | rfl | simp [*])

@[simp] theorem State.forwardAddressed_frame (p : Port) (f : LineFrame) (whole : Bool) (s : State) :
    (State.forwardAddressed p f whole s).1.ao = s.ao ∧ (State.forwardAddressed p f whole s).1.cd = s.cd ∧
    (State.forwardAddressed p f whole s).1.la = s.la ∧ (State.forwardAddressed p f whole s).1.lb = s.lb ∧
    (State.forwardAddressed p f whole s).1.ref = s.ref ∧ (State.forwardAddressed p f whole s).1.ends = s.ends ∧
    (State.forwardAddressed p f whole s).1.errs = s.errs ∧ (State.forwardAddressed p f whole s).1.level = s.level ∧
    (State.forwardAddressed p f whole s).1.crossings = s.crossings ∧ (State.forwardAddressed p f whole s).1.fences =
    s.fences ∧ (State.forwardAddressed p f whole s).1.pending = s.pending := by
  and_intros <;> first | rfl | (simp [State.forwardAddressed]; done) | ((unfold State.forwardAddressed; (try dsimp only); repeat' split) <;> first | rfl | simp [*])

@[simp] theorem State.modTx_frame (p : Port) (f : TxLine → TxLine) (s : State) :
    (State.modTx p f s).ao = s.ao ∧ (State.modTx p f s).cd = s.cd ∧ (State.modTx p f s).la = s.la ∧ (State.modTx p f s).lb
    = s.lb ∧ (State.modTx p f s).ref = s.ref ∧ (State.modTx p f s).ends = s.ends ∧ (State.modTx p f s).errs = s.errs ∧
    (State.modTx p f s).level = s.level ∧ (State.modTx p f s).crossings = s.crossings ∧ (State.modTx p f s).fences =
    s.fences ∧ (State.modTx p f s).pending = s.pending := by and_intros <;> rfl

@[simp] theorem State.modRx_frame (p : Port) (f : RxLine → RxLine) (s : State) :
    (State.modRx p f s).ao = s.ao ∧ (State.modRx p f s).cd = s.cd ∧ (State.modRx p f s).la = s.la ∧ (State.modRx p f s).lb
    = s.lb ∧ (State.modRx p f s).ref = s.ref ∧ (State.modRx p f s).ends = s.ends ∧ (State.modRx p f s).errs = s.errs ∧
    (State.modRx p f s).level = s.level ∧ (State.modRx p f s).crossings = s.crossings ∧ (State.modRx p f s).fences =
    s.fences ∧ (State.modRx p f s).pending = s.pending := by and_intros <;> rfl

@[simp] theorem State.fillCodeword_frame (p : Port) (s : State) :
    (State.fillCodeword p s).ao = s.ao ∧ (State.fillCodeword p s).cd = s.cd ∧ (State.fillCodeword p s).la = s.la ∧
    (State.fillCodeword p s).lb = s.lb ∧ (State.fillCodeword p s).ref = s.ref ∧ (State.fillCodeword p s).ends = s.ends ∧
    (State.fillCodeword p s).errs = s.errs ∧ (State.fillCodeword p s).level = s.level ∧ (State.fillCodeword p s).crossings
    = s.crossings ∧ (State.fillCodeword p s).fences = s.fences ∧ (State.fillCodeword p s).pending = s.pending := by
  and_intros <;> first | rfl | (simp [State.fillCodeword]; done) | ((unfold State.fillCodeword; (try dsimp only); repeat' split) <;> first | rfl | simp [*])

@[simp] theorem State.sendCodeword_frame (p : Port) (s : State) :
    (State.sendCodeword p s).ao = s.ao ∧ (State.sendCodeword p s).cd = s.cd ∧ (State.sendCodeword p s).la = s.la ∧
    (State.sendCodeword p s).lb = s.lb ∧ (State.sendCodeword p s).ref = s.ref ∧ (State.sendCodeword p s).ends = s.ends ∧
    (State.sendCodeword p s).errs = s.errs ∧ (State.sendCodeword p s).level = s.level ∧ (State.sendCodeword p s).crossings
    = s.crossings ∧ (State.sendCodeword p s).fences = s.fences ∧ (State.sendCodeword p s).pending = s.pending := by and_intros <;> rfl

@[simp] theorem State.insertSlot_frame (p : Port) (s : State) :
    (State.insertSlot p s).ao = s.ao ∧ (State.insertSlot p s).cd = s.cd ∧ (State.insertSlot p s).la = s.la ∧
    (State.insertSlot p s).lb = s.lb ∧ (State.insertSlot p s).ref = s.ref ∧ (State.insertSlot p s).ends = s.ends ∧
    (State.insertSlot p s).errs = s.errs ∧ (State.insertSlot p s).level = s.level ∧ (State.insertSlot p s).crossings =
    s.crossings ∧ (State.insertSlot p s).fences = s.fences ∧ (State.insertSlot p s).pending = s.pending := by
  and_intros <;> first | rfl | (simp [State.insertSlot]; done) | ((unfold State.insertSlot; (try dsimp only); repeat' split) <;> first | rfl | simp [*])

@[simp] theorem State.beginCodeword_frame (p : Port) (s : State) :
    (State.beginCodeword p s).ao = s.ao ∧ (State.beginCodeword p s).cd = s.cd ∧ (State.beginCodeword p s).la = s.la ∧
    (State.beginCodeword p s).lb = s.lb ∧ (State.beginCodeword p s).ref = s.ref ∧ (State.beginCodeword p s).ends = s.ends
    ∧ (State.beginCodeword p s).errs = s.errs ∧ (State.beginCodeword p s).level = s.level ∧ (State.beginCodeword p
    s).crossings = s.crossings ∧ (State.beginCodeword p s).fences = s.fences ∧ (State.beginCodeword p s).pending =
    s.pending := by simp [State.beginCodeword]

@[simp] theorem State.passCodeword_frame (p : Port) (s : State) :
    (State.passCodeword p s).ao = s.ao ∧ (State.passCodeword p s).cd = s.cd ∧ (State.passCodeword p s).la = s.la ∧
    (State.passCodeword p s).lb = s.lb ∧ (State.passCodeword p s).ref = s.ref ∧ (State.passCodeword p s).ends = s.ends ∧
    (State.passCodeword p s).errs = s.errs ∧ (State.passCodeword p s).level = s.level ∧ (State.passCodeword p s).crossings
    = s.crossings ∧ (State.passCodeword p s).fences = s.fences ∧ (State.passCodeword p s).pending = s.pending := by simp [State.passCodeword]

@[simp] theorem State.flush_frame (p : Port) (s : State) :
    (State.flush p s).ao = s.ao ∧ (State.flush p s).cd = s.cd ∧ (State.flush p s).la = s.la ∧ (State.flush p s).lb = s.lb
    ∧ (State.flush p s).ref = s.ref ∧ (State.flush p s).ends = s.ends ∧ (State.flush p s).errs = s.errs ∧ (State.flush p
    s).level = s.level ∧ (State.flush p s).crossings = s.crossings ∧ (State.flush p s).fences = s.fences ∧ (State.flush p
    s).pending = s.pending := by simp [State.flush]

@[simp] theorem State.towardFrame_frame (p : Port) (s : State) :
    (State.towardFrame p s).ao = s.ao ∧ (State.towardFrame p s).cd = s.cd ∧ (State.towardFrame p s).la = s.la ∧
    (State.towardFrame p s).lb = s.lb ∧ (State.towardFrame p s).ref = s.ref ∧ (State.towardFrame p s).ends = s.ends ∧
    (State.towardFrame p s).errs = s.errs ∧ (State.towardFrame p s).level = s.level ∧ (State.towardFrame p s).crossings =
    s.crossings ∧ (State.towardFrame p s).fences = s.fences ∧ (State.towardFrame p s).pending = s.pending := by simp [State.towardFrame]

@[simp] theorem State.toFrameBoundary_frame (p : Port) (s : State) :
    (State.toFrameBoundary p s).ao = s.ao ∧ (State.toFrameBoundary p s).cd = s.cd ∧ (State.toFrameBoundary p s).la = s.la
    ∧ (State.toFrameBoundary p s).lb = s.lb ∧ (State.toFrameBoundary p s).ref = s.ref ∧ (State.toFrameBoundary p s).ends =
    s.ends ∧ (State.toFrameBoundary p s).errs = s.errs ∧ (State.toFrameBoundary p s).level = s.level ∧
    (State.toFrameBoundary p s).crossings = s.crossings ∧ (State.toFrameBoundary p s).fences = s.fences ∧
    (State.toFrameBoundary p s).pending = s.pending := by simp [State.toFrameBoundary]

@[simp] theorem State.placeFrame_frame (p : Port) (bytes : List Byte) (s : State) :
    (State.placeFrame p bytes s).ao = s.ao ∧ (State.placeFrame p bytes s).cd = s.cd ∧ (State.placeFrame p bytes s).la =
    s.la ∧ (State.placeFrame p bytes s).lb = s.lb ∧ (State.placeFrame p bytes s).ref = s.ref ∧ (State.placeFrame p bytes
    s).ends = s.ends ∧ (State.placeFrame p bytes s).errs = s.errs ∧ (State.placeFrame p bytes s).level = s.level ∧
    (State.placeFrame p bytes s).crossings = s.crossings ∧ (State.placeFrame p bytes s).fences = s.fences ∧
    (State.placeFrame p bytes s).pending = s.pending := by simp [State.placeFrame]

@[simp] theorem State.flushAll_frame (s : State) :
    (State.flushAll s).ao = s.ao ∧ (State.flushAll s).cd = s.cd ∧ (State.flushAll s).la = s.la ∧ (State.flushAll s).lb =
    s.lb ∧ (State.flushAll s).ref = s.ref ∧ (State.flushAll s).ends = s.ends ∧ (State.flushAll s).errs = s.errs ∧
    (State.flushAll s).level = s.level ∧ (State.flushAll s).crossings = s.crossings ∧ (State.flushAll s).fences = s.fences
    ∧ (State.flushAll s).pending = s.pending := by simp [State.flushAll]

@[simp] theorem State.endStomped_frame (q : Port) (keepLen : Bool) (s : State) :
    (State.endStomped q keepLen s).ao = s.ao ∧ (State.endStomped q keepLen s).cd = s.cd ∧ (State.endStomped q keepLen
    s).la = s.la ∧ (State.endStomped q keepLen s).lb = s.lb ∧ (State.endStomped q keepLen s).ref = s.ref ∧
    (State.endStomped q keepLen s).ends = s.ends ∧ (State.endStomped q keepLen s).errs = s.errs ∧ (State.endStomped q
    keepLen s).level = s.level ∧ (State.endStomped q keepLen s).crossings = s.crossings ∧ (State.endStomped q keepLen
    s).fences = s.fences ∧ (State.endStomped q keepLen s).pending = s.pending := by simp [State.endStomped]

@[simp] theorem State.stompFrom_frame (p : Port) (s : State) :
    (State.stompFrom p s).ao = s.ao ∧ (State.stompFrom p s).cd = s.cd ∧ (State.stompFrom p s).la = s.la ∧ (State.stompFrom
    p s).lb = s.lb ∧ (State.stompFrom p s).ref = s.ref ∧ (State.stompFrom p s).ends = s.ends ∧ (State.stompFrom p s).errs
    = s.errs ∧ (State.stompFrom p s).level = s.level ∧ (State.stompFrom p s).crossings = s.crossings ∧ (State.stompFrom p
    s).fences = s.fences ∧ (State.stompFrom p s).pending = s.pending := by simp [State.stompFrom]

@[simp] theorem State.dropUnready_frame (p : Port) (s : State) :
    (State.dropUnready p s).ao = s.ao ∧ (State.dropUnready p s).cd = s.cd ∧ (State.dropUnready p s).la = s.la ∧
    (State.dropUnready p s).lb = s.lb ∧ (State.dropUnready p s).ref = s.ref ∧ (State.dropUnready p s).ends = s.ends ∧
    (State.dropUnready p s).errs = s.errs ∧ (State.dropUnready p s).level = s.level ∧ (State.dropUnready p s).crossings =
    s.crossings ∧ (State.dropUnready p s).fences = s.fences ∧ (State.dropUnready p s).pending = s.pending := by simp [State.dropUnready]

@[simp] theorem State.startStream_frame (p : Port) (s : State) :
    (State.startStream p s).ao = s.ao ∧ (State.startStream p s).cd = s.cd ∧ (State.startStream p s).la = s.la ∧
    (State.startStream p s).lb = s.lb ∧ (State.startStream p s).ref = s.ref ∧ (State.startStream p s).ends = s.ends ∧
    (State.startStream p s).errs = s.errs ∧ (State.startStream p s).level = s.level ∧ (State.startStream p s).crossings =
    s.crossings ∧ (State.startStream p s).fences = s.fences ∧ (State.startStream p s).pending = s.pending := by and_intros <;> rfl

@[simp] theorem State.passFcs_frame (p : Port) (fcs : Word) (s : State) :
    (State.passFcs p fcs s).ao = s.ao ∧ (State.passFcs p fcs s).cd = s.cd ∧ (State.passFcs p fcs s).la = s.la ∧
    (State.passFcs p fcs s).lb = s.lb ∧ (State.passFcs p fcs s).ref = s.ref ∧ (State.passFcs p fcs s).ends = s.ends ∧
    (State.passFcs p fcs s).errs = s.errs ∧ (State.passFcs p fcs s).level = s.level ∧ (State.passFcs p fcs s).crossings =
    s.crossings ∧ (State.passFcs p fcs s).fences = s.fences ∧ (State.passFcs p fcs s).pending = s.pending := by simp [State.passFcs]

@[simp] theorem State.refuse_frame (p : Port) (b : LineBody) (s : State) :
    (State.refuse p b s).ao = s.ao ∧ (State.refuse p b s).cd = s.cd ∧ (State.refuse p b s).la = s.la ∧ (State.refuse p b
    s).lb = s.lb ∧ (State.refuse p b s).ref = s.ref ∧ (State.refuse p b s).ends = s.ends ∧ (State.refuse p b s).errs =
    s.errs ∧ (State.refuse p b s).level = s.level ∧ (State.refuse p b s).crossings = s.crossings ∧ (State.refuse p b
    s).fences = s.fences ∧ (State.refuse p b s).pending = s.pending := by simp [State.refuse]

@[simp] theorem State.refuseUnits_frame (p : Port) (cls : BitVec 4) (len : Nat) (s : State) :
    (State.refuseUnits p cls len s).ao = s.ao ∧ (State.refuseUnits p cls len s).cd = s.cd ∧ (State.refuseUnits p cls len
    s).la = s.la ∧ (State.refuseUnits p cls len s).lb = s.lb ∧ (State.refuseUnits p cls len s).ref = s.ref ∧
    (State.refuseUnits p cls len s).ends = s.ends ∧ (State.refuseUnits p cls len s).errs = s.errs ∧ (State.refuseUnits p
    cls len s).level = s.level ∧ (State.refuseUnits p cls len s).crossings = s.crossings ∧ (State.refuseUnits p cls len
    s).fences = s.fences ∧ (State.refuseUnits p cls len s).pending = s.pending := by simp [State.refuseUnits]

@[simp] theorem State.tookArrival_frame (p : Port) (f : LineFrame) (s : State) :
    (State.tookArrival p f s).ao = s.ao ∧ (State.tookArrival p f s).cd = s.cd ∧ (State.tookArrival p f s).la = s.la ∧
    (State.tookArrival p f s).lb = s.lb ∧ (State.tookArrival p f s).ref = s.ref ∧ (State.tookArrival p f s).ends = s.ends
    ∧ (State.tookArrival p f s).errs = s.errs ∧ (State.tookArrival p f s).level = s.level ∧ (State.tookArrival p f
    s).crossings = s.crossings ∧ (State.tookArrival p f s).fences = s.fences ∧ (State.tookArrival p f s).pending =
    s.pending := by and_intros <;> rfl

@[simp] theorem State.cabInside_frame (e : VEnd) (s : State) :
    (State.cabInside e s).ao = s.ao ∧ (State.cabInside e s).la = s.la ∧ (State.cabInside e s).lb = s.lb ∧ (State.cabInside
    e s).ref = s.ref ∧ (State.cabInside e s).ends = s.ends ∧ (State.cabInside e s).errs = s.errs ∧ (State.cabInside e
    s).level = s.level ∧ (State.cabInside e s).crossings = s.crossings ∧ (State.cabInside e s).fences = s.fences ∧
    (State.cabInside e s).pending = s.pending := by simp [State.cabInside]

@[simp] theorem State.probeRests_frame (e : VEnd) (s : State) :
    (State.probeRests e s).ao = s.ao ∧ (State.probeRests e s).cd = s.cd ∧ (State.probeRests e s).la = s.la ∧
    (State.probeRests e s).lb = s.lb ∧ (State.probeRests e s).ref = s.ref ∧ (State.probeRests e s).ends = s.ends ∧
    (State.probeRests e s).errs = s.errs ∧ (State.probeRests e s).level = s.level ∧ (State.probeRests e s).crossings =
    s.crossings ∧ (State.probeRests e s).fences = s.fences ∧ (State.probeRests e s).pending = s.pending := by simp [State.probeRests]

@[simp] theorem State.evalEnd_frame (e : VEnd) (s : State) :
    (State.evalEnd e s).ao = s.ao ∧ (State.evalEnd e s).la = s.la ∧ (State.evalEnd e s).lb = s.lb ∧ (State.evalEnd e
    s).ref = s.ref ∧ (State.evalEnd e s).ends = s.ends ∧ (State.evalEnd e s).errs = s.errs ∧ (State.evalEnd e s).level =
    s.level ∧ (State.evalEnd e s).crossings = s.crossings ∧ (State.evalEnd e s).fences = s.fences ∧ (State.evalEnd e
    s).pending = s.pending := by simp [State.evalEnd]

@[simp] theorem State.unnumberedStandings_frame (s : State) :
    (State.unnumberedStandings s).ao = s.ao ∧ (State.unnumberedStandings s).cd = s.cd ∧ (State.unnumberedStandings s).la =
    s.la ∧ (State.unnumberedStandings s).lb = s.lb ∧ (State.unnumberedStandings s).ref = s.ref ∧
    (State.unnumberedStandings s).ends = s.ends ∧ (State.unnumberedStandings s).errs = s.errs ∧ (State.unnumberedStandings
    s).level = s.level ∧ (State.unnumberedStandings s).crossings = s.crossings ∧ (State.unnumberedStandings s).fences =
    s.fences ∧ (State.unnumberedStandings s).pending = s.pending := by simp [State.unnumberedStandings]

@[simp] theorem State.refreshLit_frame (s : State) :
    (State.refreshLit s).ao = s.ao ∧ (State.refreshLit s).ld = s.ld ∧ (State.refreshLit s).la = s.la ∧ (State.refreshLit
    s).lb = s.lb ∧ (State.refreshLit s).ref = s.ref ∧ (State.refreshLit s).errs = s.errs ∧ (State.refreshLit s).level =
    s.level ∧ (State.refreshLit s).crossings = s.crossings ∧ (State.refreshLit s).fences = s.fences ∧ (State.refreshLit
    s).pending = s.pending := by simp [State.refreshLit]

@[simp] theorem State.sendLit_frame (s : State) :
    (State.sendLit s).ao = s.ao ∧ (State.sendLit s).ld = s.ld ∧ (State.sendLit s).la = s.la ∧ (State.sendLit s).lb = s.lb
    ∧ (State.sendLit s).ref = s.ref ∧ (State.sendLit s).errs = s.errs ∧ (State.sendLit s).level = s.level ∧ (State.sendLit
    s).crossings = s.crossings ∧ (State.sendLit s).fences = s.fences ∧ (State.sendLit s).pending = s.pending := by simp [State.sendLit]

@[simp] theorem State.engineEvent_frame (s : State) :
    (State.engineEvent s).ao = s.ao ∧ (State.engineEvent s).la = s.la ∧ (State.engineEvent s).lb = s.lb ∧
    (State.engineEvent s).ref = s.ref ∧ (State.engineEvent s).errs = s.errs ∧ (State.engineEvent s).level = s.level ∧
    (State.engineEvent s).crossings = s.crossings ∧ (State.engineEvent s).fences = s.fences ∧ (State.engineEvent
    s).pending = s.pending := by simp [State.engineEvent]

@[simp] theorem State.sendCall_frame (e : VEnd) (s : State) :
    (State.sendCall e s).ao = s.ao ∧ (State.sendCall e s).cd = s.cd ∧ (State.sendCall e s).la = s.la ∧ (State.sendCall e
    s).lb = s.lb ∧ (State.sendCall e s).ref = s.ref ∧ (State.sendCall e s).ends = s.ends ∧ (State.sendCall e s).errs =
    s.errs ∧ (State.sendCall e s).level = s.level ∧ (State.sendCall e s).crossings = s.crossings ∧ (State.sendCall e
    s).fences = s.fences ∧ (State.sendCall e s).pending = s.pending := by
  and_intros <;> first | rfl | (simp [State.sendCall]; done) | ((unfold State.sendCall; (try dsimp only); repeat' split) <;> first | rfl | simp [*])

@[simp] theorem State.originateBeacon_frame (s : State) :
    (State.originateBeacon s).ao = s.ao ∧ (State.originateBeacon s).cd = s.cd ∧ (State.originateBeacon s).la = s.la ∧
    (State.originateBeacon s).lb = s.lb ∧ (State.originateBeacon s).ref = s.ref ∧ (State.originateBeacon s).ends = s.ends
    ∧ (State.originateBeacon s).errs = s.errs ∧ (State.originateBeacon s).level = s.level ∧ (State.originateBeacon
    s).crossings = s.crossings ∧ (State.originateBeacon s).fences = s.fences ∧ (State.originateBeacon s).pending =
    s.pending := by simp [State.originateBeacon]

@[simp] theorem State.cabBeacon_frame (s : State) :
    (State.cabBeacon s).ao = s.ao ∧ (State.cabBeacon s).cd = s.cd ∧ (State.cabBeacon s).la = s.la ∧ (State.cabBeacon s).lb
    = s.lb ∧ (State.cabBeacon s).ref = s.ref ∧ (State.cabBeacon s).ends = s.ends ∧ (State.cabBeacon s).errs = s.errs ∧
    (State.cabBeacon s).level = s.level ∧ (State.cabBeacon s).crossings = s.crossings ∧ (State.cabBeacon s).fences =
    s.fences ∧ (State.cabBeacon s).pending = s.pending := by simp [State.cabBeacon]

@[simp] theorem State.launch_frame (s : State) :
    (State.launch s).ao = s.ao ∧ (State.launch s).cd = s.cd ∧ (State.launch s).la = s.la ∧ (State.launch s).lb = s.lb ∧
    (State.launch s).ref = s.ref ∧ (State.launch s).ends = s.ends ∧ (State.launch s).errs = s.errs ∧ (State.launch
    s).level = s.level ∧ (State.launch s).crossings = s.crossings ∧ (State.launch s).fences = s.fences ∧ (State.launch
    s).pending = s.pending := by
  and_intros <;> first | rfl | (simp [State.launch]; done) | ((unfold State.launch; (try dsimp only); repeat' split) <;> first | rfl | simp [*])

@[simp] theorem State.launchOrDefer_frame (s : State) :
    (State.launchOrDefer s).ao = s.ao ∧ (State.launchOrDefer s).cd = s.cd ∧ (State.launchOrDefer s).la = s.la ∧
    (State.launchOrDefer s).lb = s.lb ∧ (State.launchOrDefer s).ref = s.ref ∧ (State.launchOrDefer s).ends = s.ends ∧
    (State.launchOrDefer s).errs = s.errs ∧ (State.launchOrDefer s).level = s.level ∧ (State.launchOrDefer s).crossings =
    s.crossings ∧ (State.launchOrDefer s).fences = s.fences ∧ (State.launchOrDefer s).pending = s.pending := by simp [State.launchOrDefer]

@[simp] theorem State.withStandings_frame (w : Switch) (s : State) :
    (State.withStandings w s).ao = s.ao ∧ (State.withStandings w s).cd = s.cd ∧ (State.withStandings w s).la = s.la ∧
    (State.withStandings w s).lb = s.lb ∧ (State.withStandings w s).ref = s.ref ∧ (State.withStandings w s).ends = s.ends
    ∧ (State.withStandings w s).errs = s.errs ∧ (State.withStandings w s).level = s.level ∧ (State.withStandings w
    s).crossings = s.crossings ∧ (State.withStandings w s).fences = s.fences ∧ (State.withStandings w s).pending =
    s.pending := by and_intros <;> rfl

@[simp] theorem State.holdRound_frame (r : HeldRound) (st : Round) (s : State) :
    (State.holdRound r st s).ao = s.ao ∧ (State.holdRound r st s).cd = s.cd ∧ (State.holdRound r st s).la = s.la ∧
    (State.holdRound r st s).lb = s.lb ∧ (State.holdRound r st s).ref = s.ref ∧ (State.holdRound r st s).ends = s.ends ∧
    (State.holdRound r st s).errs = s.errs ∧ (State.holdRound r st s).level = s.level ∧ (State.holdRound r st s).crossings
    = s.crossings ∧ (State.holdRound r st s).fences = s.fences ∧ (State.holdRound r st s).pending = s.pending := by and_intros <;> rfl

@[simp] theorem State.tailCommit_frame (p : Port) (f : FrontP) (s : State) :
    (State.tailCommit p f s).ao = s.ao ∧ (State.tailCommit p f s).cd = s.cd ∧ (State.tailCommit p f s).la = s.la ∧
    (State.tailCommit p f s).lb = s.lb ∧ (State.tailCommit p f s).ref = s.ref ∧ (State.tailCommit p f s).ends = s.ends ∧
    (State.tailCommit p f s).errs = s.errs ∧ (State.tailCommit p f s).level = s.level ∧ (State.tailCommit p f s).crossings
    = s.crossings ∧ (State.tailCommit p f s).fences = s.fences ∧ (State.tailCommit p f s).pending = s.pending := by simp [State.tailCommit]

@[simp] theorem State.cutTrain_frame (p : Port) (q : Port) (f : FrontP) (s : State) :
    (State.cutTrain p q f s).ao = s.ao ∧ (State.cutTrain p q f s).la = s.la ∧ (State.cutTrain p q f s).lb = s.lb ∧
    (State.cutTrain p q f s).ref = s.ref ∧ (State.cutTrain p q f s).ends = s.ends ∧ (State.cutTrain p q f s).errs = s.errs
    ∧ (State.cutTrain p q f s).level = s.level ∧ (State.cutTrain p q f s).crossings = s.crossings ∧ (State.cutTrain p q f
    s).fences = s.fences ∧ (State.cutTrain p q f s).pending = s.pending := by simp [State.cutTrain]

@[simp] theorem State.acceptFront_frame (p : Port) (f : FrontP) (s : State) :
    (State.acceptFront p f s).ao = s.ao ∧ (State.acceptFront p f s).la = s.la ∧ (State.acceptFront p f s).lb = s.lb ∧
    (State.acceptFront p f s).ref = s.ref ∧ (State.acceptFront p f s).ends = s.ends ∧ (State.acceptFront p f s).errs =
    s.errs ∧ (State.acceptFront p f s).level = s.level ∧ (State.acceptFront p f s).crossings = s.crossings ∧
    (State.acceptFront p f s).fences = s.fences ∧ (State.acceptFront p f s).pending = s.pending := by
  and_intros <;> first | rfl | (simp [State.acceptFront]; done) | ((unfold State.acceptFront; (try dsimp only); repeat' split) <;> first | rfl | simp [*])

@[simp] theorem State.countRejected_frame (s : State) :
    (State.countRejected s).ao = s.ao ∧ (State.countRejected s).cd = s.cd ∧ (State.countRejected s).la = s.la ∧
    (State.countRejected s).lb = s.lb ∧ (State.countRejected s).ref = s.ref ∧ (State.countRejected s).ends = s.ends ∧
    (State.countRejected s).errs = s.errs ∧ (State.countRejected s).level = s.level ∧ (State.countRejected s).crossings =
    s.crossings ∧ (State.countRejected s).fences = s.fences ∧ (State.countRejected s).pending = s.pending := by and_intros <;> rfl

@[simp] theorem State.takeCut_frame (p : Port) (s : State) :
    (State.takeCut p s).ao = s.ao ∧ (State.takeCut p s).la = s.la ∧ (State.takeCut p s).lb = s.lb ∧ (State.takeCut p
    s).ref = s.ref ∧ (State.takeCut p s).errs = s.errs ∧ (State.takeCut p s).level = s.level ∧ (State.takeCut p
    s).crossings = s.crossings ∧ (State.takeCut p s).fences = s.fences ∧ (State.takeCut p s).pending = s.pending := by simp [State.takeCut]

@[simp] theorem State.keepFront_frame (p : Port) (h : LineHdr) (f : FrontP) (s : State) :
    (State.keepFront p h f s).ao = s.ao ∧ (State.keepFront p h f s).cd = s.cd ∧ (State.keepFront p h f s).la = s.la ∧
    (State.keepFront p h f s).lb = s.lb ∧ (State.keepFront p h f s).ref = s.ref ∧ (State.keepFront p h f s).ends = s.ends
    ∧ (State.keepFront p h f s).errs = s.errs ∧ (State.keepFront p h f s).level = s.level ∧ (State.keepFront p h f
    s).crossings = s.crossings ∧ (State.keepFront p h f s).fences = s.fences ∧ (State.keepFront p h f s).pending =
    s.pending := by simp [State.keepFront]

@[simp] theorem State.handleFront_frame (p : Port) (h : LineHdr) (f : FrontP) (s : State) :
    (State.handleFront p h f s).ao = s.ao ∧ (State.handleFront p h f s).la = s.la ∧ (State.handleFront p h f s).lb = s.lb
    ∧ (State.handleFront p h f s).ref = s.ref ∧ (State.handleFront p h f s).errs = s.errs ∧ (State.handleFront p h f
    s).level = s.level ∧ (State.handleFront p h f s).crossings = s.crossings ∧ (State.handleFront p h f s).fences =
    s.fences ∧ (State.handleFront p h f s).pending = s.pending := by simp [State.handleFront]

@[simp] theorem State.rowExpires_frame (e : VEnd) (s : State) :
    (State.rowExpires e s).ao = s.ao ∧ (State.rowExpires e s).cd = s.cd ∧ (State.rowExpires e s).la = s.la ∧
    (State.rowExpires e s).lb = s.lb ∧ (State.rowExpires e s).ref = s.ref ∧ (State.rowExpires e s).ends = s.ends ∧
    (State.rowExpires e s).errs = s.errs ∧ (State.rowExpires e s).level = s.level ∧ (State.rowExpires e s).crossings =
    s.crossings ∧ (State.rowExpires e s).fences = s.fences ∧ (State.rowExpires e s).pending = s.pending := by and_intros <;> rfl

@[simp] theorem State.doubleInterval_frame (s : State) :
    (State.doubleInterval s).ao = s.ao ∧ (State.doubleInterval s).la = s.la ∧ (State.doubleInterval s).lb = s.lb ∧
    (State.doubleInterval s).ref = s.ref ∧ (State.doubleInterval s).ends = s.ends ∧ (State.doubleInterval s).errs = s.errs
    ∧ (State.doubleInterval s).level = s.level ∧ (State.doubleInterval s).crossings = s.crossings ∧ (State.doubleInterval
    s).fences = s.fences ∧ (State.doubleInterval s).pending = s.pending := by simp [State.doubleInterval]

@[simp] theorem State.raiseRoleLate_frame (late : Bool) (n : Word) (s : State) :
    (State.raiseRoleLate late n s).ao = s.ao ∧ (State.raiseRoleLate late n s).la = s.la ∧ (State.raiseRoleLate late n
    s).lb = s.lb ∧ (State.raiseRoleLate late n s).ref = s.ref ∧ (State.raiseRoleLate late n s).ends = s.ends ∧
    (State.raiseRoleLate late n s).errs = s.errs ∧ (State.raiseRoleLate late n s).level = s.level ∧ (State.raiseRoleLate
    late n s).crossings = s.crossings ∧ (State.raiseRoleLate late n s).fences = s.fences ∧ (State.raiseRoleLate late n
    s).pending = s.pending := by simp [State.raiseRoleLate]

@[simp] theorem State.takeGhosts_frame (c : CommitP) (s : State) :
    (State.takeGhosts c s).ao = s.ao ∧ (State.takeGhosts c s).cd = s.cd ∧ (State.takeGhosts c s).la = s.la ∧
    (State.takeGhosts c s).lb = s.lb ∧ (State.takeGhosts c s).ref = s.ref ∧ (State.takeGhosts c s).ends = s.ends ∧
    (State.takeGhosts c s).errs = s.errs ∧ (State.takeGhosts c s).level = s.level ∧ (State.takeGhosts c s).crossings =
    s.crossings ∧ (State.takeGhosts c s).fences = s.fences ∧ (State.takeGhosts c s).pending = s.pending := by
  and_intros <;> first | rfl | (simp [State.takeGhosts]; done) | ((unfold State.takeGhosts; (try dsimp only); repeat' split) <;> first | rfl | simp [*])

@[simp] theorem State.staleQueues_frame (p : Port) (s : State) :
    (State.staleQueues p s).ao = s.ao ∧ (State.staleQueues p s).cd = s.cd ∧ (State.staleQueues p s).la = s.la ∧
    (State.staleQueues p s).lb = s.lb ∧ (State.staleQueues p s).ref = s.ref ∧ (State.staleQueues p s).ends = s.ends ∧
    (State.staleQueues p s).errs = s.errs ∧ (State.staleQueues p s).level = s.level ∧ (State.staleQueues p s).crossings =
    s.crossings ∧ (State.staleQueues p s).fences = s.fences ∧ (State.staleQueues p s).pending = s.pending := by and_intros <;> rfl

@[simp] theorem State.setPower_frame (p : PowerState) (s : State) :
    (State.setPower p s).ao = s.ao ∧ (State.setPower p s).la = s.la ∧ (State.setPower p s).lb = s.lb ∧ (State.setPower p
    s).ref = s.ref ∧ (State.setPower p s).ends = s.ends ∧ (State.setPower p s).errs = s.errs ∧ (State.setPower p s).level
    = s.level ∧ (State.setPower p s).crossings = s.crossings ∧ (State.setPower p s).fences = s.fences ∧ (State.setPower p
    s).pending = s.pending := by simp [State.setPower]

@[simp] theorem State.handleWaiting_frame (s : State) :
    (State.handleWaiting s).ao = s.ao ∧ (State.handleWaiting s).la = s.la ∧ (State.handleWaiting s).lb = s.lb ∧
    (State.handleWaiting s).ref = s.ref ∧ (State.handleWaiting s).errs = s.errs ∧ (State.handleWaiting s).level = s.level
    ∧ (State.handleWaiting s).crossings = s.crossings ∧ (State.handleWaiting s).fences = s.fences ∧ (State.handleWaiting
    s).pending = s.pending := by
  and_intros <;> first | rfl | (simp [State.handleWaiting]; done) | ((unfold State.handleWaiting; (try dsimp only); repeat' split) <;> first | rfl | simp [*])

@[simp] theorem State.applyGhosts_frame (g : GhostSet) (n : Word) (s : State) :
    (State.applyGhosts g n s).ao = s.ao ∧ (State.applyGhosts g n s).la = s.la ∧ (State.applyGhosts g n s).lb = s.lb ∧
    (State.applyGhosts g n s).ref = s.ref ∧ (State.applyGhosts g n s).ends = s.ends ∧ (State.applyGhosts g n s).errs =
    s.errs ∧ (State.applyGhosts g n s).level = s.level ∧ (State.applyGhosts g n s).crossings = s.crossings ∧
    (State.applyGhosts g n s).fences = s.fences ∧ (State.applyGhosts g n s).pending = s.pending := by and_intros <;> rfl

@[simp] theorem State.dropRound_frame (s : State) :
    (State.dropRound s).ao = s.ao ∧ (State.dropRound s).cd = s.cd ∧ (State.dropRound s).la = s.la ∧ (State.dropRound s).lb
    = s.lb ∧ (State.dropRound s).ref = s.ref ∧ (State.dropRound s).ends = s.ends ∧ (State.dropRound s).errs = s.errs ∧
    (State.dropRound s).level = s.level ∧ (State.dropRound s).crossings = s.crossings ∧ (State.dropRound s).fences =
    s.fences ∧ (State.dropRound s).pending = s.pending := by and_intros <;> rfl

@[simp] theorem State.setCrossed_frame (x : Crossing) (v : Crossed) (s : State) :
    (State.setCrossed x v s).ao = s.ao ∧ (State.setCrossed x v s).cd = s.cd ∧ (State.setCrossed x v s).ld = s.ld ∧
    (State.setCrossed x v s).la = s.la ∧ (State.setCrossed x v s).lb = s.lb ∧ (State.setCrossed x v s).ref = s.ref ∧
    (State.setCrossed x v s).ends = s.ends ∧ (State.setCrossed x v s).errs = s.errs ∧ (State.setCrossed x v s).level =
    s.level ∧ (State.setCrossed x v s).fences = s.fences ∧ (State.setCrossed x v s).pending = s.pending := by and_intros <;> rfl

@[simp] theorem State.carry_frame (x : Crossing) (data : List Byte) (s : State) :
    (State.carry x data s).ao = s.ao ∧ (State.carry x data s).cd = s.cd ∧ (State.carry x data s).ld = s.ld ∧ (State.carry
    x data s).la = s.la ∧ (State.carry x data s).lb = s.lb ∧ (State.carry x data s).ref = s.ref ∧ (State.carry x data
    s).ends = s.ends ∧ (State.carry x data s).errs = s.errs ∧ (State.carry x data s).level = s.level ∧ (State.carry x data
    s).fences = s.fences ∧ (State.carry x data s).pending = s.pending := by and_intros <;> rfl

@[simp] theorem State.fenceCrossings_frame (f : Crossing → Bool) (s : State) :
    (State.fenceCrossings f s).ao = s.ao ∧ (State.fenceCrossings f s).cd = s.cd ∧ (State.fenceCrossings f s).ld = s.ld ∧
    (State.fenceCrossings f s).la = s.la ∧ (State.fenceCrossings f s).lb = s.lb ∧ (State.fenceCrossings f s).ref = s.ref ∧
    (State.fenceCrossings f s).ends = s.ends ∧ (State.fenceCrossings f s).errs = s.errs ∧ (State.fenceCrossings f s).level
    = s.level ∧ (State.fenceCrossings f s).fences = s.fences ∧ (State.fenceCrossings f s).pending = s.pending := by and_intros <;> rfl

@[simp] theorem State.setAlarms_frame (l : List AlarmEntry) (own : Bool) (s : State) :
    (State.setAlarms l own s).ao = s.ao ∧ (State.setAlarms l own s).la = s.la ∧ (State.setAlarms l own s).lb = s.lb ∧
    (State.setAlarms l own s).ref = s.ref ∧ (State.setAlarms l own s).ends = s.ends ∧ (State.setAlarms l own s).errs =
    s.errs ∧ (State.setAlarms l own s).level = s.level ∧ (State.setAlarms l own s).crossings = s.crossings ∧
    (State.setAlarms l own s).fences = s.fences ∧ (State.setAlarms l own s).pending = s.pending := by and_intros <;> rfl

@[simp] theorem State.enterAlarm_frame (id : NodeId) (r : AlarmRecord) (s : State) :
    (State.enterAlarm id r s).ao = s.ao ∧ (State.enterAlarm id r s).la = s.la ∧ (State.enterAlarm id r s).lb = s.lb ∧
    (State.enterAlarm id r s).ref = s.ref ∧ (State.enterAlarm id r s).ends = s.ends ∧ (State.enterAlarm id r s).errs =
    s.errs ∧ (State.enterAlarm id r s).level = s.level ∧ (State.enterAlarm id r s).crossings = s.crossings ∧
    (State.enterAlarm id r s).fences = s.fences ∧ (State.enterAlarm id r s).pending = s.pending := by
  and_intros <;> first | rfl | (simp [State.enterAlarm]; done) | ((unfold State.enterAlarm; (try dsimp only); repeat' split) <;> first | rfl | simp [*])

@[simp] theorem State.noteFence_frame (p : Port) (s : State) :
    (State.noteFence p s).ao = s.ao ∧ (State.noteFence p s).la = s.la ∧ (State.noteFence p s).lb = s.lb ∧ (State.noteFence
    p s).ref = s.ref ∧ (State.noteFence p s).errs = s.errs ∧ (State.noteFence p s).level = s.level ∧ (State.noteFence p
    s).crossings = s.crossings ∧ (State.noteFence p s).fences = s.fences ∧ (State.noteFence p s).pending = s.pending := by simp [State.noteFence]

@[simp] theorem State.bumpErr_frame (p : Port) (s : State) :
    (State.bumpErr p s).ao = s.ao ∧ (State.bumpErr p s).la = s.la ∧ (State.bumpErr p s).lb = s.lb ∧ (State.bumpErr p
    s).ref = s.ref ∧ (State.bumpErr p s).errs = s.errs ∧ (State.bumpErr p s).level = s.level ∧ (State.bumpErr p
    s).crossings = s.crossings ∧ (State.bumpErr p s).fences = s.fences ∧ (State.bumpErr p s).pending = s.pending := by simp [State.bumpErr]

@[simp] theorem State.cleanCycle_frame (p : Port) (s : State) :
    (State.cleanCycle p s).ao = s.ao ∧ (State.cleanCycle p s).la = s.la ∧ (State.cleanCycle p s).lb = s.lb ∧
    (State.cleanCycle p s).ref = s.ref ∧ (State.cleanCycle p s).errs = s.errs ∧ (State.cleanCycle p s).level = s.level ∧
    (State.cleanCycle p s).crossings = s.crossings ∧ (State.cleanCycle p s).fences = s.fences ∧ (State.cleanCycle p
    s).pending = s.pending := by simp [State.cleanCycle]

@[simp] theorem State.learnFar_frame (p : Port) (h : LineHdr) (b : BeaconP) (s : State) :
    (State.learnFar p h b s).ao = s.ao ∧ (State.learnFar p h b s).la = s.la ∧ (State.learnFar p h b s).lb = s.lb ∧
    (State.learnFar p h b s).ref = s.ref ∧ (State.learnFar p h b s).errs = s.errs ∧ (State.learnFar p h b s).level =
    s.level ∧ (State.learnFar p h b s).crossings = s.crossings ∧ (State.learnFar p h b s).fences = s.fences ∧
    (State.learnFar p h b s).pending = s.pending := by simp [State.learnFar]

@[simp] theorem State.startPooled_frame (p : Port) (t : Option Transit) (f : LineFrame) (s : State) :
    (State.startPooled p t f s).ao = s.ao ∧ (State.startPooled p t f s).cd = s.cd ∧ (State.startPooled p t f s).la = s.la
    ∧ (State.startPooled p t f s).lb = s.lb ∧ (State.startPooled p t f s).ref = s.ref ∧ (State.startPooled p t f s).ends =
    s.ends ∧ (State.startPooled p t f s).errs = s.errs ∧ (State.startPooled p t f s).level = s.level ∧ (State.startPooled
    p t f s).crossings = s.crossings ∧ (State.startPooled p t f s).fences = s.fences ∧ (State.startPooled p t f s).pending
    = s.pending := by simp [State.startPooled]

@[simp] theorem State.startControl_frame (p : Port) (f : LineFrame) (s : State) :
    (State.startControl p f s).ao = s.ao ∧ (State.startControl p f s).cd = s.cd ∧ (State.startControl p f s).la = s.la ∧
    (State.startControl p f s).lb = s.lb ∧ (State.startControl p f s).ref = s.ref ∧ (State.startControl p f s).ends =
    s.ends ∧ (State.startControl p f s).errs = s.errs ∧ (State.startControl p f s).level = s.level ∧ (State.startControl p
    f s).crossings = s.crossings ∧ (State.startControl p f s).fences = s.fences ∧ (State.startControl p f s).pending =
    s.pending := by simp [State.startControl]

@[simp] theorem State.startNext_frame (p : Port) (s : State) :
    (State.startNext p s).ao = s.ao ∧ (State.startNext p s).cd = s.cd ∧ (State.startNext p s).la = s.la ∧ (State.startNext
    p s).lb = s.lb ∧ (State.startNext p s).ref = s.ref ∧ (State.startNext p s).ends = s.ends ∧ (State.startNext p s).errs
    = s.errs ∧ (State.startNext p s).level = s.level ∧ (State.startNext p s).crossings = s.crossings ∧ (State.startNext p
    s).fences = s.fences ∧ (State.startNext p s).pending = s.pending := by
  and_intros <;> first | rfl | (simp [State.startNext]; done) | ((unfold State.startNext; (try dsimp only); repeat' split) <;> first | rfl | simp [*])

@[simp] theorem State.transmit_frame (p : Port) (s : State) :
    (State.transmit p s).ao = s.ao ∧ (State.transmit p s).cd = s.cd ∧ (State.transmit p s).la = s.la ∧ (State.transmit p
    s).lb = s.lb ∧ (State.transmit p s).ref = s.ref ∧ (State.transmit p s).ends = s.ends ∧ (State.transmit p s).errs =
    s.errs ∧ (State.transmit p s).level = s.level ∧ (State.transmit p s).crossings = s.crossings ∧ (State.transmit p
    s).fences = s.fences ∧ (State.transmit p s).pending = s.pending := by simp [State.transmit]

@[simp] theorem State.modLocalCounters_frame (i : LocalIf) (f : LocalCounters → LocalCounters) (s : State) :
    (State.modLocalCounters i f s).ao = s.ao ∧ (State.modLocalCounters i f s).cd = s.cd ∧ (State.modLocalCounters i f
    s).la = s.la ∧ (State.modLocalCounters i f s).lb = s.lb ∧ (State.modLocalCounters i f s).ref = s.ref ∧
    (State.modLocalCounters i f s).ends = s.ends ∧ (State.modLocalCounters i f s).errs = s.errs ∧ (State.modLocalCounters
    i f s).level = s.level ∧ (State.modLocalCounters i f s).crossings = s.crossings ∧ (State.modLocalCounters i f
    s).fences = s.fences ∧ (State.modLocalCounters i f s).pending = s.pending := by and_intros <;> rfl

@[simp] theorem State.learnMac_frame (mac : NodeId) (w : MacWhere) (s : State) :
    (State.learnMac mac w s).ao = s.ao ∧ (State.learnMac mac w s).cd = s.cd ∧ (State.learnMac mac w s).la = s.la ∧
    (State.learnMac mac w s).lb = s.lb ∧ (State.learnMac mac w s).ref = s.ref ∧ (State.learnMac mac w s).ends = s.ends ∧
    (State.learnMac mac w s).errs = s.errs ∧ (State.learnMac mac w s).level = s.level ∧ (State.learnMac mac w s).crossings
    = s.crossings ∧ (State.learnMac mac w s).fences = s.fences ∧ (State.learnMac mac w s).pending = s.pending := by simp [State.learnMac]

@[simp] theorem State.restartLocal_frame (i : LocalIf) (s : State) :
    (State.restartLocal i s).ao = s.ao ∧ (State.restartLocal i s).cd = s.cd ∧ (State.restartLocal i s).la = s.la ∧
    (State.restartLocal i s).lb = s.lb ∧ (State.restartLocal i s).ref = s.ref ∧ (State.restartLocal i s).ends = s.ends ∧
    (State.restartLocal i s).errs = s.errs ∧ (State.restartLocal i s).level = s.level ∧ (State.restartLocal i s).crossings
    = s.crossings ∧ (State.restartLocal i s).fences = s.fences ∧ (State.restartLocal i s).pending = s.pending := by and_intros <;> rfl

@[simp] theorem State.deliver_frame (i : LocalIf) (frame : List Byte) (s : State) :
    (State.deliver i frame s).ao = s.ao ∧ (State.deliver i frame s).cd = s.cd ∧ (State.deliver i frame s).la = s.la ∧
    (State.deliver i frame s).lb = s.lb ∧ (State.deliver i frame s).ref = s.ref ∧ (State.deliver i frame s).ends = s.ends
    ∧ (State.deliver i frame s).errs = s.errs ∧ (State.deliver i frame s).level = s.level ∧ (State.deliver i frame
    s).crossings = s.crossings ∧ (State.deliver i frame s).fences = s.fences ∧ (State.deliver i frame s).pending =
    s.pending := by simp [State.deliver]

@[simp] theorem State.deliverCarried_frame (h : LineHdr) (c : CarriedP) (s : State) :
    (State.deliverCarried h c s).ao = s.ao ∧ (State.deliverCarried h c s).cd = s.cd ∧ (State.deliverCarried h c s).la =
    s.la ∧ (State.deliverCarried h c s).lb = s.lb ∧ (State.deliverCarried h c s).ref = s.ref ∧ (State.deliverCarried h c
    s).ends = s.ends ∧ (State.deliverCarried h c s).errs = s.errs ∧ (State.deliverCarried h c s).level = s.level ∧
    (State.deliverCarried h c s).crossings = s.crossings ∧ (State.deliverCarried h c s).fences = s.fences ∧
    (State.deliverCarried h c s).pending = s.pending := by
  and_intros <;> first | rfl | (simp [State.deliverCarried]; done) | ((unfold State.deliverCarried; (try dsimp only); repeat' split) <;> first | rfl | simp [*])

@[simp] theorem State.queueMgmt_frame (p : Port) (h : LineHdr) (m : MgmtP) (s : State) :
    (State.queueMgmt p h m s).ao = s.ao ∧ (State.queueMgmt p h m s).cd = s.cd ∧ (State.queueMgmt p h m s).la = s.la ∧
    (State.queueMgmt p h m s).lb = s.lb ∧ (State.queueMgmt p h m s).ref = s.ref ∧ (State.queueMgmt p h m s).ends = s.ends
    ∧ (State.queueMgmt p h m s).errs = s.errs ∧ (State.queueMgmt p h m s).level = s.level ∧ (State.queueMgmt p h m
    s).crossings = s.crossings ∧ (State.queueMgmt p h m s).fences = s.fences ∧ (State.queueMgmt p h m s).pending =
    s.pending := by simp [State.queueMgmt]

@[simp] theorem State.discipline_frame (off : Int) (s : State) :
    (State.discipline off s).ao = s.ao ∧ (State.discipline off s).cd = s.cd ∧ (State.discipline off s).la = s.la ∧
    (State.discipline off s).lb = s.lb ∧ (State.discipline off s).ref = s.ref ∧ (State.discipline off s).ends = s.ends ∧
    (State.discipline off s).errs = s.errs ∧ (State.discipline off s).level = s.level ∧ (State.discipline off s).crossings
    = s.crossings ∧ (State.discipline off s).fences = s.fences ∧ (State.discipline off s).pending = s.pending := by simp [State.discipline]

@[simp] theorem State.leaveHoldover_frame (s : State) :
    (State.leaveHoldover s).ao = s.ao ∧ (State.leaveHoldover s).la = s.la ∧ (State.leaveHoldover s).lb = s.lb ∧
    (State.leaveHoldover s).ref = s.ref ∧ (State.leaveHoldover s).ends = s.ends ∧ (State.leaveHoldover s).errs = s.errs ∧
    (State.leaveHoldover s).level = s.level ∧ (State.leaveHoldover s).crossings = s.crossings ∧ (State.leaveHoldover
    s).fences = s.fences ∧ (State.leaveHoldover s).pending = s.pending := by simp [State.leaveHoldover]

@[simp] theorem State.sendTime_frame (p : Port) (s : State) :
    (State.sendTime p s).ao = s.ao ∧ (State.sendTime p s).cd = s.cd ∧ (State.sendTime p s).la = s.la ∧ (State.sendTime p
    s).lb = s.lb ∧ (State.sendTime p s).ref = s.ref ∧ (State.sendTime p s).ends = s.ends ∧ (State.sendTime p s).errs =
    s.errs ∧ (State.sendTime p s).level = s.level ∧ (State.sendTime p s).crossings = s.crossings ∧ (State.sendTime p
    s).fences = s.fences ∧ (State.sendTime p s).pending = s.pending := by simp [State.sendTime]

@[simp] theorem State.train_frame (p : Port) (s : State) :
    (State.train p s).ao = s.ao ∧ (State.train p s).cd = s.cd ∧ (State.train p s).la = s.la ∧ (State.train p s).lb = s.lb
    ∧ (State.train p s).ref = s.ref ∧ (State.train p s).ends = s.ends ∧ (State.train p s).errs = s.errs ∧ (State.train p
    s).level = s.level ∧ (State.train p s).crossings = s.crossings ∧ (State.train p s).fences = s.fences ∧ (State.train p
    s).pending = s.pending := by simp [State.train]

@[simp] theorem State.train16_frame (p : Port) (s : State) :
    (State.train16 p s).ao = s.ao ∧ (State.train16 p s).cd = s.cd ∧ (State.train16 p s).la = s.la ∧ (State.train16 p s).lb
    = s.lb ∧ (State.train16 p s).ref = s.ref ∧ (State.train16 p s).ends = s.ends ∧ (State.train16 p s).errs = s.errs ∧
    (State.train16 p s).level = s.level ∧ (State.train16 p s).crossings = s.crossings ∧ (State.train16 p s).fences =
    s.fences ∧ (State.train16 p s).pending = s.pending := by simp [State.train16]

@[simp] theorem State.toTrain_frame (p : Port) (nrz : Bool) (s : State) :
    (State.toTrain p nrz s).ao = s.ao ∧ (State.toTrain p nrz s).cd = s.cd ∧ (State.toTrain p nrz s).la = s.la ∧
    (State.toTrain p nrz s).lb = s.lb ∧ (State.toTrain p nrz s).ref = s.ref ∧ (State.toTrain p nrz s).ends = s.ends ∧
    (State.toTrain p nrz s).errs = s.errs ∧ (State.toTrain p nrz s).level = s.level ∧ (State.toTrain p nrz s).crossings =
    s.crossings ∧ (State.toTrain p nrz s).fences = s.fences ∧ (State.toTrain p nrz s).pending = s.pending := by simp [State.toTrain]

@[simp] theorem State.failLane_frame (p : Port) (s : State) :
    (State.failLane p s).ao = s.ao ∧ (State.failLane p s).la = s.la ∧ (State.failLane p s).lb = s.lb ∧ (State.failLane p
    s).ref = s.ref ∧ (State.failLane p s).ends = s.ends ∧ (State.failLane p s).errs = s.errs ∧ (State.failLane p s).level
    = s.level ∧ (State.failLane p s).crossings = s.crossings ∧ (State.failLane p s).fences = s.fences ∧ (State.failLane p
    s).pending = s.pending := by
  and_intros <;> first | rfl | (simp [State.failLane]; done) | ((unfold State.failLane; (try dsimp only); repeat' split) <;> first | rfl | simp [*])

@[simp] theorem State.slower_frame (p : Port) (s : State) :
    (State.slower p s).ao = s.ao ∧ (State.slower p s).la = s.la ∧ (State.slower p s).lb = s.lb ∧ (State.slower p s).ref =
    s.ref ∧ (State.slower p s).ends = s.ends ∧ (State.slower p s).errs = s.errs ∧ (State.slower p s).level = s.level ∧
    (State.slower p s).crossings = s.crossings ∧ (State.slower p s).fences = s.fences ∧ (State.slower p s).pending =
    s.pending := by simp [State.slower]

@[simp] theorem State.resyncCredits_frame (p : Port) (s : State) :
    (State.resyncCredits p s).ao = s.ao ∧ (State.resyncCredits p s).cd = s.cd ∧ (State.resyncCredits p s).la = s.la ∧
    (State.resyncCredits p s).lb = s.lb ∧ (State.resyncCredits p s).ref = s.ref ∧ (State.resyncCredits p s).ends = s.ends
    ∧ (State.resyncCredits p s).errs = s.errs ∧ (State.resyncCredits p s).level = s.level ∧ (State.resyncCredits p
    s).crossings = s.crossings ∧ (State.resyncCredits p s).fences = s.fences ∧ (State.resyncCredits p s).pending =
    s.pending := by and_intros <;> rfl

@[simp] theorem State.laneComesUp_frame (p : Port) (s : State) :
    (State.laneComesUp p s).ao = s.ao ∧ (State.laneComesUp p s).la = s.la ∧ (State.laneComesUp p s).lb = s.lb ∧
    (State.laneComesUp p s).ref = s.ref ∧ (State.laneComesUp p s).errs = s.errs ∧ (State.laneComesUp p s).level = s.level
    ∧ (State.laneComesUp p s).crossings = s.crossings ∧ (State.laneComesUp p s).fences = s.fences ∧ (State.laneComesUp p
    s).pending = s.pending := by simp [State.laneComesUp]

@[simp] theorem State.abortScan_frame (p : Port) (s : State) :
    (State.abortScan p s).ao = s.ao ∧ (State.abortScan p s).cd = s.cd ∧ (State.abortScan p s).la = s.la ∧ (State.abortScan
    p s).lb = s.lb ∧ (State.abortScan p s).ref = s.ref ∧ (State.abortScan p s).ends = s.ends ∧ (State.abortScan p s).errs
    = s.errs ∧ (State.abortScan p s).level = s.level ∧ (State.abortScan p s).crossings = s.crossings ∧ (State.abortScan p
    s).fences = s.fences ∧ (State.abortScan p s).pending = s.pending := by simp [State.abortScan]

@[simp] theorem State.reportLoss_frame (p : Port) (s : State) :
    (State.reportLoss p s).ao = s.ao ∧ (State.reportLoss p s).cd = s.cd ∧ (State.reportLoss p s).la = s.la ∧
    (State.reportLoss p s).lb = s.lb ∧ (State.reportLoss p s).ref = s.ref ∧ (State.reportLoss p s).ends = s.ends ∧
    (State.reportLoss p s).errs = s.errs ∧ (State.reportLoss p s).level = s.level ∧ (State.reportLoss p s).crossings =
    s.crossings ∧ (State.reportLoss p s).fences = s.fences ∧ (State.reportLoss p s).pending = s.pending := by and_intros <;> rfl

@[simp] theorem State.leaveUp_frame (p : Port) (s : State) :
    (State.leaveUp p s).ao = s.ao ∧ (State.leaveUp p s).cd = s.cd ∧ (State.leaveUp p s).la = s.la ∧ (State.leaveUp p s).lb
    = s.lb ∧ (State.leaveUp p s).ref = s.ref ∧ (State.leaveUp p s).ends = s.ends ∧ (State.leaveUp p s).errs = s.errs ∧
    (State.leaveUp p s).level = s.level ∧ (State.leaveUp p s).crossings = s.crossings ∧ (State.leaveUp p s).fences =
    s.fences ∧ (State.leaveUp p s).pending = s.pending := by simp [State.leaveUp]

@[simp] theorem State.askTap_frame (p : Port) (adapted : Bool) (s : State) :
    (State.askTap p adapted s).ao = s.ao ∧ (State.askTap p adapted s).cd = s.cd ∧ (State.askTap p adapted s).la = s.la ∧
    (State.askTap p adapted s).lb = s.lb ∧ (State.askTap p adapted s).ref = s.ref ∧ (State.askTap p adapted s).ends =
    s.ends ∧ (State.askTap p adapted s).errs = s.errs ∧ (State.askTap p adapted s).level = s.level ∧ (State.askTap p
    adapted s).crossings = s.crossings ∧ (State.askTap p adapted s).fences = s.fences ∧ (State.askTap p adapted s).pending
    = s.pending := by simp [State.askTap]

@[simp] theorem State.miswire_frame (p : Port) (s : State) :
    (State.miswire p s).ao = s.ao ∧ (State.miswire p s).la = s.la ∧ (State.miswire p s).lb = s.lb ∧ (State.miswire p
    s).ref = s.ref ∧ (State.miswire p s).ends = s.ends ∧ (State.miswire p s).errs = s.errs ∧ (State.miswire p s).level =
    s.level ∧ (State.miswire p s).crossings = s.crossings ∧ (State.miswire p s).fences = s.fences ∧ (State.miswire p
    s).pending = s.pending := by simp [State.miswire]

@[simp] theorem State.actOnTraining_frame (p : Port) (adapted : Bool) (s : State) :
    (State.actOnTraining p adapted s).ao = s.ao ∧ (State.actOnTraining p adapted s).la = s.la ∧ (State.actOnTraining p
    adapted s).lb = s.lb ∧ (State.actOnTraining p adapted s).ref = s.ref ∧ (State.actOnTraining p adapted s).ends = s.ends
    ∧ (State.actOnTraining p adapted s).errs = s.errs ∧ (State.actOnTraining p adapted s).level = s.level ∧
    (State.actOnTraining p adapted s).crossings = s.crossings ∧ (State.actOnTraining p adapted s).fences = s.fences ∧
    (State.actOnTraining p adapted s).pending = s.pending := by
  and_intros <;> first | rfl | (simp [State.actOnTraining]; done) | ((unfold State.actOnTraining; (try dsimp only); repeat' split) <;> first | rfl | simp [*])

@[simp] theorem State.takeWords_frame (p : Port) (words : Option (Half × Half)) (adapted : Bool) (s : State) :
    (State.takeWords p words adapted s).ao = s.ao ∧ (State.takeWords p words adapted s).la = s.la ∧ (State.takeWords p
    words adapted s).lb = s.lb ∧ (State.takeWords p words adapted s).ref = s.ref ∧ (State.takeWords p words adapted
    s).ends = s.ends ∧ (State.takeWords p words adapted s).errs = s.errs ∧ (State.takeWords p words adapted s).level =
    s.level ∧ (State.takeWords p words adapted s).crossings = s.crossings ∧ (State.takeWords p words adapted s).fences =
    s.fences ∧ (State.takeWords p words adapted s).pending = s.pending := by
  and_intros <;> first | rfl | (simp [State.takeWords]; done) | ((unfold State.takeWords; (try dsimp only); repeat' split) <;> first | rfl | simp [*])

@[simp] theorem State.buildAlarm_frame (d : Die) (c : Chan) (kind : BitVec 4) (noReq : Bool) (s : State) :
    (State.buildAlarm d c kind noReq s).ao = s.ao ∧ (State.buildAlarm d c kind noReq s).cd = s.cd ∧ (State.buildAlarm d c
    kind noReq s).ld = s.ld ∧ (State.buildAlarm d c kind noReq s).ref = s.ref ∧ (State.buildAlarm d c kind noReq s).errs =
    s.errs ∧ (State.buildAlarm d c kind noReq s).level = s.level ∧ (State.buildAlarm d c kind noReq s).crossings =
    s.crossings ∧ (State.buildAlarm d c kind noReq s).fences = s.fences ∧ (State.buildAlarm d c kind noReq s).pending =
    s.pending := by simp [State.buildAlarm]

@[simp] theorem State.buildAlarm_other_la (c : Chan) (kind : BitVec 4) (noReq : Bool) (s : State) :
    (State.buildAlarm .la c kind noReq s).lb = s.lb := by simp [State.buildAlarm]

@[simp] theorem State.buildAlarm_other_lb (c : Chan) (kind : BitVec 4) (noReq : Bool) (s : State) :
    (State.buildAlarm .lb c kind noReq s).la = s.la := by simp [State.buildAlarm]

@[simp] theorem State.modChan_frame (d : Die) (c : Chan) (f : Channel → Channel) (s : State) :
    (State.modChan d c f s).ao = s.ao ∧ (State.modChan d c f s).cd = s.cd ∧ (State.modChan d c f s).ld = s.ld ∧
    (State.modChan d c f s).ref = s.ref ∧ (State.modChan d c f s).ends = s.ends ∧ (State.modChan d c f s).errs = s.errs ∧
    (State.modChan d c f s).level = s.level ∧ (State.modChan d c f s).crossings = s.crossings ∧ (State.modChan d c f
    s).fences = s.fences ∧ (State.modChan d c f s).pending = s.pending := by simp [State.modChan]

@[simp] theorem State.modChan_other_la (c : Chan) (f : Channel → Channel) (s : State) :
    (State.modChan .la c f s).lb = s.lb := rfl

@[simp] theorem State.modChan_other_lb (c : Chan) (f : Channel → Channel) (s : State) :
    (State.modChan .lb c f s).la = s.la := rfl

@[simp] theorem State.updatePl_frame (d : Die) (s : State) :
    (State.updatePl d s).ao = s.ao ∧ (State.updatePl d s).cd = s.cd ∧ (State.updatePl d s).ld = s.ld ∧ (State.updatePl d
    s).ref = s.ref ∧ (State.updatePl d s).ends = s.ends ∧ (State.updatePl d s).errs = s.errs ∧ (State.updatePl d s).level
    = s.level ∧ (State.updatePl d s).crossings = s.crossings ∧ (State.updatePl d s).fences = s.fences ∧ (State.updatePl d
    s).pending = s.pending := by simp [State.updatePl]

@[simp] theorem State.updatePl_other_la (s : State) :
    (State.updatePl .la s).lb = s.lb := rfl

@[simp] theorem State.updatePl_other_lb (s : State) :
    (State.updatePl .lb s).la = s.la := rfl

@[simp] theorem State.declareDark_frame (d : Die) (c : Chan) (k : DarkKind) (s : State) :
    (State.declareDark d c k s).ao = s.ao ∧ (State.declareDark d c k s).cd = s.cd ∧ (State.declareDark d c k s).ld = s.ld
    ∧ (State.declareDark d c k s).ref = s.ref ∧ (State.declareDark d c k s).errs = s.errs ∧ (State.declareDark d c k
    s).level = s.level ∧ (State.declareDark d c k s).crossings = s.crossings ∧ (State.declareDark d c k s).fences =
    s.fences ∧ (State.declareDark d c k s).pending = s.pending := by simp [State.declareDark]

@[simp] theorem State.declareDark_other_la (c : Chan) (k : DarkKind) (s : State) :
    (State.declareDark .la c k s).lb = s.lb := by simp [State.declareDark]

@[simp] theorem State.declareDark_other_lb (c : Chan) (k : DarkKind) (s : State) :
    (State.declareDark .lb c k s).la = s.la := by simp [State.declareDark]

@[simp] theorem State.clearDark_frame (d : Die) (c : Chan) (p : Proof) (noReq : Bool) (s : State) :
    (State.clearDark d c p noReq s).ao = s.ao ∧ (State.clearDark d c p noReq s).cd = s.cd ∧ (State.clearDark d c p noReq
    s).ld = s.ld ∧ (State.clearDark d c p noReq s).ref = s.ref ∧ (State.clearDark d c p noReq s).errs = s.errs ∧
    (State.clearDark d c p noReq s).level = s.level ∧ (State.clearDark d c p noReq s).crossings = s.crossings ∧
    (State.clearDark d c p noReq s).fences = s.fences ∧ (State.clearDark d c p noReq s).pending = s.pending := by simp [State.clearDark]

@[simp] theorem State.clearDark_other_la (c : Chan) (p : Proof) (noReq : Bool) (s : State) :
    (State.clearDark .la c p noReq s).lb = s.lb := by simp [State.clearDark]

@[simp] theorem State.clearDark_other_lb (c : Chan) (p : Proof) (noReq : Bool) (s : State) :
    (State.clearDark .lb c p noReq s).la = s.la := by simp [State.clearDark]

@[simp] theorem State.qualify_frame (d : Die) (c : Chan) (s : State) :
    (State.qualify d c s).ao = s.ao ∧ (State.qualify d c s).cd = s.cd ∧ (State.qualify d c s).ld = s.ld ∧ (State.qualify d
    c s).ref = s.ref ∧ (State.qualify d c s).errs = s.errs ∧ (State.qualify d c s).level = s.level ∧ (State.qualify d c
    s).crossings = s.crossings ∧ (State.qualify d c s).fences = s.fences ∧ (State.qualify d c s).pending = s.pending := by simp [State.qualify]

@[simp] theorem State.qualify_other_la (c : Chan) (s : State) :
    (State.qualify .la c s).lb = s.lb := by simp [State.qualify]

@[simp] theorem State.qualify_other_lb (c : Chan) (s : State) :
    (State.qualify .lb c s).la = s.la := by simp [State.qualify]

@[simp] theorem State.dutyStep_frame (d : Die) (c : Chan) (s : State) :
    (State.dutyStep d c s).ao = s.ao ∧ (State.dutyStep d c s).cd = s.cd ∧ (State.dutyStep d c s).ld = s.ld ∧
    (State.dutyStep d c s).ref = s.ref ∧ (State.dutyStep d c s).errs = s.errs ∧ (State.dutyStep d c s).level = s.level ∧
    (State.dutyStep d c s).crossings = s.crossings ∧ (State.dutyStep d c s).fences = s.fences ∧ (State.dutyStep d c
    s).pending = s.pending := by simp [State.dutyStep]

@[simp] theorem State.dutyStep_other_la (c : Chan) (s : State) :
    (State.dutyStep .la c s).lb = s.lb := by simp [State.dutyStep]

@[simp] theorem State.dutyStep_other_lb (c : Chan) (s : State) :
    (State.dutyStep .lb c s).la = s.la := by simp [State.dutyStep]

@[simp] theorem State.requalify_frame (d : Die) (c : Chan) (s : State) :
    (State.requalify d c s).ao = s.ao ∧ (State.requalify d c s).cd = s.cd ∧ (State.requalify d c s).ld = s.ld ∧
    (State.requalify d c s).ref = s.ref ∧ (State.requalify d c s).errs = s.errs ∧ (State.requalify d c s).level = s.level
    ∧ (State.requalify d c s).crossings = s.crossings ∧ (State.requalify d c s).fences = s.fences ∧ (State.requalify d c
    s).pending = s.pending := by simp [State.requalify]

@[simp] theorem State.requalify_other_la (c : Chan) (s : State) :
    (State.requalify .la c s).lb = s.lb := by simp [State.requalify]

@[simp] theorem State.requalify_other_lb (c : Chan) (s : State) :
    (State.requalify .lb c s).la = s.la := by simp [State.requalify]

@[simp] theorem State.checkUncal_frame (d : Die) (c : Chan) (s : State) :
    (State.checkUncal d c s).ao = s.ao ∧ (State.checkUncal d c s).cd = s.cd ∧ (State.checkUncal d c s).ld = s.ld ∧
    (State.checkUncal d c s).ref = s.ref ∧ (State.checkUncal d c s).errs = s.errs ∧ (State.checkUncal d c s).level =
    s.level ∧ (State.checkUncal d c s).crossings = s.crossings ∧ (State.checkUncal d c s).fences = s.fences ∧
    (State.checkUncal d c s).pending = s.pending := by simp [State.checkUncal]

@[simp] theorem State.checkUncal_other_la (c : Chan) (s : State) :
    (State.checkUncal .la c s).lb = s.lb := by simp [State.checkUncal]

@[simp] theorem State.checkUncal_other_lb (c : Chan) (s : State) :
    (State.checkUncal .lb c s).la = s.la := by simp [State.checkUncal]

@[simp] theorem State.showCycle_frame (d : Die) (s : State) :
    (State.showCycle d s).ao = s.ao ∧ (State.showCycle d s).cd = s.cd ∧ (State.showCycle d s).ld = s.ld ∧ (State.showCycle
    d s).ref = s.ref ∧ (State.showCycle d s).errs = s.errs ∧ (State.showCycle d s).level = s.level ∧ (State.showCycle d
    s).crossings = s.crossings ∧ (State.showCycle d s).fences = s.fences ∧ (State.showCycle d s).pending = s.pending := by simp [State.showCycle]

@[simp] theorem State.showCycle_other_la (s : State) :
    (State.showCycle .la s).lb = s.lb := by simp [State.showCycle]

@[simp] theorem State.showCycle_other_lb (s : State) :
    (State.showCycle .lb s).la = s.la := by simp [State.showCycle]

@[simp] theorem State.loseCd_frame (d : Die) (s : State) :
    (State.loseCd d s).ao = s.ao ∧ (State.loseCd d s).cd = s.cd ∧ (State.loseCd d s).ld = s.ld ∧ (State.loseCd d s).ref =
    s.ref ∧ (State.loseCd d s).ends = s.ends ∧ (State.loseCd d s).errs = s.errs ∧ (State.loseCd d s).level = s.level ∧
    (State.loseCd d s).crossings = s.crossings ∧ (State.loseCd d s).fences = s.fences ∧ (State.loseCd d s).pending =
    s.pending := by simp [State.loseCd]

@[simp] theorem State.loseCd_other_la (s : State) :
    (State.loseCd .la s).lb = s.lb := by simp [State.loseCd]

@[simp] theorem State.loseCd_other_lb (s : State) :
    (State.loseCd .lb s).la = s.la := by simp [State.loseCd]

@[simp] theorem State.regainCd_frame (d : Die) (s : State) :
    (State.regainCd d s).ao = s.ao ∧ (State.regainCd d s).cd = s.cd ∧ (State.regainCd d s).ld = s.ld ∧ (State.regainCd d
    s).ref = s.ref ∧ (State.regainCd d s).ends = s.ends ∧ (State.regainCd d s).errs = s.errs ∧ (State.regainCd d s).level
    = s.level ∧ (State.regainCd d s).crossings = s.crossings ∧ (State.regainCd d s).fences = s.fences ∧ (State.regainCd d
    s).pending = s.pending := by simp [State.regainCd]

@[simp] theorem State.regainCd_other_la (s : State) :
    (State.regainCd .la s).lb = s.lb := rfl

@[simp] theorem State.regainCd_other_lb (s : State) :
    (State.regainCd .lb s).la = s.la := rfl

@[simp] theorem State.sendHealth_frame (d : Die) (s : State) :
    (State.sendHealth d s).ao = s.ao ∧ (State.sendHealth d s).cd = s.cd ∧ (State.sendHealth d s).ld = s.ld ∧
    (State.sendHealth d s).ref = s.ref ∧ (State.sendHealth d s).errs = s.errs ∧ (State.sendHealth d s).level = s.level ∧
    (State.sendHealth d s).crossings = s.crossings ∧ (State.sendHealth d s).fences = s.fences ∧ (State.sendHealth d
    s).pending = s.pending := by simp [State.sendHealth]

@[simp] theorem State.sendHealth_other_la (s : State) :
    (State.sendHealth .la s).lb = s.lb := rfl

@[simp] theorem State.sendHealth_other_lb (s : State) :
    (State.sendHealth .lb s).la = s.la := rfl

@[simp] theorem State.beginGap_frame (s : State) :
    (State.beginGap s).ao = s.ao ∧ (State.beginGap s).cd = s.cd ∧ (State.beginGap s).ld = s.ld ∧ (State.beginGap s).ref =
    s.ref ∧ (State.beginGap s).ends = s.ends ∧ (State.beginGap s).errs = s.errs ∧ (State.beginGap s).level = s.level ∧
    (State.beginGap s).crossings = s.crossings ∧ (State.beginGap s).fences = s.fences ∧ (State.beginGap s).pending =
    s.pending := by and_intros <;> rfl

@[simp] theorem State.endGap_frame (s : State) :
    (State.endGap s).ao = s.ao ∧ (State.endGap s).cd = s.cd ∧ (State.endGap s).ld = s.ld ∧ (State.endGap s).ref = s.ref ∧
    (State.endGap s).ends = s.ends ∧ (State.endGap s).errs = s.errs ∧ (State.endGap s).level = s.level ∧ (State.endGap
    s).crossings = s.crossings ∧ (State.endGap s).fences = s.fences ∧ (State.endGap s).pending = s.pending := by and_intros <;> rfl

@[simp] theorem State.openGates_frame (d : Die) (s : State) :
    (State.openGates d s).ao = s.ao ∧ (State.openGates d s).cd = s.cd ∧ (State.openGates d s).ld = s.ld ∧ (State.openGates
    d s).ref = s.ref ∧ (State.openGates d s).ends = s.ends ∧ (State.openGates d s).errs = s.errs ∧ (State.openGates d
    s).crossings = s.crossings ∧ (State.openGates d s).fences = s.fences ∧ (State.openGates d s).pending = s.pending := by simp [State.openGates]

@[simp] theorem State.closeGates_frame (d : Die) (s : State) :
    (State.closeGates d s).ao = s.ao ∧ (State.closeGates d s).cd = s.cd ∧ (State.closeGates d s).ld = s.ld ∧
    (State.closeGates d s).ref = s.ref ∧ (State.closeGates d s).ends = s.ends ∧ (State.closeGates d s).errs = s.errs ∧
    (State.closeGates d s).crossings = s.crossings ∧ (State.closeGates d s).fences = s.fences ∧ (State.closeGates d
    s).pending = s.pending := by simp [State.closeGates]

@[simp] theorem State.closeGates_other_la (s : State) :
    (State.closeGates .la s).lb = s.lb := rfl

@[simp] theorem State.closeGates_other_lb (s : State) :
    (State.closeGates .lb s).la = s.la := rfl

@[simp] theorem State.beginShutdown_frame (d : Die) (s : State) :
    (State.beginShutdown d s).ao = s.ao ∧ (State.beginShutdown d s).cd = s.cd ∧ (State.beginShutdown d s).ld = s.ld ∧
    (State.beginShutdown d s).ref = s.ref ∧ (State.beginShutdown d s).ends = s.ends ∧ (State.beginShutdown d s).errs =
    s.errs ∧ (State.beginShutdown d s).crossings = s.crossings ∧ (State.beginShutdown d s).fences = s.fences ∧
    (State.beginShutdown d s).pending = s.pending := by simp [State.beginShutdown]

@[simp] theorem State.beginShutdown_other_la (s : State) :
    (State.beginShutdown .la s).lb = s.lb := by simp [State.beginShutdown]

@[simp] theorem State.beginShutdown_other_lb (s : State) :
    (State.beginShutdown .lb s).la = s.la := by simp [State.beginShutdown]

@[simp] theorem State.spendStore_frame (d : Die) (cause : Byte) (s : State) :
    (State.spendStore d cause s).ao = s.ao ∧ (State.spendStore d cause s).cd = s.cd ∧ (State.spendStore d cause s).ld =
    s.ld ∧ (State.spendStore d cause s).ref = s.ref ∧ (State.spendStore d cause s).errs = s.errs ∧ (State.spendStore d
    cause s).crossings = s.crossings ∧ (State.spendStore d cause s).fences = s.fences ∧ (State.spendStore d cause
    s).pending = s.pending := by
  and_intros <;> first | rfl | (simp [State.spendStore]; done) | ((unfold State.spendStore; (try dsimp only); repeat' split) <;> first | rfl | simp [*])

@[simp] theorem State.switchReport_frame (cause : Byte) (src : Option Die) (dst : Option Die) (kill : Bool) (notReady :
    Bool) (s : State) :
    (State.switchReport cause src dst kill notReady s).ao = s.ao ∧ (State.switchReport cause src dst kill notReady s).cd =
    s.cd ∧ (State.switchReport cause src dst kill notReady s).ld = s.ld ∧ (State.switchReport cause src dst kill notReady
    s).la = s.la ∧ (State.switchReport cause src dst kill notReady s).lb = s.lb ∧ (State.switchReport cause src dst kill
    notReady s).ref = s.ref ∧ (State.switchReport cause src dst kill notReady s).errs = s.errs ∧ (State.switchReport cause
    src dst kill notReady s).level = s.level ∧ (State.switchReport cause src dst kill notReady s).crossings = s.crossings
    ∧ (State.switchReport cause src dst kill notReady s).fences = s.fences ∧ (State.switchReport cause src dst kill
    notReady s).pending = s.pending := by and_intros <;> rfl

@[simp] theorem State.noteSwitch_frame (cause : Byte) (src : Option Die) (dst : Option Die) (kill : Bool) (notReady : Bool)
    (s : State) :
    (State.noteSwitch cause src dst kill notReady s).ao = s.ao ∧ (State.noteSwitch cause src dst kill notReady s).cd =
    s.cd ∧ (State.noteSwitch cause src dst kill notReady s).ld = s.ld ∧ (State.noteSwitch cause src dst kill notReady
    s).la = s.la ∧ (State.noteSwitch cause src dst kill notReady s).lb = s.lb ∧ (State.noteSwitch cause src dst kill
    notReady s).errs = s.errs ∧ (State.noteSwitch cause src dst kill notReady s).level = s.level ∧ (State.noteSwitch cause
    src dst kill notReady s).crossings = s.crossings ∧ (State.noteSwitch cause src dst kill notReady s).fences = s.fences
    ∧ (State.noteSwitch cause src dst kill notReady s).pending = s.pending := by simp [State.noteSwitch]

@[simp] theorem State.killStuck_frame (x : Die) (s : State) :
    (State.killStuck x s).ao = s.ao ∧ (State.killStuck x s).cd = s.cd ∧ (State.killStuck x s).ld = s.ld ∧ (State.killStuck
    x s).la = s.la ∧ (State.killStuck x s).lb = s.lb ∧ (State.killStuck x s).errs = s.errs ∧ (State.killStuck x
    s).crossings = s.crossings ∧ (State.killStuck x s).fences = s.fences ∧ (State.killStuck x s).pending = s.pending := by simp [State.killStuck]

@[simp] theorem State.killStuck_other_la (s : State) :
    (State.killStuck .la s).lb = s.lb := by simp [State.killStuck]

@[simp] theorem State.killStuck_other_lb (s : State) :
    (State.killStuck .lb s).la = s.la := by simp [State.killStuck]

@[simp] theorem State.releaseKill_frame (x : Die) (s : State) :
    (State.releaseKill x s).ao = s.ao ∧ (State.releaseKill x s).cd = s.cd ∧ (State.releaseKill x s).ld = s.ld ∧
    (State.releaseKill x s).la = s.la ∧ (State.releaseKill x s).lb = s.lb ∧ (State.releaseKill x s).ends = s.ends ∧
    (State.releaseKill x s).errs = s.errs ∧ (State.releaseKill x s).crossings = s.crossings ∧ (State.releaseKill x
    s).fences = s.fences ∧ (State.releaseKill x s).pending = s.pending := by and_intros <;> rfl

@[simp] theorem State.releaseKill_other_la (s : State) :
    (State.releaseKill .la s).lb = s.lb := rfl

@[simp] theorem State.releaseKill_other_lb (s : State) :
    (State.releaseKill .lb s).la = s.la := rfl

@[simp] theorem State.grantTo_frame (src : Option Die) (y : Die) (cause : Byte) (kill : Bool) (notReady : Bool) (s : State)
    :
    (State.grantTo src y cause kill notReady s).ao = s.ao ∧ (State.grantTo src y cause kill notReady s).cd = s.cd ∧
    (State.grantTo src y cause kill notReady s).ld = s.ld ∧ (State.grantTo src y cause kill notReady s).la = s.la ∧
    (State.grantTo src y cause kill notReady s).lb = s.lb ∧ (State.grantTo src y cause kill notReady s).errs = s.errs ∧
    (State.grantTo src y cause kill notReady s).crossings = s.crossings ∧ (State.grantTo src y cause kill notReady
    s).fences = s.fences ∧ (State.grantTo src y cause kill notReady s).pending = s.pending := by
  and_intros <;> first | rfl | (simp [State.grantTo]; done) | ((unfold State.grantTo; (try dsimp only); repeat' split) <;> first | rfl | simp [*])

@[simp] theorem State.grantTo_other_la (src : Option Die) (cause : Byte) (kill : Bool) (notReady : Bool) (s : State) :
    (State.grantTo src .la cause kill notReady s).lb = s.lb := by
  (unfold State.grantTo; (try dsimp only); repeat' split) <;> first | rfl | simp [*]

@[simp] theorem State.grantTo_other_lb (src : Option Die) (cause : Byte) (kill : Bool) (notReady : Bool) (s : State) :
    (State.grantTo src .lb cause kill notReady s).la = s.la := by
  (unfold State.grantTo; (try dsimp only); repeat' split) <;> first | rfl | simp [*]

@[simp] theorem State.tryGrant_frame (s : State) :
    (State.tryGrant s).ao = s.ao ∧ (State.tryGrant s).cd = s.cd ∧ (State.tryGrant s).ld = s.ld ∧ (State.tryGrant s).la =
    s.la ∧ (State.tryGrant s).lb = s.lb ∧ (State.tryGrant s).errs = s.errs ∧ (State.tryGrant s).crossings = s.crossings ∧
    (State.tryGrant s).fences = s.fences ∧ (State.tryGrant s).pending = s.pending := by
  and_intros <;> first | rfl | (simp [State.tryGrant]; done) | ((unfold State.tryGrant; (try dsimp only); repeat' split) <;> first | rfl | simp [*])

@[simp] theorem State.enterNoGrant_frame (s : State) :
    (State.enterNoGrant s).ao = s.ao ∧ (State.enterNoGrant s).cd = s.cd ∧ (State.enterNoGrant s).ld = s.ld ∧
    (State.enterNoGrant s).la = s.la ∧ (State.enterNoGrant s).lb = s.lb ∧ (State.enterNoGrant s).ends = s.ends ∧
    (State.enterNoGrant s).errs = s.errs ∧ (State.enterNoGrant s).level = s.level ∧ (State.enterNoGrant s).crossings =
    s.crossings ∧ (State.enterNoGrant s).fences = s.fences ∧ (State.enterNoGrant s).pending = s.pending := by and_intros <;> rfl

@[simp] theorem State.dieIsClear_frame (s : State) :
    (State.dieIsClear s).ao = s.ao ∧ (State.dieIsClear s).cd = s.cd ∧ (State.dieIsClear s).ld = s.ld ∧ (State.dieIsClear
    s).la = s.la ∧ (State.dieIsClear s).lb = s.lb ∧ (State.dieIsClear s).errs = s.errs ∧ (State.dieIsClear s).crossings =
    s.crossings ∧ (State.dieIsClear s).fences = s.fences ∧ (State.dieIsClear s).pending = s.pending := by
  and_intros <;> first | rfl | (simp [State.dieIsClear]; done) | ((unfold State.dieIsClear; (try dsimp only); repeat' split) <;> first | rfl | simp [*])

@[simp] theorem State.beginSwitch_frame (x : Die) (y : Option Die) (cause : Byte) (s : State) :
    (State.beginSwitch x y cause s).ao = s.ao ∧ (State.beginSwitch x y cause s).cd = s.cd ∧ (State.beginSwitch x y cause
    s).ld = s.ld ∧ (State.beginSwitch x y cause s).la = s.la ∧ (State.beginSwitch x y cause s).lb = s.lb ∧
    (State.beginSwitch x y cause s).errs = s.errs ∧ (State.beginSwitch x y cause s).crossings = s.crossings ∧
    (State.beginSwitch x y cause s).fences = s.fences ∧ (State.beginSwitch x y cause s).pending = s.pending := by simp [State.beginSwitch]

@[simp] theorem State.beginSwitch_other_la (y : Option Die) (cause : Byte) (s : State) :
    (State.beginSwitch .la y cause s).lb = s.lb := by simp [State.beginSwitch]

@[simp] theorem State.beginSwitch_other_lb (y : Option Die) (cause : Byte) (s : State) :
    (State.beginSwitch .lb y cause s).la = s.la := by simp [State.beginSwitch]

@[simp] theorem State.lastResortRelease_frame (y : Die) (s : State) :
    (State.lastResortRelease y s).ao = s.ao ∧ (State.lastResortRelease y s).cd = s.cd ∧ (State.lastResortRelease y s).ld =
    s.ld ∧ (State.lastResortRelease y s).la = s.la ∧ (State.lastResortRelease y s).lb = s.lb ∧ (State.lastResortRelease y
    s).ends = s.ends ∧ (State.lastResortRelease y s).errs = s.errs ∧ (State.lastResortRelease y s).crossings = s.crossings
    ∧ (State.lastResortRelease y s).fences = s.fences ∧ (State.lastResortRelease y s).pending = s.pending := by simp [State.lastResortRelease]

@[simp] theorem State.lastResortRelease_other_la (s : State) :
    (State.lastResortRelease .la s).lb = s.lb := by simp [State.lastResortRelease]

@[simp] theorem State.lastResortRelease_other_lb (s : State) :
    (State.lastResortRelease .lb s).la = s.la := by simp [State.lastResortRelease]

@[simp] theorem State.hardSwitch_frame (x : Die) (cause : Byte) (s : State) :
    (State.hardSwitch x cause s).ao = s.ao ∧ (State.hardSwitch x cause s).cd = s.cd ∧ (State.hardSwitch x cause s).ld =
    s.ld ∧ (State.hardSwitch x cause s).la = s.la ∧ (State.hardSwitch x cause s).lb = s.lb ∧ (State.hardSwitch x cause
    s).errs = s.errs ∧ (State.hardSwitch x cause s).crossings = s.crossings ∧ (State.hardSwitch x cause s).fences =
    s.fences ∧ (State.hardSwitch x cause s).pending = s.pending := by simp [State.hardSwitch]

@[simp] theorem State.hardSwitch_other_la (cause : Byte) (s : State) :
    (State.hardSwitch .la cause s).lb = s.lb := by simp [State.hardSwitch]

@[simp] theorem State.hardSwitch_other_lb (cause : Byte) (s : State) :
    (State.hardSwitch .lb cause s).la = s.la := by simp [State.hardSwitch]

@[simp] theorem State.evaluateCauses_frame (s : State) :
    (State.evaluateCauses s).ao = s.ao ∧ (State.evaluateCauses s).cd = s.cd ∧ (State.evaluateCauses s).ld = s.ld ∧
    (State.evaluateCauses s).la = s.la ∧ (State.evaluateCauses s).lb = s.lb ∧ (State.evaluateCauses s).errs = s.errs ∧
    (State.evaluateCauses s).crossings = s.crossings ∧ (State.evaluateCauses s).fences = s.fences ∧ (State.evaluateCauses
    s).pending = s.pending := by
  and_intros <;> first | rfl | (simp [State.evaluateCauses]; done) | ((unfold State.evaluateCauses; (try dsimp only); repeat' split) <;> first | rfl | simp [*])

@[simp] theorem State.refEvent_frame (s : State) :
    (State.refEvent s).ao = s.ao ∧ (State.refEvent s).cd = s.cd ∧ (State.refEvent s).ld = s.ld ∧ (State.refEvent s).la =
    s.la ∧ (State.refEvent s).lb = s.lb ∧ (State.refEvent s).errs = s.errs ∧ (State.refEvent s).crossings = s.crossings ∧
    (State.refEvent s).fences = s.fences ∧ (State.refEvent s).pending = s.pending := by simp [State.refEvent]

@[simp] theorem State.grantDone_frame (s : State) :
    (State.grantDone s).ao = s.ao ∧ (State.grantDone s).cd = s.cd ∧ (State.grantDone s).ld = s.ld ∧ (State.grantDone s).la
    = s.la ∧ (State.grantDone s).lb = s.lb ∧ (State.grantDone s).errs = s.errs ∧ (State.grantDone s).crossings =
    s.crossings ∧ (State.grantDone s).fences = s.fences ∧ (State.grantDone s).pending = s.pending := by
  and_intros <;> first | rfl | (simp [State.grantDone]; done) | ((unfold State.grantDone; (try dsimp only); repeat' split) <;> first | rfl | simp [*])

@[simp] theorem State.seeKilled_frame (d : Die) (st : Byte) (s : State) :
    (State.seeKilled d st s).ao = s.ao ∧ (State.seeKilled d st s).cd = s.cd ∧ (State.seeKilled d st s).ld = s.ld ∧
    (State.seeKilled d st s).la = s.la ∧ (State.seeKilled d st s).lb = s.lb ∧ (State.seeKilled d st s).ends = s.ends ∧
    (State.seeKilled d st s).errs = s.errs ∧ (State.seeKilled d st s).level = s.level ∧ (State.seeKilled d st s).crossings
    = s.crossings ∧ (State.seeKilled d st s).fences = s.fences ∧ (State.seeKilled d st s).pending = s.pending := by simp [State.seeKilled]

@[simp] theorem State.seeKilled_other_la (st : Byte) (s : State) :
    (State.seeKilled .la st s).lb = s.lb := by simp [State.seeKilled]

@[simp] theorem State.seeKilled_other_lb (st : Byte) (s : State) :
    (State.seeKilled .lb st s).la = s.la := by simp [State.seeKilled]

@[simp] theorem State.refSees_frame (d : Die) (st : Byte) (s : State) :
    (State.refSees d st s).ao = s.ao ∧ (State.refSees d st s).cd = s.cd ∧ (State.refSees d st s).ld = s.ld ∧
    (State.refSees d st s).la = s.la ∧ (State.refSees d st s).lb = s.lb ∧ (State.refSees d st s).ends = s.ends ∧
    (State.refSees d st s).errs = s.errs ∧ (State.refSees d st s).level = s.level ∧ (State.refSees d st s).crossings =
    s.crossings ∧ (State.refSees d st s).fences = s.fences ∧ (State.refSees d st s).pending = s.pending := by simp [State.refSees]

@[simp] theorem State.refSees_other_la (st : Byte) (s : State) :
    (State.refSees .la st s).lb = s.lb := by simp [State.refSees]

@[simp] theorem State.refSees_other_lb (st : Byte) (s : State) :
    (State.refSees .lb st s).la = s.la := by simp [State.refSees]

@[simp] theorem State.heard_frame (l : FLink) (e : LEnd) (s : State) :
    (State.heard l e s).ao = s.ao ∧ (State.heard l e s).cd = s.cd ∧ (State.heard l e s).ld = s.ld ∧ (State.heard l e s).la
    = s.la ∧ (State.heard l e s).lb = s.lb ∧ (State.heard l e s).ref = s.ref ∧ (State.heard l e s).errs = s.errs ∧
    (State.heard l e s).level = s.level ∧ (State.heard l e s).crossings = s.crossings ∧ (State.heard l e s).fences =
    s.fences ∧ (State.heard l e s).pending = s.pending := by and_intros <;> rfl

@[simp] theorem State.findDieLost_frame (d : Die) (s : State) :
    (State.findDieLost d s).ao = s.ao ∧ (State.findDieLost d s).cd = s.cd ∧ (State.findDieLost d s).ld = s.ld ∧
    (State.findDieLost d s).la = s.la ∧ (State.findDieLost d s).lb = s.lb ∧ (State.findDieLost d s).errs = s.errs ∧
    (State.findDieLost d s).level = s.level ∧ (State.findDieLost d s).crossings = s.crossings ∧ (State.findDieLost d
    s).fences = s.fences ∧ (State.findDieLost d s).pending = s.pending := by simp [State.findDieLost]

@[simp] theorem State.findDieLost_other_la (s : State) :
    (State.findDieLost .la s).lb = s.lb := by simp [State.findDieLost]

@[simp] theorem State.findDieLost_other_lb (s : State) :
    (State.findDieLost .lb s).la = s.la := by simp [State.findDieLost]

@[simp] theorem State.lossExtra_frame (l : FLink) (e : LEnd) (s : State) :
    (State.lossExtra l e s).ao = s.ao ∧ (State.lossExtra l e s).errs = s.errs ∧ (State.lossExtra l e s).level = s.level ∧
    (State.lossExtra l e s).crossings = s.crossings ∧ (State.lossExtra l e s).fences = s.fences ∧ (State.lossExtra l e
    s).pending = s.pending := by
  and_intros <;> first | rfl | (simp [State.lossExtra]; done) | ((unfold State.lossExtra; (try dsimp only); repeat' split) <;> first | rfl | simp [*])

@[simp] theorem State.lossRaise_frame (l : FLink) (e : LEnd) (s : State) :
    (State.lossRaise l e s).ao = s.ao ∧ (State.lossRaise l e s).errs = s.errs ∧ (State.lossRaise l e s).level = s.level ∧
    (State.lossRaise l e s).crossings = s.crossings ∧ (State.lossRaise l e s).fences = s.fences ∧ (State.lossRaise l e
    s).pending = s.pending := by simp [State.lossRaise]

@[simp] theorem State.lossClear_frame (l : FLink) (e : LEnd) (s : State) :
    (State.lossClear l e s).ao = s.ao ∧ (State.lossClear l e s).errs = s.errs ∧ (State.lossClear l e s).level = s.level ∧
    (State.lossClear l e s).crossings = s.crossings ∧ (State.lossClear l e s).fences = s.fences ∧ (State.lossClear l e
    s).pending = s.pending := by
  and_intros <;> first | rfl | (simp [State.lossClear]; done) | ((unfold State.lossClear; (try dsimp only); repeat' split) <;> first | rfl | simp [*])

@[simp] theorem State.lossEffect_frame (l : FLink) (e : LEnd) (s : State) :
    (State.lossEffect l e s).ao = s.ao ∧ (State.lossEffect l e s).errs = s.errs ∧ (State.lossEffect l e s).crossings =
    s.crossings ∧ (State.lossEffect l e s).fences = s.fences ∧ (State.lossEffect l e s).pending = s.pending := by
  and_intros <;> first | rfl | (simp [State.lossEffect]; done) | ((unfold State.lossEffect; (try dsimp only); repeat' split) <;> first | rfl | simp [*])

@[simp] theorem State.rxRise_frame (l : FLink) (e : LEnd) (n : Nat) (rxerr : Byte) (s : State) :
    (State.rxRise l e n rxerr s).ao = s.ao ∧ (State.rxRise l e n rxerr s).level = s.level ∧ (State.rxRise l e n rxerr
    s).crossings = s.crossings ∧ (State.rxRise l e n rxerr s).fences = s.fences ∧ (State.rxRise l e n rxerr s).pending =
    s.pending := by simp [State.rxRise]

@[simp] theorem State.seeRxerr_frame (l : FLink) (e : LEnd) (rxerr : Byte) (s : State) :
    (State.seeRxerr l e rxerr s).ao = s.ao ∧ (State.seeRxerr l e rxerr s).level = s.level ∧ (State.seeRxerr l e rxerr
    s).crossings = s.crossings ∧ (State.seeRxerr l e rxerr s).fences = s.fences ∧ (State.seeRxerr l e rxerr s).pending =
    s.pending := by simp [State.seeRxerr]

@[simp] theorem State.discardFrame_frame (l : FLink) (e : LEnd) (s : State) :
    (State.discardFrame l e s).ao = s.ao ∧ (State.discardFrame l e s).level = s.level ∧ (State.discardFrame l e
    s).crossings = s.crossings ∧ (State.discardFrame l e s).fences = s.fences ∧ (State.discardFrame l e s).pending =
    s.pending := by simp [State.discardFrame]

@[simp] theorem State.restore_frame (l : FLink) (e : LEnd) (s : State) :
    (State.restore l e s).ao = s.ao ∧ (State.restore l e s).errs = s.errs ∧ (State.restore l e s).level = s.level ∧
    (State.restore l e s).crossings = s.crossings ∧ (State.restore l e s).fences = s.fences ∧ (State.restore l e
    s).pending = s.pending := by
  and_intros <;> first | rfl | (simp [State.restore]; done) | ((unfold State.restore; (try dsimp only); repeat' split) <;> first | rfl | simp [*])

@[simp] theorem State.seeCdMode_frame (d : Die) (was : Byte) (now_ : Byte) (s : State) :
    (State.seeCdMode d was now_ s).ao = s.ao ∧ (State.seeCdMode d was now_ s).cd = s.cd ∧ (State.seeCdMode d was now_
    s).ld = s.ld ∧ (State.seeCdMode d was now_ s).ref = s.ref ∧ (State.seeCdMode d was now_ s).ends = s.ends ∧
    (State.seeCdMode d was now_ s).errs = s.errs ∧ (State.seeCdMode d was now_ s).level = s.level ∧ (State.seeCdMode d was
    now_ s).crossings = s.crossings ∧ (State.seeCdMode d was now_ s).fences = s.fences ∧ (State.seeCdMode d was now_
    s).pending = s.pending := by simp [State.seeCdMode]

@[simp] theorem State.seeCdMode_other_la (was : Byte) (now_ : Byte) (s : State) :
    (State.seeCdMode .la was now_ s).lb = s.lb := by simp [State.seeCdMode]

@[simp] theorem State.seeCdMode_other_lb (was : Byte) (now_ : Byte) (s : State) :
    (State.seeCdMode .lb was now_ s).la = s.la := by simp [State.seeCdMode]

@[simp] theorem State.seeState_frame (l : FLink) (e : LEnd) (was : Byte) (now_ : Byte) (s : State) :
    (State.seeState l e was now_ s).ao = s.ao ∧ (State.seeState l e was now_ s).cd = s.cd ∧ (State.seeState l e was now_
    s).ld = s.ld ∧ (State.seeState l e was now_ s).errs = s.errs ∧ (State.seeState l e was now_ s).crossings = s.crossings
    ∧ (State.seeState l e was now_ s).fences = s.fences ∧ (State.seeState l e was now_ s).pending = s.pending := by
  and_intros <;> first | rfl | (simp [State.seeState]; done) | ((unfold State.seeState; (try dsimp only); repeat' split) <;> first | rfl | simp [*])

@[simp] theorem State.countInvalid_frame (l : LLink) (n : Nat) (s : State) :
    (State.countInvalid l n s).ao = s.ao ∧ (State.countInvalid l n s).cd = s.cd ∧ (State.countInvalid l n s).ld = s.ld ∧
    (State.countInvalid l n s).ends = s.ends ∧ (State.countInvalid l n s).errs = s.errs ∧ (State.countInvalid l n s).level
    = s.level ∧ (State.countInvalid l n s).crossings = s.crossings ∧ (State.countInvalid l n s).fences = s.fences ∧
    (State.countInvalid l n s).pending = s.pending := by
  and_intros <;> first | rfl | (simp [State.countInvalid]; done) | ((unfold State.countInvalid; (try dsimp only); repeat' split) <;> first | rfl | simp [*])

@[simp] theorem State.hearWords_frame (l : LLink) (words : List (BitVec 12)) (s : State) :
    (State.hearWords l words s).ao = s.ao ∧ (State.hearWords l words s).cd = s.cd ∧ (State.hearWords l words s).ld = s.ld
    ∧ (State.hearWords l words s).ends = s.ends ∧ (State.hearWords l words s).errs = s.errs ∧ (State.hearWords l words
    s).crossings = s.crossings ∧ (State.hearWords l words s).fences = s.fences ∧ (State.hearWords l words s).pending =
    s.pending := by simp [State.hearWords]

@[simp] theorem State.takeLevel_frame (l : LLink) (v : Bool) (words : List (BitVec 12)) (s : State) :
    (State.takeLevel l v words s).ao = s.ao ∧ (State.takeLevel l v words s).errs = s.errs ∧ (State.takeLevel l v words
    s).crossings = s.crossings ∧ (State.takeLevel l v words s).fences = s.fences ∧ (State.takeLevel l v words s).pending =
    s.pending := by simp [State.takeLevel]

@[simp] theorem State.endKill_frame (d : Die) (s : State) :
    (State.endKill d s).ao = s.ao ∧ (State.endKill d s).cd = s.cd ∧ (State.endKill d s).ld = s.ld ∧ (State.endKill d
    s).ref = s.ref ∧ (State.endKill d s).ends = s.ends ∧ (State.endKill d s).errs = s.errs ∧ (State.endKill d s).level =
    s.level ∧ (State.endKill d s).crossings = s.crossings ∧ (State.endKill d s).fences = s.fences ∧ (State.endKill d
    s).pending = s.pending := by simp [State.endKill]

@[simp] theorem State.endKill_other_la (s : State) :
    (State.endKill .la s).lb = s.lb := rfl

@[simp] theorem State.endKill_other_lb (s : State) :
    (State.endKill .lb s).la = s.la := rfl

@[simp] theorem State.silenceEffect_frame (l : LLink) (s : State) :
    (State.silenceEffect l s).ao = s.ao ∧ (State.silenceEffect l s).cd = s.cd ∧ (State.silenceEffect l s).ld = s.ld ∧
    (State.silenceEffect l s).errs = s.errs ∧ (State.silenceEffect l s).crossings = s.crossings ∧ (State.silenceEffect l
    s).fences = s.fences ∧ (State.silenceEffect l s).pending = s.pending := by
  and_intros <;> first | rfl | (simp [State.silenceEffect]; done) | ((unfold State.silenceEffect; (try dsimp only); repeat' split) <;> first | rfl | simp [*])

@[simp] theorem State.sendLampTime_frame (d : Die) (echoReq : Bool) (s : State) :
    (State.sendLampTime d echoReq s).ao = s.ao ∧ (State.sendLampTime d echoReq s).cd = s.cd ∧ (State.sendLampTime d
    echoReq s).ld = s.ld ∧ (State.sendLampTime d echoReq s).la = s.la ∧ (State.sendLampTime d echoReq s).lb = s.lb ∧
    (State.sendLampTime d echoReq s).ref = s.ref ∧ (State.sendLampTime d echoReq s).errs = s.errs ∧ (State.sendLampTime d
    echoReq s).level = s.level ∧ (State.sendLampTime d echoReq s).crossings = s.crossings ∧ (State.sendLampTime d echoReq
    s).fences = s.fences ∧ (State.sendLampTime d echoReq s).pending = s.pending := by and_intros <;> rfl

@[simp] theorem State.sendLampTime_other_la (echoReq : Bool) (s : State) :
    (State.sendLampTime .la echoReq s).lb = s.lb := rfl

@[simp] theorem State.sendLampTime_other_lb (echoReq : Bool) (s : State) :
    (State.sendLampTime .lb echoReq s).la = s.la := rfl

@[simp] theorem State.answerDie_frame (d : Die) (opcode : Byte) (result : Byte) (f : LampDie → LampDie) (s : State) :
    (State.answerDie d opcode result f s).1.ao = s.ao ∧ (State.answerDie d opcode result f s).1.cd = s.cd ∧
    (State.answerDie d opcode result f s).1.ld = s.ld ∧ (State.answerDie d opcode result f s).1.ref = s.ref ∧
    (State.answerDie d opcode result f s).1.ends = s.ends ∧ (State.answerDie d opcode result f s).1.errs = s.errs ∧
    (State.answerDie d opcode result f s).1.level = s.level ∧ (State.answerDie d opcode result f s).1.crossings =
    s.crossings ∧ (State.answerDie d opcode result f s).1.fences = s.fences ∧ (State.answerDie d opcode result f
    s).1.pending = s.pending := by simp [State.answerDie]

@[simp] theorem State.answerDie_other_la (opcode : Byte) (result : Byte) (f : LampDie → LampDie) (s : State) :
    (State.answerDie .la opcode result f s).1.lb = s.lb := rfl

@[simp] theorem State.answerDie_other_lb (opcode : Byte) (result : Byte) (f : LampDie → LampDie) (s : State) :
    (State.answerDie .lb opcode result f s).1.la = s.la := rfl

@[simp] theorem State.holdOrRefuse_frame (d : Die) (seq : Byte) (opcode : Byte) (ok : Bool) (op : HeldOp) (effect : Word) (s
    : State) :
    (State.holdOrRefuse d seq opcode ok op effect s).1.ao = s.ao ∧ (State.holdOrRefuse d seq opcode ok op effect s).1.cd =
    s.cd ∧ (State.holdOrRefuse d seq opcode ok op effect s).1.ld = s.ld ∧ (State.holdOrRefuse d seq opcode ok op effect
    s).1.ref = s.ref ∧ (State.holdOrRefuse d seq opcode ok op effect s).1.ends = s.ends ∧ (State.holdOrRefuse d seq opcode
    ok op effect s).1.errs = s.errs ∧ (State.holdOrRefuse d seq opcode ok op effect s).1.level = s.level ∧
    (State.holdOrRefuse d seq opcode ok op effect s).1.crossings = s.crossings ∧ (State.holdOrRefuse d seq opcode ok op
    effect s).1.fences = s.fences ∧ (State.holdOrRefuse d seq opcode ok op effect s).1.pending = s.pending := by
  and_intros <;> first | rfl | (simp [State.holdOrRefuse]; done) | ((unfold State.holdOrRefuse; (try dsimp only); repeat' split) <;> first | rfl | simp [*])

@[simp] theorem State.holdOrRefuse_other_la (seq : Byte) (opcode : Byte) (ok : Bool) (op : HeldOp) (effect : Word) (s :
    State) :
    (State.holdOrRefuse .la seq opcode ok op effect s).1.lb = s.lb := by
  (unfold State.holdOrRefuse; (try dsimp only); repeat' split) <;> first | rfl | simp [*]

@[simp] theorem State.holdOrRefuse_other_lb (seq : Byte) (opcode : Byte) (ok : Bool) (op : HeldOp) (effect : Word) (s :
    State) :
    (State.holdOrRefuse .lb seq opcode ok op effect s).1.la = s.la := by
  (unfold State.holdOrRefuse; (try dsimp only); repeat' split) <;> first | rfl | simp [*]

@[simp] theorem State.marginCycle_frame (d : Die) (s : State) :
    (State.marginCycle d s).ao = s.ao ∧ (State.marginCycle d s).cd = s.cd ∧ (State.marginCycle d s).ld = s.ld ∧
    (State.marginCycle d s).ref = s.ref ∧ (State.marginCycle d s).errs = s.errs ∧ (State.marginCycle d s).level = s.level
    ∧ (State.marginCycle d s).crossings = s.crossings ∧ (State.marginCycle d s).fences = s.fences ∧ (State.marginCycle d
    s).pending = s.pending := by simp [State.marginCycle]

@[simp] theorem State.marginCycle_other_la (s : State) :
    (State.marginCycle .la s).lb = s.lb := by simp [State.marginCycle]

@[simp] theorem State.marginCycle_other_lb (s : State) :
    (State.marginCycle .lb s).la = s.la := by simp [State.marginCycle]

@[simp] theorem State.storeConds_frame (d : Die) (s : State) :
    (State.storeConds d s).ao = s.ao ∧ (State.storeConds d s).cd = s.cd ∧ (State.storeConds d s).ld = s.ld ∧
    (State.storeConds d s).ref = s.ref ∧ (State.storeConds d s).errs = s.errs ∧ (State.storeConds d s).level = s.level ∧
    (State.storeConds d s).crossings = s.crossings ∧ (State.storeConds d s).fences = s.fences ∧ (State.storeConds d
    s).pending = s.pending := by simp [State.storeConds]

@[simp] theorem State.storeConds_other_la (s : State) :
    (State.storeConds .la s).lb = s.lb := by simp [State.storeConds]

@[simp] theorem State.storeConds_other_lb (s : State) :
    (State.storeConds .lb s).la = s.la := by simp [State.storeConds]

@[simp] theorem State.checkSpent_frame (d : Die) (s : State) :
    (State.checkSpent d s).ao = s.ao ∧ (State.checkSpent d s).cd = s.cd ∧ (State.checkSpent d s).ld = s.ld ∧
    (State.checkSpent d s).ref = s.ref ∧ (State.checkSpent d s).errs = s.errs ∧ (State.checkSpent d s).crossings =
    s.crossings ∧ (State.checkSpent d s).fences = s.fences ∧ (State.checkSpent d s).pending = s.pending := by
  and_intros <;> first | rfl | (simp [State.checkSpent]; done) | ((unfold State.checkSpent; (try dsimp only); repeat' split) <;> first | rfl | simp [*])

@[simp] theorem State.burstBooks_frame (d : Die) (ended : Nat) (s : State) :
    (State.burstBooks d ended s).ao = s.ao ∧ (State.burstBooks d ended s).cd = s.cd ∧ (State.burstBooks d ended s).ld =
    s.ld ∧ (State.burstBooks d ended s).ref = s.ref ∧ (State.burstBooks d ended s).errs = s.errs ∧ (State.burstBooks d
    ended s).level = s.level ∧ (State.burstBooks d ended s).crossings = s.crossings ∧ (State.burstBooks d ended s).fences
    = s.fences ∧ (State.burstBooks d ended s).pending = s.pending := by
  and_intros <;> first | rfl | (simp [State.burstBooks]; done) | ((unfold State.burstBooks; (try dsimp only); repeat' split) <;> first | rfl | simp [*])

@[simp] theorem State.burstBooks_other_la (ended : Nat) (s : State) :
    (State.burstBooks .la ended s).lb = s.lb := by
  (unfold State.burstBooks; (try dsimp only); repeat' split) <;> first | rfl | simp [*]

@[simp] theorem State.burstBooks_other_lb (ended : Nat) (s : State) :
    (State.burstBooks .lb ended s).la = s.la := by
  (unfold State.burstBooks; (try dsimp only); repeat' split) <;> first | rfl | simp [*]

@[simp] theorem State.applyScene_frame (sc : Byte) (cycle : Word) (s : State) :
    (State.applyScene sc cycle s).ao = s.ao ∧ (State.applyScene sc cycle s).cd = s.cd ∧ (State.applyScene sc cycle s).la =
    s.la ∧ (State.applyScene sc cycle s).lb = s.lb ∧ (State.applyScene sc cycle s).ref = s.ref ∧ (State.applyScene sc
    cycle s).errs = s.errs ∧ (State.applyScene sc cycle s).level = s.level ∧ (State.applyScene sc cycle s).crossings =
    s.crossings ∧ (State.applyScene sc cycle s).fences = s.fences ∧ (State.applyScene sc cycle s).pending = s.pending := by simp [State.applyScene]

@[simp] theorem State.takeBurst_frame (slot : BitVec 4) (start : Word) (i : Issuer) (s : State) :
    (State.takeBurst slot start i s).ao = s.ao ∧ (State.takeBurst slot start i s).cd = s.cd ∧ (State.takeBurst slot start
    i s).ld = s.ld ∧ (State.takeBurst slot start i s).la = s.la ∧ (State.takeBurst slot start i s).lb = s.lb ∧
    (State.takeBurst slot start i s).ref = s.ref ∧ (State.takeBurst slot start i s).errs = s.errs ∧ (State.takeBurst slot
    start i s).level = s.level ∧ (State.takeBurst slot start i s).crossings = s.crossings ∧ (State.takeBurst slot start i
    s).fences = s.fences ∧ (State.takeBurst slot start i s).pending = s.pending := by
  and_intros <;> first | rfl | (simp [State.takeBurst]; done) | ((unfold State.takeBurst; (try dsimp only); repeat' split) <;> first | rfl | simp [*])

@[simp] theorem State.originateSync_frame (burst : Option (BitVec 4 × Word)) (sc : Byte) (s : State) :
    (State.originateSync burst sc s).ao = s.ao ∧ (State.originateSync burst sc s).cd = s.cd ∧ (State.originateSync burst
    sc s).la = s.la ∧ (State.originateSync burst sc s).lb = s.lb ∧ (State.originateSync burst sc s).ref = s.ref ∧
    (State.originateSync burst sc s).ends = s.ends ∧ (State.originateSync burst sc s).errs = s.errs ∧ (State.originateSync
    burst sc s).level = s.level ∧ (State.originateSync burst sc s).crossings = s.crossings ∧ (State.originateSync burst sc
    s).fences = s.fences ∧ (State.originateSync burst sc s).pending = s.pending := by simp [State.originateSync]

@[simp] theorem State.tryProve_frame (d : Die) (c : Chan) (s : State) :
    (State.tryProve d c s).ao = s.ao ∧ (State.tryProve d c s).cd = s.cd ∧ (State.tryProve d c s).ld = s.ld ∧
    (State.tryProve d c s).ref = s.ref ∧ (State.tryProve d c s).errs = s.errs ∧ (State.tryProve d c s).level = s.level ∧
    (State.tryProve d c s).crossings = s.crossings ∧ (State.tryProve d c s).fences = s.fences ∧ (State.tryProve d c
    s).pending = s.pending := by
  and_intros <;> first | rfl | (simp [State.tryProve]; done) | ((unfold State.tryProve; (try dsimp only); repeat' split) <;> first | rfl | simp [*])

@[simp] theorem State.sampleOn_frame (d : Die) (c : Chan) (low : Bool) (s : State) :
    (State.sampleOn d c low s).ao = s.ao ∧ (State.sampleOn d c low s).cd = s.cd ∧ (State.sampleOn d c low s).ld = s.ld ∧
    (State.sampleOn d c low s).ref = s.ref ∧ (State.sampleOn d c low s).errs = s.errs ∧ (State.sampleOn d c low s).level =
    s.level ∧ (State.sampleOn d c low s).crossings = s.crossings ∧ (State.sampleOn d c low s).fences = s.fences ∧
    (State.sampleOn d c low s).pending = s.pending := by simp [State.sampleOn]

@[simp] theorem State.sampleOff_frame (d : Die) (c : Chan) (uv : Nat) (s : State) :
    (State.sampleOff d c uv s).ao = s.ao ∧ (State.sampleOff d c uv s).cd = s.cd ∧ (State.sampleOff d c uv s).ld = s.ld ∧
    (State.sampleOff d c uv s).ref = s.ref ∧ (State.sampleOff d c uv s).errs = s.errs ∧ (State.sampleOff d c uv s).level =
    s.level ∧ (State.sampleOff d c uv s).crossings = s.crossings ∧ (State.sampleOff d c uv s).fences = s.fences ∧
    (State.sampleOff d c uv s).pending = s.pending := by simp [State.sampleOff]

@[simp] theorem State.sampleOff_other_la (c : Chan) (uv : Nat) (s : State) :
    (State.sampleOff .la c uv s).lb = s.lb := by simp [State.sampleOff]

@[simp] theorem State.sampleOff_other_lb (c : Chan) (uv : Nat) (s : State) :
    (State.sampleOff .lb c uv s).la = s.la := by simp [State.sampleOff]

@[simp] theorem State.sampleChan_frame (d : Die) (uvs : List Nat) (c : Chan) (s : State) :
    (State.sampleChan d uvs c s).ao = s.ao ∧ (State.sampleChan d uvs c s).cd = s.cd ∧ (State.sampleChan d uvs c s).ld =
    s.ld ∧ (State.sampleChan d uvs c s).ref = s.ref ∧ (State.sampleChan d uvs c s).errs = s.errs ∧ (State.sampleChan d uvs
    c s).level = s.level ∧ (State.sampleChan d uvs c s).crossings = s.crossings ∧ (State.sampleChan d uvs c s).fences =
    s.fences ∧ (State.sampleChan d uvs c s).pending = s.pending := by simp [State.sampleChan]

@[simp] theorem State.calibrate_frame (d : Die) (c : Chan) (own : Bool) (a : Nat) (s : State) :
    (State.calibrate d c own a s).ao = s.ao ∧ (State.calibrate d c own a s).cd = s.cd ∧ (State.calibrate d c own a s).ld =
    s.ld ∧ (State.calibrate d c own a s).ref = s.ref ∧ (State.calibrate d c own a s).errs = s.errs ∧ (State.calibrate d c
    own a s).level = s.level ∧ (State.calibrate d c own a s).crossings = s.crossings ∧ (State.calibrate d c own a
    s).fences = s.fences ∧ (State.calibrate d c own a s).pending = s.pending := by
  and_intros <;> first | rfl | (simp [State.calibrate]; done) | ((unfold State.calibrate; (try dsimp only); repeat' split) <;> first | rfl | simp [*])

@[simp] theorem State.calibrate_other_la (c : Chan) (own : Bool) (a : Nat) (s : State) :
    (State.calibrate .la c own a s).lb = s.lb := by
  (unfold State.calibrate; (try dsimp only); repeat' split) <;> first | rfl | simp [*]

@[simp] theorem State.calibrate_other_lb (c : Chan) (own : Bool) (a : Nat) (s : State) :
    (State.calibrate .lb c own a s).la = s.la := by
  (unfold State.calibrate; (try dsimp only); repeat' split) <;> first | rfl | simp [*]

@[simp] theorem State.ownWindow_frame (d : Die) (c : Chan) (a : Nat) (s : State) :
    (State.ownWindow d c a s).ao = s.ao ∧ (State.ownWindow d c a s).cd = s.cd ∧ (State.ownWindow d c a s).ld = s.ld ∧
    (State.ownWindow d c a s).ref = s.ref ∧ (State.ownWindow d c a s).errs = s.errs ∧ (State.ownWindow d c a s).level =
    s.level ∧ (State.ownWindow d c a s).crossings = s.crossings ∧ (State.ownWindow d c a s).fences = s.fences ∧
    (State.ownWindow d c a s).pending = s.pending := by
  and_intros <;> first | rfl | (simp [State.ownWindow]; done) | ((unfold State.ownWindow; (try dsimp only); repeat' split) <;> first | rfl | simp [*])

@[simp] theorem State.viewRun_frame (d : Die) (c : Chan) (differ : Bool) (s : State) :
    (State.viewRun d c differ s).ao = s.ao ∧ (State.viewRun d c differ s).cd = s.cd ∧ (State.viewRun d c differ s).ld =
    s.ld ∧ (State.viewRun d c differ s).ref = s.ref ∧ (State.viewRun d c differ s).errs = s.errs ∧ (State.viewRun d c
    differ s).level = s.level ∧ (State.viewRun d c differ s).crossings = s.crossings ∧ (State.viewRun d c differ s).fences
    = s.fences ∧ (State.viewRun d c differ s).pending = s.pending := by simp [State.viewRun]

@[simp] theorem State.viewRun_other_la (c : Chan) (differ : Bool) (s : State) :
    (State.viewRun .la c differ s).lb = s.lb := by simp [State.viewRun]

@[simp] theorem State.viewRun_other_lb (c : Chan) (differ : Bool) (s : State) :
    (State.viewRun .lb c differ s).la = s.la := by simp [State.viewRun]

@[simp] theorem State.viewWindow_frame (d : Die) (c : Chan) (a : Nat) (s : State) :
    (State.viewWindow d c a s).ao = s.ao ∧ (State.viewWindow d c a s).cd = s.cd ∧ (State.viewWindow d c a s).ld = s.ld ∧
    (State.viewWindow d c a s).ref = s.ref ∧ (State.viewWindow d c a s).errs = s.errs ∧ (State.viewWindow d c a s).level =
    s.level ∧ (State.viewWindow d c a s).crossings = s.crossings ∧ (State.viewWindow d c a s).fences = s.fences ∧
    (State.viewWindow d c a s).pending = s.pending := by
  and_intros <;> first | rfl | (simp [State.viewWindow]; done) | ((unfold State.viewWindow; (try dsimp only); repeat' split) <;> first | rfl | simp [*])

@[simp] theorem State.viewWindow_other_la (c : Chan) (a : Nat) (s : State) :
    (State.viewWindow .la c a s).lb = s.lb := by
  (unfold State.viewWindow; (try dsimp only); repeat' split) <;> first | rfl | simp [*]

@[simp] theorem State.viewWindow_other_lb (c : Chan) (a : Nat) (s : State) :
    (State.viewWindow .lb c a s).la = s.la := by
  (unfold State.viewWindow; (try dsimp only); repeat' split) <;> first | rfl | simp [*]

@[simp] theorem State.windowChan_frame (d : Die) (mid : Bool) (photo : List (List Int)) (c : Chan) (s : State) :
    (State.windowChan d mid photo c s).ao = s.ao ∧ (State.windowChan d mid photo c s).cd = s.cd ∧ (State.windowChan d mid
    photo c s).ld = s.ld ∧ (State.windowChan d mid photo c s).ref = s.ref ∧ (State.windowChan d mid photo c s).errs =
    s.errs ∧ (State.windowChan d mid photo c s).level = s.level ∧ (State.windowChan d mid photo c s).crossings =
    s.crossings ∧ (State.windowChan d mid photo c s).fences = s.fences ∧ (State.windowChan d mid photo c s).pending =
    s.pending := by simp [State.windowChan]

@[simp] theorem State.clearRefLinks_frame (s : State) :
    (State.clearRefLinks s).ao = s.ao ∧ (State.clearRefLinks s).cd = s.cd ∧ (State.clearRefLinks s).ld = s.ld ∧
    (State.clearRefLinks s).la = s.la ∧ (State.clearRefLinks s).lb = s.lb ∧ (State.clearRefLinks s).ref = s.ref ∧
    (State.clearRefLinks s).errs = s.errs ∧ (State.clearRefLinks s).crossings = s.crossings ∧ (State.clearRefLinks
    s).fences = s.fences ∧ (State.clearRefLinks s).pending = s.pending := by simp [State.clearRefLinks]

@[simp] theorem State.adopt_frame (d : Die) (s : State) :
    (State.adopt d s).ao = s.ao ∧ (State.adopt d s).cd = s.cd ∧ (State.adopt d s).ld = s.ld ∧ (State.adopt d s).la = s.la
    ∧ (State.adopt d s).lb = s.lb ∧ (State.adopt d s).errs = s.errs ∧ (State.adopt d s).crossings = s.crossings ∧
    (State.adopt d s).fences = s.fences ∧ (State.adopt d s).pending = s.pending := by simp [State.adopt]

@[simp] theorem State.adopt_other_la (s : State) :
    (State.adopt .la s).lb = s.lb := by simp [State.adopt]

@[simp] theorem State.adopt_other_lb (s : State) :
    (State.adopt .lb s).la = s.la := by simp [State.adopt]

@[simp] theorem State.settle_frame (s : State) :
    (State.settle s).ao = s.ao ∧ (State.settle s).cd = s.cd ∧ (State.settle s).ld = s.ld ∧ (State.settle s).la = s.la ∧
    (State.settle s).lb = s.lb ∧ (State.settle s).errs = s.errs ∧ (State.settle s).crossings = s.crossings ∧ (State.settle
    s).fences = s.fences ∧ (State.settle s).pending = s.pending := by
  and_intros <;> first | rfl | (simp [State.settle]; done) | ((unfold State.settle; (try dsimp only); repeat' split) <;> first | rfl | simp [*])

@[simp] theorem State.takeCycle_frame (d : Die) (m : MirrorP) (s : State) :
    (State.takeCycle d m s).ao = s.ao ∧ (State.takeCycle d m s).cd = s.cd ∧ (State.takeCycle d m s).ld = s.ld ∧
    (State.takeCycle d m s).ref = s.ref ∧ (State.takeCycle d m s).ends = s.ends ∧ (State.takeCycle d m s).errs = s.errs ∧
    (State.takeCycle d m s).level = s.level ∧ (State.takeCycle d m s).crossings = s.crossings ∧ (State.takeCycle d m
    s).fences = s.fences ∧ (State.takeCycle d m s).pending = s.pending := by simp [State.takeCycle]

@[simp] theorem State.takeBurstOver_frame (d : Die) (m : MirrorP) (s : State) :
    (State.takeBurstOver d m s).ao = s.ao ∧ (State.takeBurstOver d m s).cd = s.cd ∧ (State.takeBurstOver d m s).ld = s.ld
    ∧ (State.takeBurstOver d m s).ref = s.ref ∧ (State.takeBurstOver d m s).errs = s.errs ∧ (State.takeBurstOver d m
    s).level = s.level ∧ (State.takeBurstOver d m s).crossings = s.crossings ∧ (State.takeBurstOver d m s).fences =
    s.fences ∧ (State.takeBurstOver d m s).pending = s.pending := by simp [State.takeBurstOver]

@[simp] theorem State.takeBurstOver_other_la (m : MirrorP) (s : State) :
    (State.takeBurstOver .la m s).lb = s.lb := by simp [State.takeBurstOver]

@[simp] theorem State.takeBurstOver_other_lb (m : MirrorP) (s : State) :
    (State.takeBurstOver .lb m s).la = s.la := by simp [State.takeBurstOver]

@[simp] theorem State.takeHold_frame (d : Die) (m : MirrorP) (s : State) :
    (State.takeHold d m s).ao = s.ao ∧ (State.takeHold d m s).cd = s.cd ∧ (State.takeHold d m s).ld = s.ld ∧
    (State.takeHold d m s).ref = s.ref ∧ (State.takeHold d m s).ends = s.ends ∧ (State.takeHold d m s).errs = s.errs ∧
    (State.takeHold d m s).level = s.level ∧ (State.takeHold d m s).crossings = s.crossings ∧ (State.takeHold d m
    s).fences = s.fences ∧ (State.takeHold d m s).pending = s.pending := by simp [State.takeHold]

@[simp] theorem State.takeHold_other_la (m : MirrorP) (s : State) :
    (State.takeHold .la m s).lb = s.lb := by simp [State.takeHold]

@[simp] theorem State.takeHold_other_lb (m : MirrorP) (s : State) :
    (State.takeHold .lb m s).la = s.la := by simp [State.takeHold]

@[simp] theorem State.takeover_frame (d : Die) (s : State) :
    (State.takeover d s).ao = s.ao ∧ (State.takeover d s).cd = s.cd ∧ (State.takeover d s).ld = s.ld ∧ (State.takeover d
    s).ref = s.ref ∧ (State.takeover d s).errs = s.errs ∧ (State.takeover d s).level = s.level ∧ (State.takeover d
    s).crossings = s.crossings ∧ (State.takeover d s).fences = s.fences ∧ (State.takeover d s).pending = s.pending := by
  and_intros <;> first | rfl | (simp [State.takeover]; done) | ((unfold State.takeover; (try dsimp only); repeat' split) <;> first | rfl | simp [*])

@[simp] theorem State.startDriving_frame (d : Die) (s : State) :
    (State.startDriving d s).ao = s.ao ∧ (State.startDriving d s).cd = s.cd ∧ (State.startDriving d s).ld = s.ld ∧
    (State.startDriving d s).ref = s.ref ∧ (State.startDriving d s).errs = s.errs ∧ (State.startDriving d s).crossings =
    s.crossings ∧ (State.startDriving d s).fences = s.fences ∧ (State.startDriving d s).pending = s.pending := by simp [State.startDriving]

@[simp] theorem State.healthConds_frame (d : Die) (st : Byte) (s : State) :
    (State.healthConds d st s).ao = s.ao ∧ (State.healthConds d st s).ld = s.ld ∧ (State.healthConds d st s).la = s.la ∧
    (State.healthConds d st s).lb = s.lb ∧ (State.healthConds d st s).ref = s.ref ∧ (State.healthConds d st s).ends =
    s.ends ∧ (State.healthConds d st s).errs = s.errs ∧ (State.healthConds d st s).level = s.level ∧ (State.healthConds d
    st s).crossings = s.crossings ∧ (State.healthConds d st s).fences = s.fences ∧ (State.healthConds d st s).pending =
    s.pending := by simp [State.healthConds]

@[simp] theorem State.healthConds_other_la (st : Byte) (s : State) :
    (State.healthConds .la st s).lb = s.lb := by simp [State.healthConds]

@[simp] theorem State.healthConds_other_lb (st : Byte) (s : State) :
    (State.healthConds .lb st s).la = s.la := by simp [State.healthConds]

@[simp] theorem State.healthAtCd_frame (d : Die) (payload : List Byte) (s : State) :
    (State.healthAtCd d payload s).ao = s.ao ∧ (State.healthAtCd d payload s).ld = s.ld ∧ (State.healthAtCd d payload
    s).la = s.la ∧ (State.healthAtCd d payload s).lb = s.lb ∧ (State.healthAtCd d payload s).ref = s.ref ∧
    (State.healthAtCd d payload s).ends = s.ends ∧ (State.healthAtCd d payload s).errs = s.errs ∧ (State.healthAtCd d
    payload s).level = s.level ∧ (State.healthAtCd d payload s).crossings = s.crossings ∧ (State.healthAtCd d payload
    s).fences = s.fences ∧ (State.healthAtCd d payload s).pending = s.pending := by simp [State.healthAtCd]

@[simp] theorem State.healthAtCd_other_la (payload : List Byte) (s : State) :
    (State.healthAtCd .la payload s).lb = s.lb := by simp [State.healthAtCd]

@[simp] theorem State.healthAtCd_other_lb (payload : List Byte) (s : State) :
    (State.healthAtCd .lb payload s).la = s.la := by simp [State.healthAtCd]

@[simp] theorem State.takeFrame_frame (d : Die) (m : MirrorP) (s : State) :
    (State.takeFrame d m s).ao = s.ao ∧ (State.takeFrame d m s).cd = s.cd ∧ (State.takeFrame d m s).ld = s.ld ∧
    (State.takeFrame d m s).ref = s.ref ∧ (State.takeFrame d m s).errs = s.errs ∧ (State.takeFrame d m s).level = s.level
    ∧ (State.takeFrame d m s).crossings = s.crossings ∧ (State.takeFrame d m s).fences = s.fences ∧ (State.takeFrame d m
    s).pending = s.pending := by simp [State.takeFrame]

@[simp] theorem State.takeFrame_other_la (m : MirrorP) (s : State) :
    (State.takeFrame .la m s).lb = s.lb := by simp [State.takeFrame]

@[simp] theorem State.takeFrame_other_lb (m : MirrorP) (s : State) :
    (State.takeFrame .lb m s).la = s.la := by simp [State.takeFrame]

@[simp] theorem State.switchTo_frame (y : Die) (s : State) :
    (State.switchTo y s).1.ao = s.ao ∧ (State.switchTo y s).1.cd = s.cd ∧ (State.switchTo y s).1.ld = s.ld ∧
    (State.switchTo y s).1.la = s.la ∧ (State.switchTo y s).1.lb = s.lb ∧ (State.switchTo y s).1.errs = s.errs ∧
    (State.switchTo y s).1.crossings = s.crossings ∧ (State.switchTo y s).1.fences = s.fences ∧ (State.switchTo y
    s).1.pending = s.pending := by
  and_intros <;> first | rfl | (simp [State.switchTo]; done) | ((unfold State.switchTo; (try dsimp only); repeat' split) <;> first | rfl | simp [*])

@[simp] theorem State.switchTo_other_la (s : State) :
    (State.switchTo .la s).1.lb = s.lb := by
  (unfold State.switchTo; (try dsimp only); repeat' split) <;> first | rfl | simp [*]

@[simp] theorem State.switchTo_other_lb (s : State) :
    (State.switchTo .lb s).1.la = s.la := by
  (unfold State.switchTo; (try dsimp only); repeat' split) <;> first | rfl | simp [*]

@[simp] theorem State.storeWear_frame (d : Die) (s : State) :
    (State.storeWear d s).ao = s.ao ∧ (State.storeWear d s).cd = s.cd ∧ (State.storeWear d s).ld = s.ld ∧ (State.storeWear
    d s).ref = s.ref ∧ (State.storeWear d s).errs = s.errs ∧ (State.storeWear d s).level = s.level ∧ (State.storeWear d
    s).crossings = s.crossings ∧ (State.storeWear d s).fences = s.fences ∧ (State.storeWear d s).pending = s.pending := by simp [State.storeWear]

@[simp] theorem State.storeWear_other_la (s : State) :
    (State.storeWear .la s).lb = s.lb := by simp [State.storeWear]

@[simp] theorem State.storeWear_other_lb (s : State) :
    (State.storeWear .lb s).la = s.la := by simp [State.storeWear]

@[simp] theorem State.burstUnfed_frame (d : Die) (s : State) :
    (State.burstUnfed d s).ao = s.ao ∧ (State.burstUnfed d s).cd = s.cd ∧ (State.burstUnfed d s).ld = s.ld ∧
    (State.burstUnfed d s).ref = s.ref ∧ (State.burstUnfed d s).errs = s.errs ∧ (State.burstUnfed d s).level = s.level ∧
    (State.burstUnfed d s).crossings = s.crossings ∧ (State.burstUnfed d s).fences = s.fences ∧ (State.burstUnfed d
    s).pending = s.pending := by
  and_intros <;> first | rfl | (simp [State.burstUnfed]; done) | ((unfold State.burstUnfed; (try dsimp only); repeat' split) <;> first | rfl | simp [*])

@[simp] theorem State.burstUnfed_other_la (s : State) :
    (State.burstUnfed .la s).lb = s.lb := by
  (unfold State.burstUnfed; (try dsimp only); repeat' split) <;> first | rfl | simp [*]

@[simp] theorem State.burstUnfed_other_lb (s : State) :
    (State.burstUnfed .lb s).la = s.la := by
  (unfold State.burstUnfed; (try dsimp only); repeat' split) <;> first | rfl | simp [*]

@[simp] theorem State.stopDie_frame (d : Die) (s : State) :
    (State.stopDie d s).ao = s.ao ∧ (State.stopDie d s).cd = s.cd ∧ (State.stopDie d s).ld = s.ld ∧ (State.stopDie d
    s).ref = s.ref ∧ (State.stopDie d s).errs = s.errs ∧ (State.stopDie d s).crossings = s.crossings ∧ (State.stopDie d
    s).fences = s.fences ∧ (State.stopDie d s).pending = s.pending := by simp [State.stopDie]

@[simp] theorem State.stopDie_other_la (s : State) :
    (State.stopDie .la s).lb = s.lb := by simp [State.stopDie]

@[simp] theorem State.stopDie_other_lb (s : State) :
    (State.stopDie .lb s).la = s.la := by simp [State.stopDie]

@[simp] theorem State.fedAgain_frame (d : Die) (s : State) :
    (State.fedAgain d s).ao = s.ao ∧ (State.fedAgain d s).cd = s.cd ∧ (State.fedAgain d s).ld = s.ld ∧ (State.fedAgain d
    s).ref = s.ref ∧ (State.fedAgain d s).ends = s.ends ∧ (State.fedAgain d s).errs = s.errs ∧ (State.fedAgain d s).level
    = s.level ∧ (State.fedAgain d s).crossings = s.crossings ∧ (State.fedAgain d s).fences = s.fences ∧ (State.fedAgain d
    s).pending = s.pending := by simp [State.fedAgain]

@[simp] theorem State.fedAgain_other_la (s : State) :
    (State.fedAgain .la s).lb = s.lb := rfl

@[simp] theorem State.fedAgain_other_lb (s : State) :
    (State.fedAgain .lb s).la = s.la := rfl

@[simp] theorem State.writeCount_frame (n : Byte) (s : State) :
    (State.writeCount n s).ao = s.ao ∧ (State.writeCount n s).ld = s.ld ∧ (State.writeCount n s).la = s.la ∧
    (State.writeCount n s).lb = s.lb ∧ (State.writeCount n s).ref = s.ref ∧ (State.writeCount n s).ends = s.ends ∧
    (State.writeCount n s).errs = s.errs ∧ (State.writeCount n s).level = s.level ∧ (State.writeCount n s).crossings =
    s.crossings ∧ (State.writeCount n s).fences = s.fences ∧ (State.writeCount n s).pending = s.pending := by simp [State.writeCount]

@[simp] theorem State.stopEnd_frame (l : FLink) (e : LEnd) (s : State) :
    (State.stopEnd l e s).ao = s.ao ∧ (State.stopEnd l e s).cd = s.cd ∧ (State.stopEnd l e s).ld = s.ld ∧ (State.stopEnd l
    e s).la = s.la ∧ (State.stopEnd l e s).lb = s.lb ∧ (State.stopEnd l e s).ref = s.ref ∧ (State.stopEnd l e s).errs =
    s.errs ∧ (State.stopEnd l e s).level = s.level ∧ (State.stopEnd l e s).crossings = s.crossings ∧ (State.stopEnd l e
    s).fences = s.fences ∧ (State.stopEnd l e s).pending = s.pending := by and_intros <;> rfl

@[simp] theorem State.runEnd_frame (l : FLink) (e : LEnd) (s : State) :
    (State.runEnd l e s).ao = s.ao ∧ (State.runEnd l e s).cd = s.cd ∧ (State.runEnd l e s).ld = s.ld ∧ (State.runEnd l e
    s).la = s.la ∧ (State.runEnd l e s).lb = s.lb ∧ (State.runEnd l e s).ref = s.ref ∧ (State.runEnd l e s).errs = s.errs
    ∧ (State.runEnd l e s).level = s.level ∧ (State.runEnd l e s).crossings = s.crossings ∧ (State.runEnd l e s).fences =
    s.fences ∧ (State.runEnd l e s).pending = s.pending := by and_intros <;> rfl

@[simp] theorem State.clearLogic_frame (pins : List Byte) (s : State) :
    (State.clearLogic pins s).ao = s.ao ∧ (State.clearLogic pins s).la = s.la ∧ (State.clearLogic pins s).lb = s.lb ∧
    (State.clearLogic pins s).ref = s.ref ∧ (State.clearLogic pins s).errs = s.errs ∧ (State.clearLogic pins s).level =
    s.level ∧ (State.clearLogic pins s).pending = s.pending := by simp [State.clearLogic]

@[simp] theorem State.disown_frame (l : FLink) (s : State) :
    (State.disown l s).ao = s.ao ∧ (State.disown l s).cd = s.cd ∧ (State.disown l s).ld = s.ld ∧ (State.disown l s).la =
    s.la ∧ (State.disown l s).lb = s.lb ∧ (State.disown l s).ref = s.ref ∧ (State.disown l s).errs = s.errs ∧
    (State.disown l s).level = s.level ∧ (State.disown l s).crossings = s.crossings ∧ (State.disown l s).fences = s.fences
    ∧ (State.disown l s).pending = s.pending := by and_intros <;> rfl

@[simp] theorem State.enterReset_frame (source : Nat) (level : Nat) (s : State) :
    (State.enterReset source level s).la = s.la ∧ (State.enterReset source level s).lb = s.lb ∧ (State.enterReset source
    level s).ref = s.ref ∧ (State.enterReset source level s).errs = s.errs ∧ (State.enterReset source level s).level =
    s.level ∧ (State.enterReset source level s).pending = s.pending := by simp [State.enterReset]

@[simp] theorem State.meetReset_frame (source : Nat) (level : Nat) (s : State) :
    (State.meetReset source level s).cd = s.cd ∧ (State.meetReset source level s).ld = s.ld ∧ (State.meetReset source
    level s).la = s.la ∧ (State.meetReset source level s).lb = s.lb ∧ (State.meetReset source level s).ref = s.ref ∧
    (State.meetReset source level s).ends = s.ends ∧ (State.meetReset source level s).errs = s.errs ∧ (State.meetReset
    source level s).level = s.level ∧ (State.meetReset source level s).crossings = s.crossings ∧ (State.meetReset source
    level s).fences = s.fences ∧ (State.meetReset source level s).pending = s.pending := by simp [State.meetReset]

@[simp] theorem State.requestReset_frame (source : Nat) (level : Nat) (s : State) :
    (State.requestReset source level s).la = s.la ∧ (State.requestReset source level s).lb = s.lb ∧ (State.requestReset
    source level s).ref = s.ref ∧ (State.requestReset source level s).errs = s.errs ∧ (State.requestReset source level
    s).level = s.level ∧ (State.requestReset source level s).pending = s.pending := by simp [State.requestReset]

@[simp] theorem State.fullResetFrom_frame (source : Nat) (s : State) :
    (State.fullResetFrom source s).la = s.la ∧ (State.fullResetFrom source s).lb = s.lb ∧ (State.fullResetFrom source
    s).ref = s.ref ∧ (State.fullResetFrom source s).errs = s.errs ∧ (State.fullResetFrom source s).level = s.level ∧
    (State.fullResetFrom source s).pending = s.pending := by simp [State.fullResetFrom]

@[simp] theorem State.wake_frame (code : GustCode) (byGust : Bool) (s : State) :
    (State.wake code byGust s).la = s.la ∧ (State.wake code byGust s).lb = s.lb ∧ (State.wake code byGust s).ref = s.ref ∧
    (State.wake code byGust s).errs = s.errs ∧ (State.wake code byGust s).level = s.level ∧ (State.wake code byGust
    s).pending = s.pending := by simp [State.wake]

@[simp] theorem State.enterDraining_frame (s : State) :
    (State.enterDraining s).ao = s.ao ∧ (State.enterDraining s).la = s.la ∧ (State.enterDraining s).lb = s.lb ∧
    (State.enterDraining s).ref = s.ref ∧ (State.enterDraining s).ends = s.ends ∧ (State.enterDraining s).errs = s.errs ∧
    (State.enterDraining s).level = s.level ∧ (State.enterDraining s).crossings = s.crossings ∧ (State.enterDraining
    s).fences = s.fences ∧ (State.enterDraining s).pending = s.pending := by simp [State.enterDraining]

@[simp] theorem State.writeSummaries_frame (s : State) :
    (State.writeSummaries s).ao = s.ao ∧ (State.writeSummaries s).ld = s.ld ∧ (State.writeSummaries s).la = s.la ∧
    (State.writeSummaries s).lb = s.lb ∧ (State.writeSummaries s).ref = s.ref ∧ (State.writeSummaries s).ends = s.ends ∧
    (State.writeSummaries s).errs = s.errs ∧ (State.writeSummaries s).level = s.level ∧ (State.writeSummaries s).crossings
    = s.crossings ∧ (State.writeSummaries s).fences = s.fences ∧ (State.writeSummaries s).pending = s.pending := by simp [State.writeSummaries]

@[simp] theorem State.keepEpoch_frame (s : State) :
    (State.keepEpoch s).ao = s.ao ∧ (State.keepEpoch s).ld = s.ld ∧ (State.keepEpoch s).la = s.la ∧ (State.keepEpoch s).lb
    = s.lb ∧ (State.keepEpoch s).ref = s.ref ∧ (State.keepEpoch s).ends = s.ends ∧ (State.keepEpoch s).errs = s.errs ∧
    (State.keepEpoch s).level = s.level ∧ (State.keepEpoch s).crossings = s.crossings ∧ (State.keepEpoch s).fences =
    s.fences ∧ (State.keepEpoch s).pending = s.pending := by
  and_intros <;> first | rfl | (simp [State.keepEpoch]; done) | ((unfold State.keepEpoch; (try dsimp only); repeat' split) <;> first | rfl | simp [*])

@[simp] theorem State.sendControl_frame (p : Port) (s : State) :
    (State.sendControl p s).ao = s.ao ∧ (State.sendControl p s).cd = s.cd ∧ (State.sendControl p s).la = s.la ∧
    (State.sendControl p s).lb = s.lb ∧ (State.sendControl p s).ref = s.ref ∧ (State.sendControl p s).ends = s.ends ∧
    (State.sendControl p s).errs = s.errs ∧ (State.sendControl p s).level = s.level ∧ (State.sendControl p s).crossings =
    s.crossings ∧ (State.sendControl p s).fences = s.fences ∧ (State.sendControl p s).pending = s.pending := by simp [State.sendControl]

@[simp] theorem State.originateDark_frame (s : State) :
    (State.originateDark s).ao = s.ao ∧ (State.originateDark s).cd = s.cd ∧ (State.originateDark s).la = s.la ∧
    (State.originateDark s).lb = s.lb ∧ (State.originateDark s).ref = s.ref ∧ (State.originateDark s).ends = s.ends ∧
    (State.originateDark s).errs = s.errs ∧ (State.originateDark s).level = s.level ∧ (State.originateDark s).crossings =
    s.crossings ∧ (State.originateDark s).fences = s.fences ∧ (State.originateDark s).pending = s.pending := by simp [State.originateDark]

@[simp] theorem State.ackEvents_frame (v : Half) (s : State) :
    (State.ackEvents v s).ao = s.ao ∧ (State.ackEvents v s).ld = s.ld ∧ (State.ackEvents v s).la = s.la ∧ (State.ackEvents
    v s).lb = s.lb ∧ (State.ackEvents v s).ref = s.ref ∧ (State.ackEvents v s).ends = s.ends ∧ (State.ackEvents v s).errs
    = s.errs ∧ (State.ackEvents v s).level = s.level ∧ (State.ackEvents v s).crossings = s.crossings ∧ (State.ackEvents v
    s).fences = s.fences ∧ (State.ackEvents v s).pending = s.pending := by and_intros <;> rfl

@[simp] theorem State.drewFree_frame (n : Nat) (s : State) :
    (State.drewFree n s).ao = s.ao ∧ (State.drewFree n s).cd = s.cd ∧ (State.drewFree n s).ld = s.ld ∧ (State.drewFree n
    s).la = s.la ∧ (State.drewFree n s).lb = s.lb ∧ (State.drewFree n s).ref = s.ref ∧ (State.drewFree n s).ends = s.ends
    ∧ (State.drewFree n s).errs = s.errs ∧ (State.drewFree n s).level = s.level ∧ (State.drewFree n s).crossings =
    s.crossings ∧ (State.drewFree n s).fences = s.fences ∧ (State.drewFree n s).pending = s.pending := by and_intros <;> rfl

@[simp] theorem State.modSlot_frame (n : Fin 4) (f : MbxSlot → MbxSlot) (s : State) :
    (State.modSlot n f s).ao = s.ao ∧ (State.modSlot n f s).ld = s.ld ∧ (State.modSlot n f s).la = s.la ∧ (State.modSlot n
    f s).lb = s.lb ∧ (State.modSlot n f s).ref = s.ref ∧ (State.modSlot n f s).ends = s.ends ∧ (State.modSlot n f s).errs
    = s.errs ∧ (State.modSlot n f s).level = s.level ∧ (State.modSlot n f s).crossings = s.crossings ∧ (State.modSlot n f
    s).fences = s.fences ∧ (State.modSlot n f s).pending = s.pending := by and_intros <;> rfl

@[simp] theorem State.slotControl_frame (w : Writer) (v : Word) (s : State) (n : Fin 4) :
    (State.slotControl w v s n).ao = s.ao ∧ (State.slotControl w v s n).ld = s.ld ∧ (State.slotControl w v s n).la = s.la
    ∧ (State.slotControl w v s n).lb = s.lb ∧ (State.slotControl w v s n).ref = s.ref ∧ (State.slotControl w v s n).ends =
    s.ends ∧ (State.slotControl w v s n).errs = s.errs ∧ (State.slotControl w v s n).level = s.level ∧ (State.slotControl
    w v s n).crossings = s.crossings ∧ (State.slotControl w v s n).fences = s.fences ∧ (State.slotControl w v s n).pending
    = s.pending := by simp [State.slotControl]

@[simp] theorem State.releasedReset_frame (v : Word) (s : State) (t : State) :
    (State.releasedReset v s t).la = t.la ∧ (State.releasedReset v s t).lb = t.lb ∧ (State.releasedReset v s t).ref =
    t.ref ∧ (State.releasedReset v s t).errs = t.errs ∧ (State.releasedReset v s t).level = t.level ∧ (State.releasedReset
    v s t).pending = t.pending := by
  and_intros <;> first | rfl | (simp [State.releasedReset]; done) | ((unfold State.releasedReset; (try dsimp only); repeat' split) <;> first | rfl | simp [*])

@[simp] theorem State.mbxControl_frame (w : Writer) (v : Word) (s : State) :
    (State.mbxControl w v s).la = s.la ∧ (State.mbxControl w v s).lb = s.lb ∧ (State.mbxControl w v s).ref = s.ref ∧
    (State.mbxControl w v s).errs = s.errs ∧ (State.mbxControl w v s).level = s.level ∧ (State.mbxControl w v s).pending =
    s.pending := by simp [State.mbxControl]

@[simp] theorem State.slotBytes_frame (w : Writer) (n : Fin 4) (o : Nat) (data : List Byte) (s : State) :
    (State.slotBytes w n o data s).ao = s.ao ∧ (State.slotBytes w n o data s).ld = s.ld ∧ (State.slotBytes w n o data
    s).la = s.la ∧ (State.slotBytes w n o data s).lb = s.lb ∧ (State.slotBytes w n o data s).ref = s.ref ∧
    (State.slotBytes w n o data s).ends = s.ends ∧ (State.slotBytes w n o data s).errs = s.errs ∧ (State.slotBytes w n o
    data s).level = s.level ∧ (State.slotBytes w n o data s).crossings = s.crossings ∧ (State.slotBytes w n o data
    s).fences = s.fences ∧ (State.slotBytes w n o data s).pending = s.pending := by and_intros <;> rfl

@[simp] theorem State.writeWord_frame (w : Writer) (a : Nat) (v : Word) (s : State) :
    (State.writeWord w a v s).la = s.la ∧ (State.writeWord w a v s).lb = s.lb ∧ (State.writeWord w a v s).ref = s.ref ∧
    (State.writeWord w a v s).errs = s.errs ∧ (State.writeWord w a v s).level = s.level ∧ (State.writeWord w a v
    s).pending = s.pending := by simp [State.writeWord]

@[simp] theorem State.writeWords_frame (w : Writer) (a : Nat) (data : List Byte) (s : State) :
    (State.writeWords w a data s).la = s.la ∧ (State.writeWords w a data s).lb = s.lb ∧ (State.writeWords w a data s).ref
    = s.ref ∧ (State.writeWords w a data s).errs = s.errs ∧ (State.writeWords w a data s).level = s.level ∧
    (State.writeWords w a data s).pending = s.pending := by simp [State.writeWords]

@[simp] theorem State.writeRegs_frame (w : Writer) (a : Nat) (data : List Byte) (s : State) :
    (State.writeRegs w a data s).1.la = s.la ∧ (State.writeRegs w a data s).1.lb = s.lb ∧ (State.writeRegs w a data
    s).1.ref = s.ref ∧ (State.writeRegs w a data s).1.errs = s.errs ∧ (State.writeRegs w a data s).1.level = s.level ∧
    (State.writeRegs w a data s).1.pending = s.pending := by
  and_intros <;> first | rfl | (simp [State.writeRegs]; done) | ((unfold State.writeRegs; (try dsimp only); repeat' split) <;> first | rfl | simp [*])

@[simp] theorem State.serveRegRead_frame (d : HvDie) (count : Byte) (address : Word) (s : State) :
    (State.serveRegRead d count address s).1.ao = s.ao ∧ (State.serveRegRead d count address s).1.cd = s.cd ∧
    (State.serveRegRead d count address s).1.ld = s.ld ∧ (State.serveRegRead d count address s).1.la = s.la ∧
    (State.serveRegRead d count address s).1.lb = s.lb ∧ (State.serveRegRead d count address s).1.ref = s.ref ∧
    (State.serveRegRead d count address s).1.ends = s.ends ∧ (State.serveRegRead d count address s).1.errs = s.errs ∧
    (State.serveRegRead d count address s).1.level = s.level ∧ (State.serveRegRead d count address s).1.crossings =
    s.crossings ∧ (State.serveRegRead d count address s).1.fences = s.fences ∧ (State.serveRegRead d count address
    s).1.pending = s.pending := by
  and_intros <;> first | rfl | (simp [State.serveRegRead]; done) | ((unfold State.serveRegRead; (try dsimp only); repeat' split) <;> first | rfl | simp [*])

@[simp] theorem State.serveRegWrite_frame (d : Die) (count : Byte) (address : Word) (data : List Byte) (s : State) :
    (State.serveRegWrite d count address data s).1.ao = s.ao ∧ (State.serveRegWrite d count address data s).1.cd = s.cd ∧
    (State.serveRegWrite d count address data s).1.ld = s.ld ∧ (State.serveRegWrite d count address data s).1.ref = s.ref
    ∧ (State.serveRegWrite d count address data s).1.ends = s.ends ∧ (State.serveRegWrite d count address data s).1.errs =
    s.errs ∧ (State.serveRegWrite d count address data s).1.level = s.level ∧ (State.serveRegWrite d count address data
    s).1.crossings = s.crossings ∧ (State.serveRegWrite d count address data s).1.fences = s.fences ∧ (State.serveRegWrite
    d count address data s).1.pending = s.pending := by
  and_intros <;> first | rfl | (simp [State.serveRegWrite]; done) | ((unfold State.serveRegWrite; (try dsimp only); repeat' split) <;> first | rfl | simp [*])

@[simp] theorem State.serveRegWrite_other_la (count : Byte) (address : Word) (data : List Byte) (s : State) :
    (State.serveRegWrite .la count address data s).1.lb = s.lb := by
  (unfold State.serveRegWrite; (try dsimp only); repeat' split) <;> first | rfl | simp [*]

@[simp] theorem State.serveRegWrite_other_lb (count : Byte) (address : Word) (data : List Byte) (s : State) :
    (State.serveRegWrite .lb count address data s).1.la = s.la := by
  (unfold State.serveRegWrite; (try dsimp only); repeat' split) <;> first | rfl | simp [*]

@[simp] theorem State.writeRow_frame (w : Writer) (a : Nat) (data : List Byte) (s : State) :
    (State.writeRow w a data s).la = s.la ∧ (State.writeRow w a data s).lb = s.lb ∧ (State.writeRow w a data s).ref =
    s.ref ∧ (State.writeRow w a data s).errs = s.errs ∧ (State.writeRow w a data s).level = s.level ∧ (State.writeRow w a
    data s).pending = s.pending := by simp [State.writeRow]

@[simp] theorem State.sendMiso_frame (f : HostFrame) (l : List Byte) (s : State) :
    (State.sendMiso f l s).ao = s.ao ∧ (State.sendMiso f l s).cd = s.cd ∧ (State.sendMiso f l s).ld = s.ld ∧
    (State.sendMiso f l s).la = s.la ∧ (State.sendMiso f l s).lb = s.lb ∧ (State.sendMiso f l s).ref = s.ref ∧
    (State.sendMiso f l s).ends = s.ends ∧ (State.sendMiso f l s).errs = s.errs ∧ (State.sendMiso f l s).level = s.level ∧
    (State.sendMiso f l s).crossings = s.crossings ∧ (State.sendMiso f l s).fences = s.fences ∧ (State.sendMiso f l
    s).pending = s.pending := by and_intros <;> rfl

@[simp] theorem State.fixedReply_frame (b : Byte) (f : HostFrame) (s : State) :
    (State.fixedReply b f s).ao = s.ao ∧ (State.fixedReply b f s).cd = s.cd ∧ (State.fixedReply b f s).ld = s.ld ∧
    (State.fixedReply b f s).la = s.la ∧ (State.fixedReply b f s).lb = s.lb ∧ (State.fixedReply b f s).ref = s.ref ∧
    (State.fixedReply b f s).ends = s.ends ∧ (State.fixedReply b f s).errs = s.errs ∧ (State.fixedReply b f s).level =
    s.level ∧ (State.fixedReply b f s).crossings = s.crossings ∧ (State.fixedReply b f s).fences = s.fences ∧
    (State.fixedReply b f s).pending = s.pending := by and_intros <;> rfl

@[simp] theorem State.hostHeard_frame (s : State) :
    (State.hostHeard s).ao = s.ao ∧ (State.hostHeard s).la = s.la ∧ (State.hostHeard s).lb = s.lb ∧ (State.hostHeard
    s).ref = s.ref ∧ (State.hostHeard s).ends = s.ends ∧ (State.hostHeard s).errs = s.errs ∧ (State.hostHeard s).level =
    s.level ∧ (State.hostHeard s).crossings = s.crossings ∧ (State.hostHeard s).fences = s.fences ∧ (State.hostHeard
    s).pending = s.pending := by simp [State.hostHeard]

@[simp] theorem State.modTag_frame (t : Fin 8) (g : Tag → Tag) (s : State) :
    (State.modTag t g s).ao = s.ao ∧ (State.modTag t g s).ld = s.ld ∧ (State.modTag t g s).la = s.la ∧ (State.modTag t g
    s).lb = s.lb ∧ (State.modTag t g s).ref = s.ref ∧ (State.modTag t g s).ends = s.ends ∧ (State.modTag t g s).errs =
    s.errs ∧ (State.modTag t g s).level = s.level ∧ (State.modTag t g s).crossings = s.crossings ∧ (State.modTag t g
    s).fences = s.fences ∧ (State.modTag t g s).pending = s.pending := by and_intros <;> rfl

@[simp] theorem State.holdTag_frame (t : Fin 8) (rcode : Byte) (data : List Byte) (s : State) :
    (State.holdTag t rcode data s).ao = s.ao ∧ (State.holdTag t rcode data s).ld = s.ld ∧ (State.holdTag t rcode data
    s).la = s.la ∧ (State.holdTag t rcode data s).lb = s.lb ∧ (State.holdTag t rcode data s).ref = s.ref ∧ (State.holdTag
    t rcode data s).ends = s.ends ∧ (State.holdTag t rcode data s).errs = s.errs ∧ (State.holdTag t rcode data s).level =
    s.level ∧ (State.holdTag t rcode data s).crossings = s.crossings ∧ (State.holdTag t rcode data s).fences = s.fences ∧
    (State.holdTag t rcode data s).pending = s.pending := by and_intros <;> rfl

@[simp] theorem State.sendPart_frame (d : HvDie) (i : Issuer) (parts : List (Word × Nat)) (s : State) :
    (State.sendPart d i parts s).ao = s.ao ∧ (State.sendPart d i parts s).cd = s.cd ∧ (State.sendPart d i parts s).ld =
    s.ld ∧ (State.sendPart d i parts s).la = s.la ∧ (State.sendPart d i parts s).lb = s.lb ∧ (State.sendPart d i parts
    s).ref = s.ref ∧ (State.sendPart d i parts s).errs = s.errs ∧ (State.sendPart d i parts s).level = s.level ∧
    (State.sendPart d i parts s).crossings = s.crossings ∧ (State.sendPart d i parts s).fences = s.fences ∧
    (State.sendPart d i parts s).pending = s.pending := by
  and_intros <;> first | rfl | (simp [State.sendPart]; done) | ((unfold State.sendPart; (try dsimp only); repeat' split) <;> first | rfl | simp [*])

@[simp] theorem State.allocate_frame (cmd : Byte) (f : HostFrame) (g : Target) (s : State) :
    (State.allocate cmd f g s).ao = s.ao ∧ (State.allocate cmd f g s).la = s.la ∧ (State.allocate cmd f g s).lb = s.lb ∧
    (State.allocate cmd f g s).ref = s.ref ∧ (State.allocate cmd f g s).errs = s.errs ∧ (State.allocate cmd f g s).level =
    s.level ∧ (State.allocate cmd f g s).crossings = s.crossings ∧ (State.allocate cmd f g s).fences = s.fences ∧
    (State.allocate cmd f g s).pending = s.pending := by
  and_intros <;> first | rfl | (simp [State.allocate]; done) | ((unfold State.allocate; (try dsimp only); repeat' split) <;> first | rfl | simp [*])

@[simp] theorem State.countBusy_frame (s : State) :
    (State.countBusy s).ao = s.ao ∧ (State.countBusy s).ld = s.ld ∧ (State.countBusy s).la = s.la ∧ (State.countBusy s).lb
    = s.lb ∧ (State.countBusy s).ref = s.ref ∧ (State.countBusy s).ends = s.ends ∧ (State.countBusy s).errs = s.errs ∧
    (State.countBusy s).level = s.level ∧ (State.countBusy s).crossings = s.crossings ∧ (State.countBusy s).fences =
    s.fences ∧ (State.countBusy s).pending = s.pending := by and_intros <;> rfl

@[simp] theorem State.endFrame_frame (cmd : Byte) (rcode : Byte) (prev : BitVec 2) (applied : Bool) (s : State) :
    (State.endFrame cmd rcode prev applied s).ao = s.ao ∧ (State.endFrame cmd rcode prev applied s).ld = s.ld ∧
    (State.endFrame cmd rcode prev applied s).la = s.la ∧ (State.endFrame cmd rcode prev applied s).lb = s.lb ∧
    (State.endFrame cmd rcode prev applied s).ref = s.ref ∧ (State.endFrame cmd rcode prev applied s).ends = s.ends ∧
    (State.endFrame cmd rcode prev applied s).errs = s.errs ∧ (State.endFrame cmd rcode prev applied s).level = s.level ∧
    (State.endFrame cmd rcode prev applied s).crossings = s.crossings ∧ (State.endFrame cmd rcode prev applied s).fences =
    s.fences ∧ (State.endFrame cmd rcode prev applied s).pending = s.pending := by and_intros <;> rfl

@[simp] theorem State.calmFrame_frame (cmd : Byte) (f : HostFrame) (s : State) :
    (State.calmFrame cmd f s).la = s.la ∧ (State.calmFrame cmd f s).lb = s.lb ∧ (State.calmFrame cmd f s).ref = s.ref ∧
    (State.calmFrame cmd f s).errs = s.errs ∧ (State.calmFrame cmd f s).level = s.level ∧ (State.calmFrame cmd f
    s).pending = s.pending := by simp [State.calmFrame]

@[simp] theorem State.framerReady_frame (s : State) :
    (State.framerReady s).ao = s.ao ∧ (State.framerReady s).ld = s.ld ∧ (State.framerReady s).la = s.la ∧
    (State.framerReady s).lb = s.lb ∧ (State.framerReady s).ref = s.ref ∧ (State.framerReady s).ends = s.ends ∧
    (State.framerReady s).errs = s.errs ∧ (State.framerReady s).level = s.level ∧ (State.framerReady s).crossings =
    s.crossings ∧ (State.framerReady s).fences = s.fences ∧ (State.framerReady s).pending = s.pending := by and_intros <;> rfl

@[simp] theorem State.framerEdges_frame (n : Nat) (s : State) :
    (State.framerEdges n s).ao = s.ao ∧ (State.framerEdges n s).ld = s.ld ∧ (State.framerEdges n s).la = s.la ∧
    (State.framerEdges n s).lb = s.lb ∧ (State.framerEdges n s).ref = s.ref ∧ (State.framerEdges n s).ends = s.ends ∧
    (State.framerEdges n s).errs = s.errs ∧ (State.framerEdges n s).level = s.level ∧ (State.framerEdges n s).crossings =
    s.crossings ∧ (State.framerEdges n s).fences = s.fences ∧ (State.framerEdges n s).pending = s.pending := by simp [State.framerEdges]

@[simp] theorem State.countLate_frame (s : State) :
    (State.countLate s).ao = s.ao ∧ (State.countLate s).ld = s.ld ∧ (State.countLate s).la = s.la ∧ (State.countLate s).lb
    = s.lb ∧ (State.countLate s).ref = s.ref ∧ (State.countLate s).ends = s.ends ∧ (State.countLate s).errs = s.errs ∧
    (State.countLate s).level = s.level ∧ (State.countLate s).crossings = s.crossings ∧ (State.countLate s).fences =
    s.fences ∧ (State.countLate s).pending = s.pending := by and_intros <;> rfl

@[simp] theorem State.mgmtAnswer_frame (h : LineHdr) (m : MgmtP) (s : State) :
    (State.mgmtAnswer h m s).ao = s.ao ∧ (State.mgmtAnswer h m s).ld = s.ld ∧ (State.mgmtAnswer h m s).la = s.la ∧
    (State.mgmtAnswer h m s).lb = s.lb ∧ (State.mgmtAnswer h m s).ref = s.ref ∧ (State.mgmtAnswer h m s).ends = s.ends ∧
    (State.mgmtAnswer h m s).errs = s.errs ∧ (State.mgmtAnswer h m s).level = s.level ∧ (State.mgmtAnswer h m s).crossings
    = s.crossings ∧ (State.mgmtAnswer h m s).fences = s.fences ∧ (State.mgmtAnswer h m s).pending = s.pending := by simp [State.mgmtAnswer]

@[simp] theorem State.respond_frame (src : Position) (m : MgmtP) (result : Byte) (data : List Byte) (s : State) :
    (State.respond src m result data s).ao = s.ao ∧ (State.respond src m result data s).cd = s.cd ∧ (State.respond src m
    result data s).la = s.la ∧ (State.respond src m result data s).lb = s.lb ∧ (State.respond src m result data s).ref =
    s.ref ∧ (State.respond src m result data s).ends = s.ends ∧ (State.respond src m result data s).errs = s.errs ∧
    (State.respond src m result data s).level = s.level ∧ (State.respond src m result data s).crossings = s.crossings ∧
    (State.respond src m result data s).fences = s.fences ∧ (State.respond src m result data s).pending = s.pending := by simp [State.respond]

@[simp] theorem State.serveLocal_frame (src : Position) (m : MgmtP) (s : State) :
    (State.serveLocal src m s).la = s.la ∧ (State.serveLocal src m s).lb = s.lb ∧ (State.serveLocal src m s).ref = s.ref ∧
    (State.serveLocal src m s).errs = s.errs ∧ (State.serveLocal src m s).level = s.level ∧ (State.serveLocal src m
    s).pending = s.pending := by
  and_intros <;> first | rfl | (simp [State.serveLocal]; done) | ((unfold State.serveLocal; (try dsimp only); repeat' split) <;> first | rfl | simp [*])

@[simp] theorem State.serveMgmt_frame (src : Position) (m : MgmtP) (s : State) :
    (State.serveMgmt src m s).la = s.la ∧ (State.serveMgmt src m s).lb = s.lb ∧ (State.serveMgmt src m s).ref = s.ref ∧
    (State.serveMgmt src m s).errs = s.errs ∧ (State.serveMgmt src m s).level = s.level ∧ (State.serveMgmt src m
    s).pending = s.pending := by
  and_intros <;> first | rfl | (simp [State.serveMgmt]; done) | ((unfold State.serveMgmt; (try dsimp only); repeat' split) <;> first | rfl | simp [*])

@[simp] theorem State.respondMbx_frame (n : Fin 4) (result : Byte) (payload : List Byte) (s : State) :
    (State.respondMbx n result payload s).ao = s.ao ∧ (State.respondMbx n result payload s).ld = s.ld ∧ (State.respondMbx
    n result payload s).la = s.la ∧ (State.respondMbx n result payload s).lb = s.lb ∧ (State.respondMbx n result payload
    s).ref = s.ref ∧ (State.respondMbx n result payload s).ends = s.ends ∧ (State.respondMbx n result payload s).errs =
    s.errs ∧ (State.respondMbx n result payload s).level = s.level ∧ (State.respondMbx n result payload s).crossings =
    s.crossings ∧ (State.respondMbx n result payload s).fences = s.fences ∧ (State.respondMbx n result payload s).pending
    = s.pending := by and_intros <;> rfl

@[simp] theorem State.failMbx_frame (n : Fin 4) (result : Byte) (payload : List Byte) (s : State) :
    (State.failMbx n result payload s).ao = s.ao ∧ (State.failMbx n result payload s).ld = s.ld ∧ (State.failMbx n result
    payload s).la = s.la ∧ (State.failMbx n result payload s).lb = s.lb ∧ (State.failMbx n result payload s).ref = s.ref ∧
    (State.failMbx n result payload s).ends = s.ends ∧ (State.failMbx n result payload s).errs = s.errs ∧ (State.failMbx n
    result payload s).level = s.level ∧ (State.failMbx n result payload s).crossings = s.crossings ∧ (State.failMbx n
    result payload s).fences = s.fences ∧ (State.failMbx n result payload s).pending = s.pending := by
  and_intros <;> first | rfl | (simp [State.failMbx]; done) | ((unfold State.failMbx; (try dsimp only); repeat' split) <;> first | rfl | simp [*])

@[simp] theorem State.askDies_frame (n : Fin 4) (op : Half) (info : List Byte) (asks : List (HvDie × List Byte)) (s : State)
    :
    (State.askDies n op info asks s).ao = s.ao ∧ (State.askDies n op info asks s).ld = s.ld ∧ (State.askDies n op info
    asks s).la = s.la ∧ (State.askDies n op info asks s).lb = s.lb ∧ (State.askDies n op info asks s).ref = s.ref ∧
    (State.askDies n op info asks s).errs = s.errs ∧ (State.askDies n op info asks s).level = s.level ∧ (State.askDies n
    op info asks s).crossings = s.crossings ∧ (State.askDies n op info asks s).fences = s.fences ∧ (State.askDies n op
    info asks s).pending = s.pending := by simp [State.askDies]

@[simp] theorem State.takeFinal_frame (d : Die) (answer : List Byte) (s : State) :
    (State.takeFinal d answer s).ao = s.ao ∧ (State.takeFinal d answer s).ld = s.ld ∧ (State.takeFinal d answer s).la =
    s.la ∧ (State.takeFinal d answer s).lb = s.lb ∧ (State.takeFinal d answer s).ref = s.ref ∧ (State.takeFinal d answer
    s).ends = s.ends ∧ (State.takeFinal d answer s).errs = s.errs ∧ (State.takeFinal d answer s).level = s.level ∧
    (State.takeFinal d answer s).crossings = s.crossings ∧ (State.takeFinal d answer s).fences = s.fences ∧
    (State.takeFinal d answer s).pending = s.pending := by simp [State.takeFinal]

@[simp] theorem State.takeFinal_other_la (answer : List Byte) (s : State) :
    (State.takeFinal .la answer s).lb = s.lb := by simp [State.takeFinal]

@[simp] theorem State.takeFinal_other_lb (answer : List Byte) (s : State) :
    (State.takeFinal .lb answer s).la = s.la := by simp [State.takeFinal]

@[simp] theorem State.writeOption_frame (m : Mem) (ok : Bool) (s : State) :
    (State.writeOption m ok s).ao = s.ao ∧ (State.writeOption m ok s).ld = s.ld ∧ (State.writeOption m ok s).la = s.la ∧
    (State.writeOption m ok s).lb = s.lb ∧ (State.writeOption m ok s).ref = s.ref ∧ (State.writeOption m ok s).ends =
    s.ends ∧ (State.writeOption m ok s).errs = s.errs ∧ (State.writeOption m ok s).level = s.level ∧ (State.writeOption m
    ok s).crossings = s.crossings ∧ (State.writeOption m ok s).fences = s.fences ∧ (State.writeOption m ok s).pending =
    s.pending := by simp [State.writeOption]

@[simp] theorem State.answerLedger_frame (n : Fin 4) (s : State) :
    (State.answerLedger n s).ao = s.ao ∧ (State.answerLedger n s).ld = s.ld ∧ (State.answerLedger n s).la = s.la ∧
    (State.answerLedger n s).lb = s.lb ∧ (State.answerLedger n s).ref = s.ref ∧ (State.answerLedger n s).ends = s.ends ∧
    (State.answerLedger n s).errs = s.errs ∧ (State.answerLedger n s).level = s.level ∧ (State.answerLedger n s).crossings
    = s.crossings ∧ (State.answerLedger n s).fences = s.fences ∧ (State.answerLedger n s).pending = s.pending := by and_intros <;> rfl

@[simp] theorem State.applyPower_frame (b : Byte) (s : State) :
    (State.applyPower b s).ao = s.ao ∧ (State.applyPower b s).ld = s.ld ∧ (State.applyPower b s).la = s.la ∧
    (State.applyPower b s).lb = s.lb ∧ (State.applyPower b s).ref = s.ref ∧ (State.applyPower b s).ends = s.ends ∧
    (State.applyPower b s).errs = s.errs ∧ (State.applyPower b s).level = s.level ∧ (State.applyPower b s).crossings =
    s.crossings ∧ (State.applyPower b s).fences = s.fences ∧ (State.applyPower b s).pending = s.pending := by and_intros <;> rfl

@[simp] theorem State.modLedger_frame (f : Ledger → Ledger) (s : State) :
    (State.modLedger f s).ao = s.ao ∧ (State.modLedger f s).ld = s.ld ∧ (State.modLedger f s).la = s.la ∧ (State.modLedger
    f s).lb = s.lb ∧ (State.modLedger f s).ref = s.ref ∧ (State.modLedger f s).ends = s.ends ∧ (State.modLedger f s).errs
    = s.errs ∧ (State.modLedger f s).level = s.level ∧ (State.modLedger f s).crossings = s.crossings ∧ (State.modLedger f
    s).fences = s.fences ∧ (State.modLedger f s).pending = s.pending := by simp [State.modLedger]

@[simp] theorem State.readFinal_frame (d : Die) (s : State) :
    (State.readFinal d s).ao = s.ao ∧ (State.readFinal d s).cd = s.cd ∧ (State.readFinal d s).ld = s.ld ∧ (State.readFinal
    d s).la = s.la ∧ (State.readFinal d s).lb = s.lb ∧ (State.readFinal d s).ref = s.ref ∧ (State.readFinal d s).errs =
    s.errs ∧ (State.readFinal d s).level = s.level ∧ (State.readFinal d s).crossings = s.crossings ∧ (State.readFinal d
    s).fences = s.fences ∧ (State.readFinal d s).pending = s.pending := by simp [State.readFinal]

@[simp] theorem State.readFinal_other_la (s : State) :
    (State.readFinal .la s).lb = s.lb := by simp [State.readFinal]

@[simp] theorem State.readFinal_other_lb (s : State) :
    (State.readFinal .lb s).la = s.la := by simp [State.readFinal]

@[simp] theorem State.clearGroup_frame (g : Byte) (s : State) :
    (State.clearGroup g s).ao = s.ao ∧ (State.clearGroup g s).la = s.la ∧ (State.clearGroup g s).lb = s.lb ∧
    (State.clearGroup g s).ref = s.ref ∧ (State.clearGroup g s).ends = s.ends ∧ (State.clearGroup g s).errs = s.errs ∧
    (State.clearGroup g s).level = s.level ∧ (State.clearGroup g s).crossings = s.crossings ∧ (State.clearGroup g
    s).fences = s.fences ∧ (State.clearGroup g s).pending = s.pending := by simp [State.clearGroup]

@[simp] theorem State.clearTrial_frame (b : Bool) (s : State) :
    (State.clearTrial b s).ao = s.ao ∧ (State.clearTrial b s).ld = s.ld ∧ (State.clearTrial b s).la = s.la ∧
    (State.clearTrial b s).lb = s.lb ∧ (State.clearTrial b s).ref = s.ref ∧ (State.clearTrial b s).ends = s.ends ∧
    (State.clearTrial b s).errs = s.errs ∧ (State.clearTrial b s).level = s.level ∧ (State.clearTrial b s).crossings =
    s.crossings ∧ (State.clearTrial b s).fences = s.fences ∧ (State.clearTrial b s).pending = s.pending := by simp [State.clearTrial]

@[simp] theorem State.settleBoot_frame (s : State) :
    (State.settleBoot s).ao = s.ao ∧ (State.settleBoot s).ld = s.ld ∧ (State.settleBoot s).la = s.la ∧ (State.settleBoot
    s).lb = s.lb ∧ (State.settleBoot s).ref = s.ref ∧ (State.settleBoot s).ends = s.ends ∧ (State.settleBoot s).errs =
    s.errs ∧ (State.settleBoot s).level = s.level ∧ (State.settleBoot s).crossings = s.crossings ∧ (State.settleBoot
    s).fences = s.fences ∧ (State.settleBoot s).pending = s.pending := by
  and_intros <;> first | rfl | (simp [State.settleBoot]; done) | ((unfold State.settleBoot; (try dsimp only); repeat' split) <;> first | rfl | simp [*])

@[simp] theorem State.advanceRollback_frame (programOk : Bool) (s : State) :
    (State.advanceRollback programOk s).ld = s.ld ∧ (State.advanceRollback programOk s).la = s.la ∧ (State.advanceRollback
    programOk s).lb = s.lb ∧ (State.advanceRollback programOk s).ref = s.ref ∧ (State.advanceRollback programOk s).ends =
    s.ends ∧ (State.advanceRollback programOk s).errs = s.errs ∧ (State.advanceRollback programOk s).level = s.level ∧
    (State.advanceRollback programOk s).crossings = s.crossings ∧ (State.advanceRollback programOk s).fences = s.fences ∧
    (State.advanceRollback programOk s).pending = s.pending := by
  and_intros <;> first | rfl | (simp [State.advanceRollback]; done) | ((unfold State.advanceRollback; (try dsimp only); repeat' split) <;> first | rfl | simp [*])

@[simp] theorem State.bridgeAnswered_frame (t : Fin 8) (d : HvDie) (a : List Byte) (s : State) :
    (State.bridgeAnswered t d a s).ao = s.ao ∧ (State.bridgeAnswered t d a s).ld = s.ld ∧ (State.bridgeAnswered t d a
    s).la = s.la ∧ (State.bridgeAnswered t d a s).lb = s.lb ∧ (State.bridgeAnswered t d a s).ref = s.ref ∧
    (State.bridgeAnswered t d a s).errs = s.errs ∧ (State.bridgeAnswered t d a s).level = s.level ∧ (State.bridgeAnswered
    t d a s).crossings = s.crossings ∧ (State.bridgeAnswered t d a s).fences = s.fences ∧ (State.bridgeAnswered t d a
    s).pending = s.pending := by
  and_intros <;> first | rfl | (simp [State.bridgeAnswered]; done) | ((unfold State.bridgeAnswered; (try dsimp only); repeat' split) <;> first | rfl | simp [*])

@[simp] theorem State.responderAnswered_frame (a : List Byte) (s : State) :
    (State.responderAnswered a s).ao = s.ao ∧ (State.responderAnswered a s).la = s.la ∧ (State.responderAnswered a s).lb =
    s.lb ∧ (State.responderAnswered a s).ref = s.ref ∧ (State.responderAnswered a s).errs = s.errs ∧
    (State.responderAnswered a s).level = s.level ∧ (State.responderAnswered a s).crossings = s.crossings ∧
    (State.responderAnswered a s).fences = s.fences ∧ (State.responderAnswered a s).pending = s.pending := by
  and_intros <;> first | rfl | (simp [State.responderAnswered]; done) | ((unfold State.responderAnswered; (try dsimp only); repeat' split) <;> first | rfl | simp [*])

@[simp] theorem State.closeCommand_frame (l : FLink) (seq : Byte) (s : State) :
    (State.closeCommand l seq s).ao = s.ao ∧ (State.closeCommand l seq s).cd = s.cd ∧ (State.closeCommand l seq s).ld =
    s.ld ∧ (State.closeCommand l seq s).la = s.la ∧ (State.closeCommand l seq s).lb = s.lb ∧ (State.closeCommand l seq
    s).ref = s.ref ∧ (State.closeCommand l seq s).errs = s.errs ∧ (State.closeCommand l seq s).level = s.level ∧
    (State.closeCommand l seq s).crossings = s.crossings ∧ (State.closeCommand l seq s).fences = s.fences ∧
    (State.closeCommand l seq s).pending = s.pending := by and_intros <;> rfl

@[simp] theorem State.dieResponse_frame (l : FLink) (seq : Byte) (s : State) :
    (State.dieResponse l seq s).ao = s.ao ∧ (State.dieResponse l seq s).cd = s.cd ∧ (State.dieResponse l seq s).ld = s.ld
    ∧ (State.dieResponse l seq s).ends = s.ends ∧ (State.dieResponse l seq s).errs = s.errs ∧ (State.dieResponse l seq
    s).level = s.level ∧ (State.dieResponse l seq s).crossings = s.crossings ∧ (State.dieResponse l seq s).fences =
    s.fences ∧ (State.dieResponse l seq s).pending = s.pending := by
  and_intros <;> first | rfl | (simp [State.dieResponse]; done) | ((unfold State.dieResponse; (try dsimp only); repeat' split) <;> first | rfl | simp [*])

@[simp] theorem State.cutNvm_frame (cut : Bool) (s : State) :
    (State.cutNvm cut s).ao = s.ao ∧ (State.cutNvm cut s).ld = s.ld ∧ (State.cutNvm cut s).la = s.la ∧ (State.cutNvm cut
    s).lb = s.lb ∧ (State.cutNvm cut s).ref = s.ref ∧ (State.cutNvm cut s).ends = s.ends ∧ (State.cutNvm cut s).errs =
    s.errs ∧ (State.cutNvm cut s).level = s.level ∧ (State.cutNvm cut s).crossings = s.crossings ∧ (State.cutNvm cut
    s).fences = s.fences ∧ (State.cutNvm cut s).pending = s.pending := by simp [State.cutNvm]

@[simp] theorem State.fuseDies_frame (first : Bool) (s : State) :
    (State.fuseDies first s).ao = s.ao ∧ (State.fuseDies first s).cd = s.cd ∧ (State.fuseDies first s).ld = s.ld ∧
    (State.fuseDies first s).ref = s.ref ∧ (State.fuseDies first s).ends = s.ends ∧ (State.fuseDies first s).errs = s.errs
    ∧ (State.fuseDies first s).level = s.level ∧ (State.fuseDies first s).crossings = s.crossings ∧ (State.fuseDies first
    s).fences = s.fences ∧ (State.fuseDies first s).pending = s.pending := by simp [State.fuseDies]

@[simp] theorem State.assertRst_frame (s : State) :
    (State.assertRst s).la = s.la ∧ (State.assertRst s).lb = s.lb ∧ (State.assertRst s).ref = s.ref ∧ (State.assertRst
    s).errs = s.errs ∧ (State.assertRst s).level = s.level ∧ (State.assertRst s).pending = s.pending := by simp [State.assertRst]

@[simp] theorem State.holdPending_frame (s : State) :
    (State.holdPending s).cd = s.cd ∧ (State.holdPending s).ld = s.ld ∧ (State.holdPending s).la = s.la ∧
    (State.holdPending s).lb = s.lb ∧ (State.holdPending s).ref = s.ref ∧ (State.holdPending s).ends = s.ends ∧
    (State.holdPending s).errs = s.errs ∧ (State.holdPending s).level = s.level ∧ (State.holdPending s).crossings =
    s.crossings ∧ (State.holdPending s).fences = s.fences ∧ (State.holdPending s).pending = s.pending := by and_intros <;> rfl

@[simp] theorem State.holdFramer_frame (s : State) :
    (State.holdFramer s).ld = s.ld ∧ (State.holdFramer s).la = s.la ∧ (State.holdFramer s).lb = s.lb ∧ (State.holdFramer
    s).ref = s.ref ∧ (State.holdFramer s).ends = s.ends ∧ (State.holdFramer s).errs = s.errs ∧ (State.holdFramer s).level
    = s.level ∧ (State.holdFramer s).crossings = s.crossings ∧ (State.holdFramer s).fences = s.fences ∧ (State.holdFramer
    s).pending = s.pending := by and_intros <;> rfl

@[simp] theorem State.clearRegions_frame (badFw : Bool) (badFault : Bool) (badHost : Bool) (s : State) :
    (State.clearRegions badFw badFault badHost s).ao = s.ao ∧ (State.clearRegions badFw badFault badHost s).ld = s.ld ∧
    (State.clearRegions badFw badFault badHost s).la = s.la ∧ (State.clearRegions badFw badFault badHost s).lb = s.lb ∧
    (State.clearRegions badFw badFault badHost s).ref = s.ref ∧ (State.clearRegions badFw badFault badHost s).ends =
    s.ends ∧ (State.clearRegions badFw badFault badHost s).errs = s.errs ∧ (State.clearRegions badFw badFault badHost
    s).level = s.level ∧ (State.clearRegions badFw badFault badHost s).crossings = s.crossings ∧ (State.clearRegions badFw
    badFault badHost s).fences = s.fences ∧ (State.clearRegions badFw badFault badHost s).pending = s.pending := by simp [State.clearRegions]

@[simp] theorem State.raiseLost_frame (bad : Bool) (address : Half) (s : State) :
    (State.raiseLost bad address s).ao = s.ao ∧ (State.raiseLost bad address s).ld = s.ld ∧ (State.raiseLost bad address
    s).la = s.la ∧ (State.raiseLost bad address s).lb = s.lb ∧ (State.raiseLost bad address s).ref = s.ref ∧
    (State.raiseLost bad address s).ends = s.ends ∧ (State.raiseLost bad address s).errs = s.errs ∧ (State.raiseLost bad
    address s).level = s.level ∧ (State.raiseLost bad address s).crossings = s.crossings ∧ (State.raiseLost bad address
    s).fences = s.fences ∧ (State.raiseLost bad address s).pending = s.pending := by simp [State.raiseLost]

@[simp] theorem State.markLink_frame (d : HvDie) (s : State) :
    (State.markLink d s).ao = s.ao ∧ (State.markLink d s).cd = s.cd ∧ (State.markLink d s).ld = s.ld ∧ (State.markLink d
    s).la = s.la ∧ (State.markLink d s).lb = s.lb ∧ (State.markLink d s).ref = s.ref ∧ (State.markLink d s).errs = s.errs
    ∧ (State.markLink d s).level = s.level ∧ (State.markLink d s).crossings = s.crossings ∧ (State.markLink d s).fences =
    s.fences ∧ (State.markLink d s).pending = s.pending := by and_intros <;> rfl

@[simp] theorem State.beginRun_frame (prev : Byte) (count : Byte) (s : State) :
    (State.beginRun prev count s).la = s.la ∧ (State.beginRun prev count s).lb = s.lb ∧ (State.beginRun prev count s).ref
    = s.ref ∧ (State.beginRun prev count s).errs = s.errs ∧ (State.beginRun prev count s).level = s.level ∧
    (State.beginRun prev count s).crossings = s.crossings ∧ (State.beginRun prev count s).fences = s.fences ∧
    (State.beginRun prev count s).pending = s.pending := by simp [State.beginRun]

@[simp] theorem State.startBooks_frame (prev : Byte) (s : State) :
    (State.startBooks prev s).ao = s.ao ∧ (State.startBooks prev s).ld = s.ld ∧ (State.startBooks prev s).la = s.la ∧
    (State.startBooks prev s).lb = s.lb ∧ (State.startBooks prev s).ref = s.ref ∧ (State.startBooks prev s).ends = s.ends
    ∧ (State.startBooks prev s).errs = s.errs ∧ (State.startBooks prev s).level = s.level ∧ (State.startBooks prev
    s).crossings = s.crossings ∧ (State.startBooks prev s).fences = s.fences ∧ (State.startBooks prev s).pending =
    s.pending := by simp [State.startBooks]

@[simp] theorem State.startEvents_frame (s : State) :
    (State.startEvents s).ao = s.ao ∧ (State.startEvents s).ld = s.ld ∧ (State.startEvents s).la = s.la ∧
    (State.startEvents s).lb = s.lb ∧ (State.startEvents s).ref = s.ref ∧ (State.startEvents s).ends = s.ends ∧
    (State.startEvents s).errs = s.errs ∧ (State.startEvents s).level = s.level ∧ (State.startEvents s).crossings =
    s.crossings ∧ (State.startEvents s).fences = s.fences ∧ (State.startEvents s).pending = s.pending := by simp [State.startEvents]

@[simp] theorem State.candidate_frame (s : State) :
    (State.candidate s).1.ao = s.ao ∧ (State.candidate s).1.ld = s.ld ∧ (State.candidate s).1.la = s.la ∧ (State.candidate
    s).1.lb = s.lb ∧ (State.candidate s).1.ref = s.ref ∧ (State.candidate s).1.ends = s.ends ∧ (State.candidate s).1.errs
    = s.errs ∧ (State.candidate s).1.level = s.level ∧ (State.candidate s).1.crossings = s.crossings ∧ (State.candidate
    s).1.fences = s.fences ∧ (State.candidate s).1.pending = s.pending := by
  and_intros <;> first | rfl | (simp [State.candidate]; done) | ((unfold State.candidate; (try dsimp only); repeat' split) <;> first | rfl | simp [*])

@[simp] theorem State.chooseBank_frame (s : State) :
    (State.chooseBank s).1.ao = s.ao ∧ (State.chooseBank s).1.ld = s.ld ∧ (State.chooseBank s).1.la = s.la ∧
    (State.chooseBank s).1.lb = s.lb ∧ (State.chooseBank s).1.ref = s.ref ∧ (State.chooseBank s).1.ends = s.ends ∧
    (State.chooseBank s).1.errs = s.errs ∧ (State.chooseBank s).1.level = s.level ∧ (State.chooseBank s).1.crossings =
    s.crossings ∧ (State.chooseBank s).1.fences = s.fences ∧ (State.chooseBank s).1.pending = s.pending := by
  and_intros <;> first | rfl | (simp [State.chooseBank]; done) | ((unfold State.chooseBank; (try dsimp only); repeat' split) <;> first | rfl | simp [*])

@[simp] theorem State.applyShadow_frame (v : Shadow) (crc : Word) (s : State) :
    (State.applyShadow v crc s).ao = s.ao ∧ (State.applyShadow v crc s).la = s.la ∧ (State.applyShadow v crc s).lb = s.lb
    ∧ (State.applyShadow v crc s).ref = s.ref ∧ (State.applyShadow v crc s).errs = s.errs ∧ (State.applyShadow v crc
    s).level = s.level ∧ (State.applyShadow v crc s).crossings = s.crossings ∧ (State.applyShadow v crc s).fences =
    s.fences ∧ (State.applyShadow v crc s).pending = s.pending := by simp [State.applyShadow]

@[simp] theorem State.badBlock_frame (check : Byte) (index : Byte) (s : State) :
    (State.badBlock check index s).ao = s.ao ∧ (State.badBlock check index s).ld = s.ld ∧ (State.badBlock check index
    s).la = s.la ∧ (State.badBlock check index s).lb = s.lb ∧ (State.badBlock check index s).ref = s.ref ∧ (State.badBlock
    check index s).ends = s.ends ∧ (State.badBlock check index s).errs = s.errs ∧ (State.badBlock check index s).level =
    s.level ∧ (State.badBlock check index s).crossings = s.crossings ∧ (State.badBlock check index s).fences = s.fences ∧
    (State.badBlock check index s).pending = s.pending := by simp [State.badBlock]

@[simp] theorem State.loadOptions_frame (s : State) :
    (State.loadOptions s).ao = s.ao ∧ (State.loadOptions s).la = s.la ∧ (State.loadOptions s).lb = s.lb ∧
    (State.loadOptions s).ref = s.ref ∧ (State.loadOptions s).errs = s.errs ∧ (State.loadOptions s).level = s.level ∧
    (State.loadOptions s).crossings = s.crossings ∧ (State.loadOptions s).fences = s.fences ∧ (State.loadOptions
    s).pending = s.pending := by
  and_intros <;> first | rfl | (simp [State.loadOptions]; done) | ((unfold State.loadOptions; (try dsimp only); repeat' split) <;> first | rfl | simp [*])

@[simp] theorem State.raiseWaiting_frame (s : State) :
    (State.raiseWaiting s).ld = s.ld ∧ (State.raiseWaiting s).la = s.la ∧ (State.raiseWaiting s).lb = s.lb ∧
    (State.raiseWaiting s).ref = s.ref ∧ (State.raiseWaiting s).ends = s.ends ∧ (State.raiseWaiting s).errs = s.errs ∧
    (State.raiseWaiting s).level = s.level ∧ (State.raiseWaiting s).crossings = s.crossings ∧ (State.raiseWaiting
    s).fences = s.fences ∧ (State.raiseWaiting s).pending = s.pending := by simp [State.raiseWaiting]

@[simp] theorem State.idle_frame (s : State) :
    (State.idle s).ao = s.ao ∧ (State.idle s).cd = s.cd ∧ (State.idle s).la = s.la ∧ (State.idle s).lb = s.lb ∧
    (State.idle s).ref = s.ref ∧ (State.idle s).ends = s.ends ∧ (State.idle s).errs = s.errs ∧ (State.idle s).level =
    s.level ∧ (State.idle s).crossings = s.crossings ∧ (State.idle s).fences = s.fences ∧ (State.idle s).pending =
    s.pending := by simp [State.idle]

@[simp] theorem State.withFetchWord_frame (s : State) (nbits : Nat) (w : Nat) :
    (State.withFetchWord s nbits w).ao = s.ao ∧ (State.withFetchWord s nbits w).cd = s.cd ∧ (State.withFetchWord s nbits
    w).ld = s.ld ∧ (State.withFetchWord s nbits w).la = s.la ∧ (State.withFetchWord s nbits w).lb = s.lb ∧
    (State.withFetchWord s nbits w).ref = s.ref ∧ (State.withFetchWord s nbits w).ends = s.ends ∧ (State.withFetchWord s
    nbits w).errs = s.errs ∧ (State.withFetchWord s nbits w).level = s.level ∧ (State.withFetchWord s nbits w).crossings =
    s.crossings ∧ (State.withFetchWord s nbits w).fences = s.fences ∧ (State.withFetchWord s nbits w).pending = s.pending := by and_intros <;> rfl

end Sys2Proof.Machine
end

