-- ==== Sys2Proof/Laws/Memory.lean ====
section
/-! SUPPORT. The laws of an addressed memory: every write keeps the canonical form, a read after a write to the same address
gives the byte written, a write leaves every other address alone, and equal memories are equal data. -/

namespace Sys2Proof.Machine

variable {dflt : Byte}

theorem cellsWf_cons {lo k : Nat} {b : Byte} {r : List Host.Cell} :
    cellsWf dflt lo ((k, b) :: r) = true ↔ lo ≤ k ∧ b ≠ dflt ∧ cellsWf dflt (k + 1) r = true := by
  simp [cellsWf, and_assoc]

theorem cellsWf_mono {lo lo' : Nat} (h : lo ≤ lo') {c : List Host.Cell} (w : cellsWf dflt lo' c = true) :
    cellsWf dflt lo c = true := by
  cases c with
  | nil => rfl
  | cons x r =>
    obtain ⟨k, b⟩ := x
    rw [cellsWf_cons] at w ⊢
    exact ⟨Nat.le_trans h w.1, w.2⟩

/-- Below the bound of a canonical list every address reads the default. -/
theorem cellsGet_below {lo : Nat} {c : List Host.Cell} (w : cellsWf dflt lo c = true) {a : Nat} (h : a < lo) :
    cellsGet dflt c a = dflt := by
  induction c generalizing lo with
  | nil => rfl
  | cons x r ih =>
    obtain ⟨k, b⟩ := x
    rw [cellsWf_cons] at w
    have hk : k ≠ a := by omega
    simp only [cellsGet, if_neg hk]
    exact ih w.2.2 (by omega)

theorem cellsSet_wf {lo : Nat} {c : List Host.Cell} (w : cellsWf dflt lo c = true) {a : Nat} (h : lo ≤ a) (b : Byte) :
    cellsWf dflt lo (cellsSet dflt c a b) = true := by
  induction c generalizing lo with
  | nil =>
    simp only [cellsSet]
    split
    · rfl
    · rw [cellsWf_cons]; exact ⟨h, ‹_›, rfl⟩
  | cons x r ih =>
    obtain ⟨k, d⟩ := x
    have w' := cellsWf_cons.mp w
    simp only [cellsSet]
    split
    · split
      · exact w
      · rw [cellsWf_cons]; exact ⟨h, ‹_›, by rw [cellsWf_cons]; exact ⟨by omega, w'.2⟩⟩
    · split
      · split
        · exact cellsWf_mono (by omega) w'.2.2
        · subst k; rw [cellsWf_cons]; exact ⟨h, ‹_›, w'.2.2⟩
      · rw [cellsWf_cons]; exact ⟨w'.1, w'.2.1, ih w'.2.2 (by omega)⟩

theorem cellsGet_set {lo : Nat} {c : List Host.Cell} (w : cellsWf dflt lo c = true) (a x : Nat) (b : Byte) :
    cellsGet dflt (cellsSet dflt c a b) x = if x = a then b else cellsGet dflt c x := by
  induction c generalizing lo with
  | nil =>
    by_cases hx : x = a
    · subst x; by_cases hb : b = dflt <;> simp [cellsSet, cellsGet, hb]
    · have : a ≠ x := fun h => hx h.symm
      by_cases hb : b = dflt <;> simp [cellsSet, cellsGet, hb, hx, this]
  | cons y r ih =>
    obtain ⟨k, d⟩ := y
    have w' := cellsWf_cons.mp w
    have below : ∀ z, z ≤ k → cellsGet dflt r z = dflt := fun z hz => cellsGet_below w'.2.2 (by omega)
    simp only [cellsSet]
    by_cases h1 : a < k
    · by_cases hb : b = dflt
      · subst b
        by_cases hx : x = a
        · subst x; simp [h1, cellsGet, Nat.ne_of_gt h1, below a (by omega)]
        · simp [h1, hx]
      · by_cases hx : x = a
        · subst x; simp [h1, hb, cellsGet]
        · have hx' : a ≠ x := fun h => hx h.symm
          simp [h1, hb, cellsGet, hx, hx']
    · by_cases h2 : a = k
      · subst k
        by_cases hb : b = dflt
        · subst b
          by_cases hx : x = a
          · subst x; simp [below a (Nat.le_refl a)]
          · have hx' : a ≠ x := fun h => hx h.symm
            simp [cellsGet, hx, hx']
        · by_cases hx : x = a
          · subst x; simp [hb, cellsGet]
          · have hx' : a ≠ x := fun h => hx h.symm
            simp [hb, cellsGet, hx, hx']
      · simp only [if_neg h1, if_neg h2, cellsGet]
        by_cases hk : k = x
        · subst x
          have : k ≠ a := fun h => h2 h.symm
          simp [this]
        · simp only [if_neg hk]; exact ih w'.2.2

/-! ### Memories -/

theorem Mem.wf_blank : Mem.blank.wf dflt = true := rfl

theorem Mem.wf_put {m : Mem} (w : m.wf dflt = true) (a : Nat) (b : Byte) : (m.put dflt a b).wf dflt = true :=
  cellsSet_wf w (Nat.zero_le a) b

theorem Mem.get_put {m : Mem} (w : m.wf dflt = true) (a x : Nat) (b : Byte) :
    (m.put dflt a b).get dflt x = if x = a then b else m.get dflt x := cellsGet_set w a x b

theorem Mem.wf_fill {m : Mem} (w : m.wf dflt = true) (a : Nat) (l : List Byte) : (m.fill dflt a l).wf dflt = true := by
  induction l generalizing m a with
  | nil => exact w
  | cons b r ih => exact ih (Mem.wf_put w a b) (a + 1)

/-- What a run of bytes leaves at each address: the byte of the run there, and elsewhere what stood before. -/
theorem Mem.get_fill {m : Mem} (w : m.wf dflt = true) (a x : Nat) (l : List Byte) :
    (m.fill dflt a l).get dflt x = if a ≤ x ∧ x < a + l.length then l.getD (x - a) 0 else m.get dflt x := by
  induction l generalizing m a with
  | nil => simp only [Mem.fill, List.length_nil, Nat.add_zero]; rw [if_neg (by omega)]
  | cons b r ih =>
    simp only [Mem.fill, List.length_cons]
    rw [ih (Mem.wf_put w a b), Mem.get_put w]
    by_cases hx : x = a
    · subst x
      rw [if_neg (by omega), if_pos rfl, if_pos (by omega)]; simp
    · by_cases hr : a + 1 ≤ x ∧ x < a + 1 + r.length
      · obtain ⟨n, hn⟩ : ∃ n, x - a = n + 1 := ⟨x - a - 1, by omega⟩
        rw [if_pos hr, if_pos (by omega), hn, show x - (a + 1) = n by omega]; simp
      · rw [if_neg hr, if_neg hx, if_neg (by omega)]

/-- Canonical memories that read alike at every address are the same data. -/
theorem cells_ext {lo : Nat} {c e : List Host.Cell} (wc : cellsWf dflt lo c = true) (we : cellsWf dflt lo e = true)
    (h : ∀ a, cellsGet dflt c a = cellsGet dflt e a) : c = e := by
  induction c generalizing lo e with
  | nil =>
    cases e with
    | nil => rfl
    | cons y r =>
      obtain ⟨k, d⟩ := y
      have we' := cellsWf_cons.mp we
      have := h k
      simp only [cellsGet, if_true] at this
      exact absurd this.symm we'.2.1
  | cons x r ih =>
    obtain ⟨k, d⟩ := x
    have wc' := cellsWf_cons.mp wc
    cases e with
    | nil =>
      have := h k
      simp only [cellsGet, if_true] at this
      exact absurd this wc'.2.1
    | cons y q =>
      obtain ⟨j, g⟩ := y
      have we' := cellsWf_cons.mp we
      have hk := h k
      have hj := h j
      simp only [cellsGet, if_true] at hk hj
      rcases Nat.lt_trichotomy k j with hlt | heq | hgt
      · rw [if_neg (by omega), cellsGet_below we'.2.2 (by omega)] at hk
        exact absurd hk wc'.2.1
      · subst j
        rw [if_pos rfl] at hk
        have hr : r = q := by
          apply ih wc'.2.2 we'.2.2
          intro a
          by_cases ha : k = a
          · subst a; rw [cellsGet_below wc'.2.2 (by omega), cellsGet_below we'.2.2 (by omega)]
          · have := h a; simpa only [cellsGet, if_neg ha] using this
        rw [hk, hr]
      · rw [if_neg (by omega), cellsGet_below wc'.2.2 (by omega)] at hj
        exact absurd hj.symm we'.2.1

theorem Mem.ext_get {m n : Mem} (wm : m.wf dflt = true) (wn : n.wf dflt = true)
    (h : ∀ a, m.get dflt a = n.get dflt a) : m = n := by
  cases m; cases n; congr 1; exact cells_ext wm wn h

end Sys2Proof.Machine
end

