-- ==== Sys2Proof/Laws/Ops.lean ====
section
/-! SUPPORT. What each shared operation over one link end, level link, lane, port or die says when that part is read again,
and what serving a COMMAND (R46) does to a new one and to a copy. A proof cites these in place of unfolding the operation. -/

namespace Sys2Proof.Machine

variable (s : State)

/-! ### Reading a part after it was changed -/

@[simp] theorem State.lend_modEnd (l : FLink) (e : LEnd) (f : LinkEnd → LinkEnd) :
    (s.modEnd l e f).lend l e = f (s.lend l e) := LinkEnds.get_set ..

theorem State.lend_modEnd_ne {l m : FLink} {e g : LEnd} (h : (m, g) ≠ (l, e)) (f : LinkEnd → LinkEnd) :
    (s.modEnd l e f).lend m g = s.lend m g := by
  cases l <;> cases e <;> cases m <;> cases g <;> first | exact absurd rfl h | rfl

@[simp] theorem State.lv_modLevel (l : LLink) (f : LevelLink → LevelLink) : (s.modLevel l f).lv l = f (s.lv l) :=
  LevelLinks.get_set ..

theorem State.lv_modLevel_ne {l m : LLink} (h : m ≠ l) (f : LevelLink → LevelLink) : (s.modLevel l f).lv m = s.lv m := by
  cases l <;> cases m <;> first | exact absurd rfl h | rfl

@[simp] theorem State.lane_modLane (p : Port) (f : Lane → Lane) : (s.modLane p f).lane p = f (s.lane p) := by
  cases p <;> rfl

theorem State.lane_modLane_ne {p q : Port} (h : q ≠ p) (f : Lane → Lane) : (s.modLane p f).lane q = s.lane q := by
  cases p <;> cases q <;> first | exact absurd rfl h | rfl

@[simp] theorem State.port_modPort (p : Port) (f : PortState → PortState) : (s.modPort p f).port p = f (s.port p) := by
  cases p <;> rfl

theorem State.port_modPort_ne {p q : Port} (h : q ≠ p) (f : PortState → PortState) :
    (s.modPort p f).port q = s.port q := by
  cases p <;> cases q <;> first | exact absurd rfl h | rfl

@[simp] theorem State.lane_modPort (p q : Port) (f : PortState → PortState) : (s.modPort p f).lane q = s.lane q := by
  cases p <;> cases q <;> rfl

@[simp] theorem State.port_modLane (p q : Port) (f : Lane → Lane) : (s.modLane p f).port q = s.port q := by
  cases p <;> cases q <;> rfl

/-- Two dies are two places: a change of one commutes with a change of the other. -/
theorem State.modDie_comm (d : Die) (f g : LampDie → LampDie) :
    (s.modDie d f).modDie d.other g = (s.modDie d.other g).modDie d f := by cases d <;> rfl

/-! ### Frames of a link -/

@[simp] theorem State.lend_emit (x : Emission) (l : FLink) (e : LEnd) : (s.emit x).lend l e = s.lend l e := rfl

/-- The symbols of a frame follow on the line of its end, and the end keeps everything else (R42). -/
theorem State.lend_putLink (l : FLink) (e : LEnd) (q : Byte) (b : LinkBody) :
    (s.putLink l e q b).lend l e = LinkEnd.transmit l s.now (b.symbols q) (s.lend l e) := State.lend_modEnd ..

theorem State.lend_putLink_ne {l m : FLink} {e g : LEnd} (h : (m, g) ≠ (l, e)) (q : Byte) (b : LinkBody) :
    (s.putLink l e q b).lend m g = s.lend m g := State.lend_modEnd_ne _ h _

/-- R45: a new frame takes the next SEQ, and its symbols follow on the line. -/
theorem State.lend_sendLink (l : FLink) (e : LEnd) (b : LinkBody) :
    (s.sendLink l e b).lend l e =
      { LinkEnd.transmit l s.now (b.symbols ((s.lend l e).txSeq + 1)) (s.lend l e) with
        txSeq := (LinkEnd.transmit l s.now (b.symbols ((s.lend l e).txSeq + 1)) (s.lend l e)).txSeq + 1 } := by
  rw [State.sendLink, State.lend_modEnd, State.lend_putLink]

theorem State.lend_sendLink_ne {l m : FLink} {e g : LEnd} (h : (m, g) ≠ (l, e)) (b : LinkBody) :
    (s.sendLink l e b).lend m g = s.lend m g := by
  rw [State.sendLink, State.lend_modEnd_ne _ h, State.lend_putLink_ne _ h]

/-- What putting symbols on the line leaves of an end. -/
theorem LinkEnd.transmit_keeps (l : FLink) (n : Nat) (f : List Sym) (x : LinkEnd) :
    LinkEnd.transmit l n f x = { x with
      tx := (LinkEnd.transmit l n f x).tx, txAt := (LinkEnd.transmit l n f x).txAt,
      txPositive := (LinkEnd.transmit l n f x).txPositive } := by
  simp only [LinkEnd.transmit]; split <;> rfl

@[simp] theorem LinkEnd.transmit_txSeq (l : FLink) (n : Nat) (f : List Sym) (x : LinkEnd) :
    (LinkEnd.transmit l n f x).txSeq = x.txSeq := by rw [LinkEnd.transmit_keeps]

@[simp] theorem LinkEnd.transmit_served (l : FLink) (n : Nat) (f : List Sym) (x : LinkEnd) :
    (LinkEnd.transmit l n f x).served = x.served := by rw [LinkEnd.transmit_keeps]

@[simp] theorem LinkEnd.transmit_opened (l : FLink) (n : Nat) (f : List Sym) (x : LinkEnd) :
    (LinkEnd.transmit l n f x).opened = x.opened := by rw [LinkEnd.transmit_keeps]

@[simp] theorem LinkEnd.transmit_running (l : FLink) (n : Nat) (f : List Sym) (x : LinkEnd) :
    (LinkEnd.transmit l n f x).running = x.running := by rw [LinkEnd.transmit_keeps]

@[simp] theorem LinkEnd.transmit_lost (l : FLink) (n : Nat) (f : List Sym) (x : LinkEnd) :
    (LinkEnd.transmit l n f x).lost = x.lost := by rw [LinkEnd.transmit_keeps]

/-- R46: the COMMAND stands last among the open ones of its end, with the SEQ it was sent with and one try; its 100 µs run from
the end of its EOF. -/
theorem State.opened_sendCommand (l : FLink) (i : Issuer) (payload : List Byte) :
    ((s.sendCommand l i payload).lend l .first).opened =
      (s.lend l .first).opened ++
        [⟨(s.lend l .first).txSeq + 1, payload, 1, ((s.sendLink l .first (.command payload)).lend l .first).eofAt l, i⟩] := by
  simp [State.sendCommand, State.lend_sendLink]

theorem State.wire_sendCommand (l : FLink) (i : Issuer) (payload : List Byte) :
    (s.sendCommand l i payload).wire = .link l .first ((s.lend l .first).txSeq + 1) (.command payload) :: s.wire := rfl

/-- R46: a copy of a COMMAND whose answer stands is answered again, and nothing else happens. -/
theorem State.serveCommand_copy {l : FLink} {seq : Byte} {a : List Byte} (h : (s.lend l .second).answerTo s.now seq = some a)
    (run : State → State × List Byte) : s.serveCommand l seq run = s.answerLink l .second seq a := by
  simp [State.serveCommand, h]

/-- R46: a COMMAND that is no copy is executed, answered with its SEQ, and its answer kept. -/
theorem State.serveCommand_new {l : FLink} {seq : Byte} (h : (s.lend l .second).answerTo s.now seq = none)
    (run : State → State × List Byte) :
    s.serveCommand l seq run =
      ((run s).1.answerLink l .second seq (run s).2).modEnd l .second (LinkEnd.keepAnswer s.now seq (run s).2) := by
  simp [State.serveCommand, h]

/-- An answer just kept is the one that stands for its SEQ. -/
theorem LinkEnd.answerTo_keepAnswer (x : LinkEnd) (n : Nat) (seq : Byte) (a : List Byte) :
    (x.keepAnswer n seq a).answerTo n seq = some a := by
  simp [LinkEnd.keepAnswer, LinkEnd.answerTo]

/-! ### Time -/

/-- Time passes to a moment that lies ahead. -/
theorem State.until_of_ahead {t : Nat} (h : s.now ≤ t) : (s.until t).now = t := by simp [h]

/-- A moment that has passed changes nothing. -/
theorem State.until_of_past {t : Nat} (h : t ≤ s.now) : s.until t = s := by
  simp [State.until, Nat.max_eq_left h]

theorem State.until_until (t u : Nat) : (s.until t).until u = s.until (max t u) := by
  simp [State.until, Nat.max_assoc]

end Sys2Proof.Machine
end

