-- ==== Sys2Proof/WellFormed.lean ====
section
/-! DEFINITION. Which commands are well formed: the operands have the lengths and ranges that the tables of the manual
fix. `exec` gives every command a meaning, well formed or not: a term that fails here is a frame of a wrong length, which its
receiver discards or refuses, or operands that no event of the hardware has. -/

namespace Sys2Proof

/-- The fuse image has 256 bytes (Table 11.3). -/
def fuseImageOk (fuses : List Byte) : Bool := fuses.length = 256

/-- A pattern slot has eight step words (R161). -/
def slotStepsOk (steps : List Half) : Bool := steps.length = 8

/-- One reading for each of the twelve channels (R182, R185). -/
def twelveOk (l : List Nat) : Bool := l.length = 12

/-- A REPORT payload has 16 bytes (R179, R231, Table 8.9 and R392). -/
def reportOk (payload : List Byte) : Bool := payload.length = 16

/-- A carried Ethernet frame has 64 to 1,522 bytes with its FCS (R110). -/
def carriedOk (c : CarriedP) : Bool := 64 ≤ c.frame.length && c.frame.length ≤ 1522

/-- MGMT COUNT is a multiple of 4 from 4 to 256; a WRITE request and a READ response carry COUNT bytes of DATA, the other
two none (R87, Table 4.5). -/
def mgmtOk (m : MgmtP) : Bool :=
  4 ≤ m.count.toNat && m.count.toNat ≤ 256 && m.count.toNat % 4 = 0 &&
    m.data.length = if m.op = 0x02 || m.op = 0x81 then m.count.toNat else 0

/-- Twelve channels of sixteen samples of the photodiode current each, one for each slot of the window's chips (R185). -/
def photoOk (photo : List (List Int)) : Bool := photo.length = 12 && photo.all fun l => l.length = 16

/-- Eye-scan counts: 3 or 1 eyes of 127 levels by 64 phases (R80). -/
def eyeCountsOk (counts : List Word) : Bool := counts.length = 24384 || counts.length = 8128

/-- The receiver parameters of a lane lie in the ranges of Table 3.5, the main tap of the FFE is fixed at 1.000, and PAM4 has
three slicer thresholds (R61, R62). -/
def LaneParams.wf (x : LaneParams) : Bool :=
  x.ctle ≤ 18 && x.ffe.length = 12 && x.ffe.getD 3 0 = 256 && (x.ffe.eraseIdx 3).all (fun t => -64 ≤ t && t ≤ 64) &&
    x.dfe ≤ 64 && x.slicers.length = 3

/-- Twelve bytes of channel states (Table 8.8). -/
def MirrorP.wf (m : MirrorP) : Bool := m.ch.length = 12

/-- An address inside the four mailbox slots, on a word (Table 12.10). -/
def slotAddressOk (address : Word) : Bool := 0x1000 ≤ address.toNat && address.toNat ≤ 0x13FC && address.toNat % 4 = 0

/-- The commands whose operands the tables limit; every other command is well formed as it stands. -/
def Instr.wf : Instr → Bool
  | .por _ _ fuses _ => fuseImageOk fuses
  | .slotWrite _ _ _ _ _ steps => slotStepsOk steps
  | .currentSample _ senseUv => twelveOk senseUv
  | .lightWindowClose _ photo => photoOk photo
  | .provingReportReceived _ _ payload => reportOk payload
  | .dieHealthReceived _ _ _ payload => reportOk payload
  | .switchReportReceived _ payload => reportOk payload
  | .killTestReportReceived _ payload => reportOk payload
  | .faultReportReceived _ _ payload => reportOk payload
  | .vinputReceived payload => payload.length = 8
  | .eyeScanDone counts => eyeCountsOk counts
  | .laneParamRefresh _ params => params.wf
  | .mirrorReceived _ m => m.wf
  | .codewordReceived _ symbols => symbols.length = 544
  | .trainingFrameReceived _ ui _ => ui.length = 4096
  | .carriedReceived _ _ c _ => carriedOk c
  | .mgmtRequestReceived _ _ m _ => mgmtOk m
  | .mgmtResponseReceived _ _ m _ => mgmtOk m
  | .thermalTrip sensorsC _ => sensorsC.length = 4
  | .thermalHoldRelease sensorsC => sensorsC.length = 4
  | .regWrite _ _ count _ data => data.length = count.toNat
  | .mbxSlotWrite _ address data => slotAddressOk address && data.length % 4 = 0 && data.length ≠ 0
  | .registerWrite _ address _ => address.toNat % 4 = 0
  | .reservedCmdFrame cmd _ => 3 < cmd.toNat
  | .hostWake cmd _ => cmd.toNat ≤ 3
  | .retentionRewrite area => area < 9
  | _ => true

end Sys2Proof
end

