-- ==== Sys2Proof/Tests/Slice0.lean ====
section
/-! SUPPORT. Tests of one command each on small states: the spec's worked examples, ill-formed commands that WellFormed refuses,
and for every statement of Obligations.lean a state and operands that meet its hypotheses. -/

open Sys2Proof Sys2Proof.Machine

namespace Sys2Proof.Tests

set_option Elab.async false

/-- A link end that runs and stands. -/
def liveEnd : LinkEnd := { LinkEnd.fresh true 0 with lost := false, upSinceStart := true, hbRun := 4 }

def liveEnds : LinkEnds :=
  { cdLa1 := liveEnd, cdLa2 := liveEnd, cdLb1 := liveEnd, cdLb2 := liveEnd, cdRef1 := liveEnd, cdRef2 := liveEnd,
    ldLa1 := liveEnd, ldLa2 := liveEnd, ldLb1 := liveEnd, ldLb2 := liveEnd, refLa1 := liveEnd, refLa2 := liveEnd,
    refLb1 := liveEnd, refLb2 := liveEnd, mirror1 := liveEnd, mirror2 := liveEnd }

def liveLevel (v : Bool) : LevelLink := ⟨some v, v, false, 0, false, some v, 0⟩

/-- Two valid words of one STATE. -/
def twice (v : Bool) : List (BitVec 12) := [levelWord v, levelWord v]

def laneOn : Lane := { Lane.fresh false with st := .up, present := true, frameLock := true, aligned := true, beaconSeen := true }

/-- A node that runs alone: every island released, every link and lane up, LA driving. -/
def node : State :=
  { State.reset with
    now := 5000000000
    ao := { State.reset.ao with reset := ⟨false, 0, 0, 0, false, false, false⟩, fuses := List.replicate 256 0 }
    cd := { State.reset.cd with
      running := true, milestone := 6, runningBank := some false, port := { State.reset.cd.port with pendingReset := false } }
    ld := { State.reset.ld with
      inReset := false, power := .active, timeLa := ⟨true, none, none, 0, 0⟩,
      timeLb := ⟨true, none, none, 0, 0⟩,
      laneFN := laneOn, laneFS := laneOn, laneAN := laneOn, laneAS := laneOn }
    la := { State.reset.la with bootDone := true, grant := true, gate := true, plClosed := true }
    lb := { State.reset.lb with bootDone := true }
    ref := { State.reset.ref with grant := .granted .la }
    ends := liveEnds
    level := ⟨liveLevel true, liveLevel false, liveLevel true, liveLevel false, liveLevel false, liveLevel false⟩ }

def rec1 : AlarmRecord := ⟨1, 3, false, false, false, false, 2, 7, 0, 8, 4999996000⟩

/-- The set of epoch 9: the node is the second of three. -/
def set2 : Commit := ⟨9, 0xA, 3, 2, false, ⟨false, false, false, false⟩, 0xC, 0⟩

/-- The node as the second of three, linked at both ends. -/
def numbered : State :=
  node.modEng fun g => { g with
    commit := some set2, inputsStale := false, inputs := List.replicate 8 0
    fore := { g.fore with verdict := .linked, committed := .linked, row := 5 }
    aft := { g.aft with verdict := .linked, committed := .linked, row := 5 } }

/-- A header from position 1 to position 2 in epoch 9. -/
def hdr12 : LineHdr := ⟨1, 2, 62, 9, 5⟩

def alarm1 : AlarmP := ⟨0xA, false, false, rec1⟩

def beacon1 : BeaconP := ⟨0xA, 1, 4, false, false, 0, 0xF, 0, 0, false, false, false, false⟩

def mgmt1 : MgmtP := ⟨1, 3, 0, 0, 0x20, 4, []⟩

def carried1 (grp : Bool) : CarriedP :=
  ⟨.eth, [if grp then 1 else 2, 0, 0, 0, 0, 7, 2, 0, 0, 0, 0, 9, 0x08, 0x00] ++ List.replicate 50 0⟩

/-- A host frame with the right request CRC. -/
def frame (cmd target unit : Byte) (words : BitVec 6) (a : Word) (data : List Byte) : HostFrame :=
  let f : HostFrame := ⟨target, unit, 0, words, a, data, 0, 0⟩
  { f with crc := crc16 (requestBytes cmd f), bits := 8 * frameLength cmd f }

/-- Slot 1 holds a request of the host that is served next. -/
def asked (op : Half) (payload : List Byte) (s : State) : State :=
  let bytes : Mem := Mem.fill 0 ⟨[]⟩ 0 (be16 op ++ be16 (BitVec.ofNat 16 payload.length) ++ zeros 4 ++ payload)
  { s with cd := { s.cd with
    order := [1], slots := s.cd.slots.set 1 { MbxSlot.free with st := .busy, owner := some .host, bytes := bytes } } }


theorem newCommand_of {l : FLink} {q : Byte} {s : State} (h : (s.lend l .second).answerTo s.now q = none) :
    NewCommand l q s := h

theorem serves_of {n : Fin 4} {op : Half} {s : State}
    (h : s.nextSlot = some n ∧ (s.slot n).opcode = op ∧ (s.slot n).orphaned = false) : Serves n op s := h


/-! ### The worked examples of the manual -/

/-- R312: the check value of the CRC-16. -/
theorem test_crc16_check : crc16 [0x31, 0x32, 0x33, 0x34, 0x35, 0x36, 0x37, 0x38, 0x39] = 0x29B1 := by decide +kernel

/-- R43: the check value of the CRC-32C. -/
theorem test_crc32c_check : crc32c [0x31, 0x32, 0x33, 0x34, 0x35, 0x36, 0x37, 0x38, 0x39] = 0xE3069283 := by
  decide +kernel

/-- R49: the two words of a level link, its sync field, STATE and CRC-4. -/
theorem test_level_words : levelWord true = 0xC98 ∧ levelWord false = 0xC6A := by decide

/-- R10: a train time of 0x0000_0000_0773_5940 is exactly 1,000 train cycles. -/
theorem test_train_time_in_cycles : (0x07735940 : TrainTime).toNat = 1000 * 125000 := by decide

/-- R164: at N = 28,800,000 slot 3 with OFFSET 0 begins its light, and with OFFSET 12,000 it is in its second step. -/
theorem test_phase_of_slot_3 :
    (slotAt defaultSlots[3] 28800000).1 = 0 ∧ (slotAt defaultSlots[3] (28800000 + 12000)).1 = 1 ∧
      slotPeriod defaultSlots[3] = 24000 := by decide +kernel

/-- The bytes of the entry of "raising a tail lamp's current". -/
def tailBytes : List Byte := [0x73, 0x34, 0x06, 0x66, 0x01, 0x1F, 0x10, 0x05, 0x2E, 0xE0, 0x00, 0x80, 0x03, 0, 0, 0]

theorem test_tail_entry :
    entryOf tailBytes =
      ⟨1, true, true, 3, 3, false, true, 0, 0x666, 0x11F, 16, 5, 12000, 128, 3⟩ ∧
    entryBytes (entryOf tailBytes) = tailBytes ∧ entryOk (entryOf tailBytes) = true := by decide +kernel

/-- The first bytes of the fault record of chapter 15, and its DATA. -/
def tailRecord : FaultRec :=
  ⟨0x1A2F, 0x0301, 0, 3, 0x23, 0x0000034630BBD644, 0x1B40, 9, 0x40, 1, [0x02, 0x00, 0x08, 0x00, 0xC5, 0x00]⟩

theorem test_fault_record_bytes :
    faultBody tailRecord =
      [0x00, 0x00, 0x1A, 0x2F, 0x03, 0x01, 0x30, 0x23, 0x00, 0x00, 0x03, 0x46, 0x30, 0xBB, 0xD6, 0x44, 0x1B, 0x40, 0x09,
        0x40, 0x00, 0x01, 0x02, 0x00, 0x08, 0x00, 0xC5, 0x00] := by decide +kernel

/-- R186, R187: with A_OWN 48.0 nA at T_CAL 1,433 and D_CAL 16, the thresholds are 28.8 nA and 33.6 nA. -/
theorem test_light_thresholds :
    (windowOf 28799 1433 16 ⟨48000, 1433, 16, 0⟩).low = true ∧ (windowOf 28800 1433 16 ⟨48000, 1433, 16, 0⟩).low = false ∧
      (windowOf 33599 1433 16 ⟨48000, 1433, 16, 0⟩).ok = false ∧
      (windowOf 33600 1433 16 ⟨48000, 1433, 16, 0⟩).ok = true := by decide

/-- R81: the bounds of a PAM4 scan at 10^6 UI and at 10^8 UI, in ms rounded up. -/
theorem test_scan_bounds : scanBoundMs false 0 = 954 ∧ scanBoundMs false 2 = 95369 := by decide

/-- R240: 9,650 µF at 74.80 V over a floor of 30 V hold 21.974 J. -/
theorem test_energy_available :
    ({ LampDie.fresh.store with cMeas := some 9650, cFresh := true, policy := StorePolicy.standard }.energyAt 74800) / 1000 =
      21973 := by decide +kernel

/-- The pontoon of chapter 9: FREE_END on channels 10 and 11, SIDE with BURST_EN on 0 to 3, 5.5 W each. -/
def pontoon : LampDie :=
  let side : MapEntry := ⟨1, true, false, 7, 3, true, false, 0, 1433, 1433, 16, 0, 0, 128, 3⟩
  let free : MapEntry := ⟨1, true, true, 4, 0, false, false, 0, 1433, 1433, 16, 0, 0, 128, 3⟩
  { LampDie.fresh with
    map := ⟨#[some side, some side, some side, some side, none, none, none, none, none, none, some free, some free], rfl⟩
    reqLit := 0xC0F
    burst := some ⟨8, 0xF, 0, true, ⟨8, [0x4320, 0x0320, 0x4320, 0x0320, 0x4320, 0x0320, 0x4320, 0x0320]⟩, false⟩
    store := { LampDie.fresh.store with
      feedOk := true, k := 1024, policy := { StorePolicy.standard with p := List.replicate 12 5500 } } }

/-- R244: an on cycle of the burst draws 33.0 W, an off cycle 11.0 W, and the charge covers 18.0 W of it. -/
theorem test_burst_cycles :
    pontoon.cycleNj 1024 10 = 33000 * 125 ∧ pontoon.cycleNj 1024 810 = 11000 * 125 ∧
      pontoon.store.chargeNj = 18000 * 125 := by decide +kernel

/-- R242, R249: E_FINAL is 17.75 mJ, and E_RES with LAST_LIGHT_TIME 1.0 s is 12.018 J. -/
theorem test_reserve : pontoon.eFinal = 17750 ∧ pontoon.eRes = 12017750 := by decide +kernel

/-- R140: epochs are compared modulo 2^16, and 0 is never committed. -/
theorem test_epochs : newer16 0x0001 0xFFFF = true ∧ newer16 0x8000 0x0000 = false ∧ epochAfter 0xFFFF = 1 := by decide

/-- R381: a start counter of 64 words goes round and keeps its newest count. -/
theorem test_start_counter :
    counterRead (counterWrite 3 (counterWrite 2 (counterWrite 1 State.reset.cd.nvm.counter))) = 3 := by decide +kernel

/-! ### Line coding -/

/-- R42: the idle pair K28.5 D21.5 in either running disparity. -/
theorem test_idle_pair_codes :
    codesOf false idlePair = [0b0011111010, 0b1010101010] ∧ codesOf true idlePair = [0b1100000101, 0b1010101010] := by
  decide +kernel

/-- A code with a violation carries no symbol, and a frame of a reserved type no frame (R43, R45). -/
theorem test_link_codes :
    symsOf false [0] = none ∧ frameOfCodes .cdLa false (codesOf false (linkSymbols 2 9 [0x77])) = some ⟨2, 9, [0x77]⟩ ∧
      frameOfCodes .cdLa false (codesOf false (linkSymbols 0x55 9 [])) = none := by decide +kernel

/-- R82: one wrong symbol is corrected, and 544 symbols of 0 are a codeword. -/
theorem test_codeword_corrected :
    rsDecode (List.replicate 544 0) = some (List.replicate 544 0, 0) ∧
      rsDecode (0x155 :: List.replicate 543 0) = some (List.replicate 544 0, 1) := by decide +kernel

/-- Table 10.3: a burst of 16 periods is recognised as its own code, and one of three periods is not. -/
theorem test_gust_codes :
    gustOf (gustBurst .active) = some .active ∧ gustOf (gustBurst .lull) = some .lull ∧
      gustOf ((gustBurst .lull).take 15) = none ∧ burstNs (gustBurst .lull) = 8000000 := by decide +kernel

/-- R64: a training frame shows its marker in either polarity, and its words. -/
theorem test_training_words :
    markerSeen (trainingUi 0x0010 0x2040 1).1 = .plain ∧ wordsOf (trainingUi 0x0010 0x2040 1).1 = some (0x0010, 0x2040) ∧
      markerSeen ((trainingUi 0x0010 0x2040 1).1.map (!·)) = .inverse := by decide +kernel

/-! ### Well-formedness: a term that each check refuses -/

theorem test_wf_por : (Instr.por 0 false [0] false).wf = false ∧ (Instr.por 0 false (List.replicate 256 0) false).wf = true := by
  decide +kernel

theorem test_wf_slot_write : (Instr.slotWrite .la 1 1 1 0 [0x4001]).wf = false := by decide

theorem test_wf_twelve : (Instr.currentSample .la [1]).wf = false ∧ (Instr.lightWindowClose .la [[1]]).wf = false := by decide

theorem test_wf_reports :
    (Instr.provingReportReceived .la 1 [0x10]).wf = false ∧ (Instr.dieHealthReceived .la true 1 [0x21]).wf = false ∧
      (Instr.switchReportReceived 1 [0x20]).wf = false ∧ (Instr.killTestReportReceived 1 [0x22]).wf = false ∧
      (Instr.faultReportReceived .la 1 [0x30]).wf = false ∧ (Instr.vinputReceived [1]).wf = false := by decide

theorem test_wf_line :
    (Instr.carriedReceived .foreNear hdr12 ⟨.eth, [1, 2]⟩ true).wf = false ∧ (Instr.codewordReceived .foreNear [0]).wf = false ∧
      (Instr.trainingFrameReceived .foreNear [true] false).wf = false ∧ (Instr.thermalTrip [1] 0).wf = false ∧
      (Instr.thermalHoldRelease [1]).wf = false := by decide

theorem test_wf_mgmt :
    (Instr.mgmtRequestReceived .foreNear hdr12 { mgmt1 with count := 6 } true).wf = false ∧
      (Instr.mgmtResponseReceived .foreNear hdr12 { mgmt1 with op := 0x81, data := [1] } true).wf = false := by decide +kernel

theorem test_wf_eye_and_lane :
    (Instr.eyeScanDone [1, 2]).wf = false ∧
      (Instr.laneParamRefresh .foreNear { (Lane.fresh false).params with ffe := [] }).wf = false := by decide

theorem test_wf_mirror : (Instr.mirrorReceived .la { node.mirrorOf .lb with ch := [] }).wf = false := by decide +kernel

theorem test_wf_addresses :
    (Instr.mbxSlotWrite .host 0x0FFC [1, 2, 3, 4]).wf = false ∧ (Instr.mbxSlotWrite .host 0x1000 [1]).wf = false ∧
      (Instr.registerWrite .host 0x6E 0).wf = false ∧ (Instr.regWrite .la 1 4 0x40 [1]).wf = false ∧
      (Instr.reservedCmdFrame 3 (frame 3 0 0 0 0 [])).wf = false ∧ (Instr.hostWake 4 (frame 4 0 0 0 0 [])).wf = false ∧
      (Instr.retentionRewrite 9).wf = false := by decide +kernel

/-! ### Witnesses: a state and operands that meet the hypotheses of each statement, clause by clause -/

/-- The state a command answers. -/
def nextOf (o : Host.Outcome State Fault Refusal) : State := match o with | .next t => t | _ => State.reset

/-- The node with a retained write waiting in slot 1 and at the front of the queue. -/
def writing : State := { asked 0x181 [0, 8, 4, 0, 1, 2, 3, 4] node with pending := [.retainedWrite] }

theorem writing_steps : step writing = .next (nextOf (step writing)) := by rfl

theorem writing_canonical : MemoriesCanonical writing :=
  ⟨by decide +kernel, by decide +kernel, by decide +kernel, by decide +kernel, (by intro m w h; cases h), by decide +kernel⟩

theorem witness_StepsKeepMemoriesCanonical : ∃ s t, MemoriesCanonical s ∧ step s = .next t :=
  ⟨writing, _, writing_canonical, writing_steps⟩

theorem witness_CommandsLeaveTheQueueAlone :
    (∃ c s t, exec c s = .next t) ∧ ∃ c q s t, s.pending = c :: q ∧ step s = .next t :=
  ⟨⟨.rstNReset 10000, node, nextOf (exec (.rstNReset 10000) node), rfl⟩, ⟨.retainedWrite, [], writing, _, rfl, writing_steps⟩⟩

/-- The node as LA drives it and REF has sent it Withdrawn. -/
def withdrawn : State := node.modLevel .grantA fun x => { x with sent := some false }

theorem withdrawn_steps : exec (.withdrawnTaken .la (twice false)) withdrawn =
    .next (nextOf (exec (.withdrawnTaken .la (twice false)) withdrawn)) := by rfl

theorem node_grants : GrantsFollowRegister node := by
  intro d h; cases d
  · exact .inl rfl
  · exact absurd h (by decide +kernel)

theorem witness_GrantedIsSentToOneDieOnly :
    ∃ s t, GrantsFollowRegister s ∧ (s.lv .grantA).sent = some true ∧ step s = .next t :=
  ⟨{ node with pending := [.killAssertedTaken .lb (twice false)] },
    nextOf (step { node with pending := [.killAssertedTaken .lb (twice false)] }), node_grants, rfl, rfl⟩

theorem witness_LatchedGrantChangesOnlyByItsEvents :
    ∃ c d s t, exec c s = .next t ∧ (State.die t d).grant ≠ (State.die s d).grant :=
  ⟨.withdrawnTaken .la (twice false), .la, withdrawn, _, withdrawn_steps, by decide +kernel⟩

theorem witness_LogicResetsLeaveTheHighVoltageSide :
    (∃ c s t n, exec c s = .next t ∧ c = .rstNReset n) ∧
      (∃ c d s t, exec c s = .next t ∧ (State.die s d).bootDone = true ∧ (State.die t d).bootDone = false) ∧
      ∃ c s t, exec c s = .next t ∧ t.ref.bootAt ≠ s.ref.bootAt :=
  ⟨⟨.rstNReset 10000, node, nextOf (exec (.rstNReset 10000) node), 10000, rfl, rfl⟩,
    ⟨.lampDieResetRelease .la 0, .la, node, nextOf (exec (.lampDieResetRelease .la 0) node), rfl, by decide +kernel⟩,
    ⟨.refReset, node, nextOf (exec .refReset node), rfl, by decide +kernel⟩⟩

/-- The node with a staged block that its host asks to commit. -/
def committing : State :=
  { asked 0x13 [] node with cd := { (asked 0x13 [] node).cd with staging := some (.blank, .host) } }

theorem witness_StagedDataAndResetRequests_commit :
    Serves 1 0x0013 committing ∧ committing.cd.frost = false ∧ committing.draining = false ∧
      (committing.slot 1).payload = [] ∧ (committing.slot 1).len = 0 ∧ committing.staged 1 = some .blank ∧
      committing.cd.nvm.inReset = false :=
  ⟨serves_of (by decide +kernel), by decide +kernel⟩

theorem witness_StepRunsTheFrontCommand :
  (∃ (c : Instr) (s : State), (s.pending = [c])) ∧
  ((node.pending = [])) :=
  ⟨⟨.rstNReset 10000, { node with pending := [.rstNReset 10000] }, by decide +kernel⟩,
    by decide +kernel⟩

theorem witness_HeartbeatCarriesCycleStateAndErrors :
  (((node.lend FLink.cdRef LEnd.second).running = true)) :=
  by decide +kernel

theorem witness_CrossingLatchesItsUnitOrWaits :
  ((node.crossingFenced Crossing.coreToCtl = false) ∧ (Crossing.coreToCtl ≠ Crossing.ctlToHost) ∧ (node.receiverRuns
    Crossing.coreToCtl = true)) ∧
  ((node.crossingFenced (Crossing.laneOut Port.foreNear) = false) ∧ (Crossing.laneOut Port.foreNear ≠
    Crossing.ctlToHost) ∧ (node.receiverRuns (Crossing.laneOut Port.foreNear) = true)) ∧
  (∃ (s : State), (s.crossingFenced Crossing.coreToCtl = false) ∧ (Crossing.coreToCtl ≠ Crossing.ctlToHost) ∧
    (s.receiverRuns Crossing.coreToCtl = false)) ∧
  ((node.crossingFenced Crossing.ctlToHost = false) ∧ (Crossing.ctlToHost = Crossing.ctlToHost) ∧ ((node.crossed
    Crossing.ctlToHost).req = false) ∧ ((node.crossed Crossing.ctlToHost).waiting = [])) :=
  ⟨by decide +kernel,
    by decide +kernel,
    ⟨{ node with cd := { node.cd with running := false }, ao := { node.ao with reset := { node.ao.reset with active := true } } },
      by decide +kernel⟩,
    by decide +kernel⟩

theorem witness_LinksAreLostRestoredAndCounted :
  (((node.lend FLink.refLb LEnd.first).running = true) ∧ ((node.lend FLink.refLb LEnd.first).lost = false)) ∧
  (∃ (s : State), ((s.lend FLink.refLb LEnd.first).running = true) ∧ ((s.lend FLink.refLb LEnd.first).lost = true) ∧
    ((s.lend FLink.refLb LEnd.first).upSinceStart = false) ∧ ((s.lend FLink.refLb LEnd.first).startChecked = false)) ∧
  (((node.lend FLink.refLb LEnd.first).running = true) ∧ ((node.lend FLink.refLb LEnd.first).lost = false) ∧
    ((node.lend FLink.refLb LEnd.first).hbSeen = false)) ∧
  (∃ (s : State), ((s.lend FLink.cdLa LEnd.first).running = true) ∧ ((s.lend FLink.cdLa LEnd.first).lost = true)) ∧
  (∃ (codes : List (BitVec 10)), ((node.lend FLink.cdLa LEnd.first).running = true) ∧ (frameOfCodes FLink.cdLa false
    codes = none) ∧ ((node.lend FLink.cdLa LEnd.first).rxerr ≠ 255)) ∧
  (∃ (codes : List (BitVec 10)) (s : State), ((s.lend FLink.cdLa LEnd.first).running = true) ∧ (frameOfCodes
    FLink.cdLa false codes = none) ∧ ((s.lend FLink.cdLa LEnd.first).rxerr = 255)) ∧
  (∃ (codes : List (BitVec 10)) (f : LinkFrame), (NewCommand FLink.cdLa f.seq node) ∧ (LEnd.second = LEnd.second) ∧
    ((node.lend FLink.cdLa LEnd.second).running = true) ∧ (frameOfCodes FLink.cdLa false codes = some f) ∧ (f.type =
    2) ∧ ((opcodesOf FLink.cdLa).contains (byteAt f.payload 0) = false)) ∧
  (∃ (s : State), ((s.errs.get FLink.cdLa).raised = true)) :=
  ⟨by decide +kernel,
    ⟨node.modEnd .refLb .first fun _ => .fresh true 3, by decide +kernel⟩,
    by decide +kernel,
    ⟨node.modEnd .cdLa .first fun _ => { LinkEnd.fresh true 3 with hbRun := 3 }, by decide +kernel⟩,
    ⟨[0, 0, 0], by decide +kernel⟩,
    ⟨[0, 0, 0], node.modEnd .cdLa .first fun x => { x with rxerr := 0xFF }, by decide +kernel⟩,
    ⟨codesOf false (linkSymbols 2 9 [0x77]), ⟨2, 9, [0x77]⟩, newCommand_of (by decide +kernel), by decide +kernel⟩,
    ⟨node.modErr .cdLa fun x => { x with raised := true }, by decide +kernel⟩⟩

theorem witness_CommandsAreRepeatedAndAnsweredOnce :
  (∃ (seq : Byte) (o : OpenCommand) (s : State), ((s.lend FLink.cdLa LEnd.first).running = true) ∧ (List.find?
    (OpenCommand.hasSeq seq) (s.lend FLink.cdLa LEnd.first).opened = some o) ∧ (o.tries < 3)) ∧
  (∃ (seq : Byte) (o : OpenCommand) (s : State), ((s.lend FLink.cdLa LEnd.first).running = true) ∧ (List.find?
    (OpenCommand.hasSeq seq) (s.lend FLink.cdLa LEnd.first).opened = some o) ∧ (3 ≤ o.tries) ∧ (o.issuer =
    Issuer.commit ∨ o.issuer = Issuer.plain)) ∧
  (∃ (seq : Byte) (payload : List Byte) (o : OpenCommand) (s : State), ((s.lend HvDie.ref.cdLink LEnd.first).running
    = true) ∧ (List.find? (OpenCommand.hasSeq seq) (s.lend HvDie.ref.cdLink LEnd.first).opened = some o) ∧ (o.issuer
    = Issuer.plain) ∧ (2 ≤ payload.length)) ∧
  (∃ (q : Byte) (s : State), ((s.lend Die.la.cdLink LEnd.second).running = true) ∧ ((s.die Die.la).unacked = some
    (rec1, q))) ∧
  (∃ (seq : Byte) (a : List Byte) (s : State) (i : Instr), ((∃ id, i = Instr.lampIdentity Die.la seq id) ∨ (∃ c f e,
    i = Instr.mapWrite Die.la seq c f e) ∨ (∃ c, i = Instr.mapRead Die.la seq c) ∨ (∃ n k f l, i = Instr.slotWrite
    Die.la seq n k f l) ∨ (∃ n, i = Instr.slotRead Die.la seq n) ∨ (∃ m f ep, i = Instr.stateCmd Die.la seq m f ep)
    ∨ (∃ b f, i = Instr.scene Die.la seq b f) ∨ (∃ n c m, i = Instr.lampBurst Die.la seq n c m) ∨ i = Instr.status
    Die.la seq ∨ (∃ k w, i = Instr.regRead Die.la.hv seq k w) ∨ ∃ k w l, i = Instr.regWrite Die.la.hv seq k w l) ∧
    ((s.die Die.la).powered = true) ∧ (LinkEnd.answerTo s.now seq (s.lend Die.la.cdLink LEnd.second) = some a)) ∧
  (∃ (seq : Byte) (a : List Byte) (s : State) (i : Instr), ((∃ b, i = Instr.refConfig seq b) ∨ i = Instr.refStatus
    seq ∨ (∃ b, i = Instr.switch seq b) ∨ (∃ b, i = Instr.refKillRelease seq b) ∨ (∃ b, i = Instr.refKillTest seq b)
    ∨ (∃ b m, i = Instr.refPathClear seq b m) ∨ (∃ k w, i = Instr.regRead HvDie.ref seq k w) ∨ ∃ k w l, i =
    Instr.regWrite HvDie.ref seq k w l) ∧ ((s.lend FLink.cdRef LEnd.second).running = true) ∧ (LinkEnd.answerTo
    s.now seq (s.lend FLink.cdRef LEnd.second) = some a)) :=
  ⟨⟨9, ⟨9, [0x40], 2, 50, .plain⟩, node.modEnd .cdLa .first fun x =>
      { x with opened := [⟨8, [], 1, 0, .plain⟩, ⟨9, [0x40], 2, 50, .plain⟩] }, by decide +kernel⟩,
    ⟨9, ⟨9, [0x40], 3, 50, .plain⟩, node.modEnd .cdLa .first fun x =>
      { x with opened := [⟨9, [0x40], 3, 50, .plain⟩] }, by decide +kernel⟩,
    ⟨9, [0x50, 0], ⟨9, [0x50, 0], 1, 50, .plain⟩, node.modEnd .cdRef .first fun x =>
      { x with opened := [⟨9, [0x50, 0], 1, 50, .plain⟩] }, by decide +kernel⟩,
    ⟨9, node.modDie .la fun x => { x with unacked := some (rec1, 9) }, by decide +kernel⟩,
    ⟨3, [1, 2], node.modEnd .cdLa .second fun x => { x with served := [⟨3, [1, 2], 4999999000⟩] }, .lampBurst .la 3
      2 7 8, by simp, by decide +kernel⟩,
    ⟨3, [1, 2], node.modEnd .cdRef .second fun x => { x with served := [⟨3, [1, 2], 4999999000⟩] }, .refKillTest 3
      1, by simp, by decide +kernel⟩⟩

theorem witness_SilentLevelLinkReadsAsTableSays :
  (((node.lv LLink.grantA).silent = false)) :=
  by decide +kernel

theorem witness_LaneBringUpFollowsItsTable :
  (∃ (s : State), ((s.lane Port.foreNear).st = LaneState.detect) ∧ ((s.lane Port.foreNear).present = true)) ∧
  (∃ (s : State), ((s.lane Port.aftSkip).st = LaneState.acquire)) ∧
  (∃ (s : State), ((s.lane Port.foreNear).st = LaneState.train) ∧ ((s.lane Port.foreNear).rxReady = true) ∧ ((s.lane
    Port.foreNear).farRxReady = true)) ∧
  (∃ (s : State), ((s.lane Port.foreNear).st = LaneState.train)) ∧
  (∃ (s : State), ((s.lane Port.foreNear).st = LaneState.verdict)) ∧
  (∃ (s : State), ((s.lane Port.foreNear).st = LaneState.verdict) ∧ ((s.lane Port.foreNear).trialOk = true) ∧
    ((s.lane Port.foreNear).farConf = true) ∧ ((s.lane Port.foreNear).farOk = true)) ∧
  (∃ (s : State), ((s.lane Port.foreNear).st = LaneState.failed)) ∧
  (∃ (s : State), ((s.lane Port.foreNear).st = LaneState.trial)) ∧
  (∃ (s : State), ((s.lane Port.foreNear).st = LaneState.trial)) ∧
  (∃ (s : State), ((s.lane Port.foreNear).st = LaneState.trial)) ∧
  (∃ (s : State), ((s.lane Port.foreNear).st = LaneState.trial)) :=
  ⟨⟨node.modLane .foreNear fun x => { x with st := .detect }, by decide +kernel⟩,
    ⟨node.modLane .aftSkip fun x => { x with st := .acquire, failures := 7 }, by decide +kernel⟩,
    ⟨node.modLane .foreNear fun x => { x with st := .train, rxReady := true, farRxReady := true },
      by decide +kernel⟩,
    ⟨node.modLane .foreNear fun x => { x with st := .train }, by decide +kernel⟩,
    ⟨node.modLane .foreNear fun x => { x with st := .verdict }, by decide +kernel⟩,
    ⟨node.modLane .foreNear fun x => { x with st := .verdict, trialOk := true, farConf := true, farOk := true },
      by decide +kernel⟩,
    ⟨node.modLane .foreNear fun x => { x with st := .failed, failures := 8 }, by decide +kernel⟩,
    ⟨node.modLane .foreNear fun x => { x with st := .trial, enteredAt := 4999000000 }, by decide +kernel⟩,
    ⟨node.modLane .foreNear fun x => { x with st := .trial, enteredAt := 4999000000 }, by decide +kernel⟩,
    ⟨node.modLane .foreNear fun x => { x with st := .trial, enteredAt := 5000000000 }, by decide +kernel⟩,
    ⟨node.modLane .foreNear fun x => { x with st := .trial }, by decide +kernel⟩⟩

theorem witness_InterruptedLanesAndTrainingMarkers :
  ((node.laneUp Port.foreNear = true)) ∧
  ((node.laneUp Port.foreNear = true) ∧ ((node.lane Port.foreNear).st = LaneState.up) ∧ ((node.lane
    Port.foreNear).present = true)) ∧
  (∃ (s : State), ((s.lane Port.foreNear).st = LaneState.blink) ∧ ((s.lane Port.foreNear).present = true) ∧ ((s.lane
    Port.foreNear).aligned = true) ∧ (s.now < (s.lane Port.foreNear).blinkAt + 2000000) ∧ (s.now ≤ (s.lane
    Port.foreNear).blinkEnd)) ∧
  (∃ (s : State), ((s.lane Port.foreNear).st = LaneState.blink)) ∧
  (∃ (ui : List Bool) (s : State) (control : Half) (status : Half), ((s.lane Port.foreNear).st = LaneState.train) ∧
    ((s.lane Port.foreNear).frameLock = true) ∧ (markerSeen ui ≠ MarkerSeen.missed) ∧ (wordsOf (upright ui) = some
    (control, status)) ∧ (ctlOk control = true)) ∧
  (∃ (ui : List Bool) (s : State) (control : Half) (status : Half), ((s.lane Port.foreNear).st = LaneState.train) ∧
    ((s.lane Port.foreNear).frameLock = true) ∧ (markerSeen ui ≠ MarkerSeen.missed) ∧ (wordsOf (upright ui) = some
    (control, status)) ∧ (ctlOk control = true)) ∧
  (∃ (s : State), ((s.lane Port.foreNear).st = LaneState.train) ∧ (markerSeen [] = MarkerSeen.missed)) ∧
  (∃ (ui : List Bool) (s : State), ((s.lane Port.foreNear).st = LaneState.up ∨ (s.lane Port.foreNear).st =
    LaneState.blink) ∧ (markerSeen ui ≠ MarkerSeen.missed)) ∧
  (∃ (ui : List Bool) (s : State), ((s.lane Port.foreNear).st = LaneState.up ∨ (s.lane Port.foreNear).st =
    LaneState.blink) ∧ (markerSeen ui ≠ MarkerSeen.missed)) ∧
  (∃ (s : State), ((s.lane Port.foreNear).st = LaneState.up ∨ (s.lane Port.foreNear).st = LaneState.blink) ∧
    (markerSeen [] = MarkerSeen.missed)) :=
  ⟨by decide +kernel,
    by decide +kernel,
    ⟨node.modLane .foreNear fun x => { x with st := .blink, blinkAt := node.now, backAt := node.now },
      by decide +kernel⟩,
    ⟨node.modLane .foreNear fun x => { x with st := .blink }, by decide +kernel⟩,
    ⟨(trainingUi 0 0 1).1, node.modLane .foreNear fun x => { x with st := .train }, 0, 0, by decide +kernel⟩,
    ⟨(trainingUi 0x0010 0 1).1.map (!·), node.modLane .foreNear fun x =>
      { x with st := .train, ctlSeen := 0x0010, ctlRun := 2 }, 0x0010, 0, by decide +kernel⟩,
    ⟨node.modLane .foreNear fun x => { x with st := .train }, by decide +kernel⟩,
    ⟨(trainingUi 0x8000 0 1).1, node.modLane .foreNear fun x => { x with markers := 7 }, by decide +kernel⟩,
    ⟨(trainingUi 0x8000 0 1).1, node.modLane .foreNear fun x => { x with st := .blink, markers := 6 },
      by decide +kernel⟩,
    ⟨node.modLane .foreNear fun x => { x with markers := 7 }, by decide +kernel⟩⟩

theorem witness_CodewordsAndLaneBooksAreKept :
  (∃ (x : LaneParams), (node.laneUp Port.foreNear = true) ∧ (paramsOk x = true)) ∧
  (∃ (s : State), (s.ld.eye.st = 1)) ∧
  (∃ (symbols : List (BitVec 10)) (d : Decoded), (node.laneUp Port.foreNear = true) ∧ (decodeCodeword (node.port
    Port.foreNear).rx.dscr symbols = some d) ∧ ((node.lane Port.foreNear).badCodewords < 7) ∧ ((assemble
    { bytes := (node.port Port.foreNear).rx.bytes, skip := (node.port Port.foreNear).rx.skip } d.ins d.fptr
    d.payload).1 = [])) ∧
  (∃ (symbols : List (BitVec 10)), (node.laneUp Port.foreNear = true) ∧ (decodeCodeword (node.port
    Port.foreNear).rx.dscr symbols = none) ∧ ((node.lane Port.foreNear).badCodewords < 7)) ∧
  (∃ (symbols : List (BitVec 10)) (s : State), (s.laneUp Port.foreNear = true) ∧ (decodeCodeword (s.port
    Port.foreNear).rx.dscr symbols = none) ∧ (7 ≤ (s.lane Port.foreNear).badCodewords)) :=
  ⟨⟨⟨4, [0, 0, 0, 256, 1, 2, -64, 64, 0, 0, 0, 5], 64, [-100, 0, 100], 3⟩, by decide +kernel⟩,
    ⟨node.modLd fun x => { x with eye := { x.eye with st := 1 } }, by decide +kernel⟩,
    ⟨List.replicate 544 0, (decodeCodeword 0 (List.replicate 544 0)).get (by decide +kernel), by decide +kernel⟩,
    ⟨[], by decide +kernel⟩,
    ⟨[], node.modLane .foreNear fun x => { x with badCodewords := 7 }, by decide +kernel⟩⟩

theorem witness_AlarmsTravelAndAreRepeated :
  (∃ (q : Byte) (s : State), ((s.die Die.la).powered = true) ∧ ((s.die Die.la).unacked = some (rec1, q)) ∧ ((s.die
    Die.la).insertedAt < (s.die Die.la).clock.boundaryAt)) ∧
  (∃ (seq : Byte) (s : State), ((s.lend Die.la.cdLink LEnd.first).running = true) ∧ ((s.lend Die.la.cdLink
    LEnd.first).alarmSeqSeen = some seq)) ∧
  (∃ (seq : Byte), ((node.lend Die.la.cdLink LEnd.first).running = true) ∧ ((node.lend Die.la.cdLink
    LEnd.first).alarmSeqSeen ≠ some seq) ∧ (node.ld.inReset = false) ∧ (BitVec.toNat node.trainTime - BitVec.toNat
    rec1.tt + (BitVec.toNat rec1.tt - BitVec.toNat node.trainTime) ≤ 5000) ∧ (laterRecord node.ld.ownRecord rec1 =
    true)) ∧
  (∃ (s : State), (s.laneUp Port.foreNear = true) ∧ (s.seenKey (floodKey
    { hdr := hdr12, body := LineBody.alarm { srcId := alarm1.srcId, isRepeat := alarm1.isRepeat, beaconCopy := false, record := alarm1.record } }
    s.now) = true)) ∧
  ((numbered.laneUp Port.foreNear = true) ∧ (numbered.seenKey (floodKey
    { hdr := hdr12, body := LineBody.alarm { srcId := alarm1.srcId, isRepeat := alarm1.isRepeat, beaconCopy := false, record := alarm1.record } }
    numbered.now) = false) ∧ (1 < BitVec.toNat hdr12.ttl)) ∧
  (∃ (s : State), (s.ld.ownRecord = some rec1) ∧ (rec1.darkMask ≠ 0) ∧ (s.ldRuns = true)) ∧
  (∃ (id : NodeId) (e : AlarmEntry) (s : State), (List.find? (fun e => decide (e.srcId = id)) s.ld.alarms = some e)) ∧
  (∃ (f : LineFrame) (s : State), ((s.port Port.foreNear).alarmSlot = some f) ∧ (s.alarmPort Port.foreNear = true)) :=
  ⟨⟨9, node.modDie .la fun x =>
      { x with unacked := some (rec1, 9), insertedAt := 4999875000, clock := { x.clock with boundaryAt := 5000000000 } },
      by decide +kernel⟩,
    ⟨9, node.modEnd .cdLa .first fun x => { x with alarmSeqSeen := some 9 }, by decide +kernel⟩,
    ⟨9, by decide +kernel⟩,
    ⟨node.addKey (floodKey ⟨hdr12, .alarm alarm1⟩ node.now), by decide +kernel⟩,
    by decide +kernel,
    ⟨node.modLd fun x => { x with ownRecord := some rec1 }, by decide +kernel⟩,
    ⟨0xA, ⟨0xA, rec1, 1, 2, false⟩, node.modLd fun x => { x with alarms := [⟨0xA, rec1, 1, 2, false⟩] },
      by decide +kernel⟩,
    ⟨⟨hdr12, .alarm alarm1⟩, node.modPort .foreNear fun x => { x with alarmSlot := some ⟨hdr12, .alarm alarm1⟩ },
      by decide +kernel⟩⟩

theorem witness_BeaconsKeysAndCreditsAreKept :
  (∃ (k : FloodKey) (s : State), (s.ld.flood = [k])) ∧
  ((node.laneUp Port.foreNear = true)) ∧
  ((node.laneUp Port.foreNear = true)) ∧
  ((numbered.laneUp Port.foreNear = true)) :=
  ⟨⟨⟨1, 2, 3, 4⟩, node.modLd fun x => { x with flood := [⟨1, 2, 3, 4⟩] }, by decide +kernel⟩,
    by decide +kernel,
    by decide +kernel,
    by decide +kernel⟩

theorem witness_TransmissionAndPortFencing :
  ((numbered.laneUp Port.foreNear = true) ∧ ((numbered.port Port.foreNear).control = [] ∧ numbered.nextPooled
    Port.foreNear = none ∨ (numbered.port Port.foreNear).cutThrough.isSome = true)) ∧
  (∃ (s : State), (s.ld.inReset = false) ∧ ((s.port Port.foreNear).serHigh = false) ∧ ((s.port
    Port.foreNear).wholeUp = true) ∧ (s.laneUp Port.foreNear = true) ∧ ((s.port Port.foreNear).errRose = false)) ∧
  (∃ (s : State), (s.ld.inReset = false) ∧ (10000 * (s.port Port.foreNear).cycCorr > (s.port Port.foreNear).cycSym)
    ∧ (s.laneUp Port.foreNear = true)) ∧
  (∃ (s : State) (f : LineFrame), ((∃ b, f.body = LineBody.beacon b) ∨ (s.carries Port.foreNear = true ∧ isCredit f
    = false ∧ ∀ (x : TimeP), f.body ≠ LineBody.time x) ∨ isCredit f = true ∧ (s.port Port.foreNear).creditCw = none)
    ∧ (s.laneUp Port.foreNear = true) ∧ ((s.port Port.foreNear).control = [f]) ∧ ((s.port Port.foreNear).cutThrough
    = none)) ∧
  (∃ (s : State) (f : LineFrame), ((∃ b, f.body = LineBody.beacon b) ∨ (s.carries Port.foreNear = true ∧ isCredit f
    = false ∧ ∀ (x : TimeP), f.body ≠ LineBody.time x) ∨ isCredit f = true ∧ (s.port Port.foreNear).creditCw = none)
    ∧ (s.laneUp Port.foreNear = true) ∧ ((s.port Port.foreNear).control = [f]) ∧ ((s.port Port.foreNear).cutThrough
    = none)) ∧
  (∃ (s : State) (f : LineFrame) (x : TimeP), (s.laneUp Port.foreNear = true) ∧ ((s.port Port.foreNear).control =
    [f]) ∧ (f.body = LineBody.time x) ∧ ((s.port Port.foreNear).cutThrough = none) ∧ (s.carries Port.foreNear =
    true)) ∧
  (∃ (s : State) (x : TxQueue × Option Transit × LineFrame), (s.laneUp Port.foreNear = true) ∧ ((s.port
    Port.foreNear).control = []) ∧ ((s.port Port.foreNear).cutThrough = none) ∧ (s.nextPooled Port.foreNear = some
    x)) :=
  ⟨by decide +kernel,
    ⟨numbered.modPort .foreNear fun x => { x with wholeUp := true, cleanRun := 15, errcnt := 5 }, by decide +kernel⟩,
    ⟨numbered.modPort .foreNear fun x => { x with errcnt := 254, cycCorr := 1, cycSym := 9999 }, by decide +kernel⟩,
    ⟨numbered.modPort .foreNear fun x => { x with control := [⟨hdr12, .credit ⟨1, 2, 3, 4⟩⟩] }, ⟨hdr12, .credit ⟨1,
      2, 3, 4⟩⟩, .inr (.inr (by decide +kernel)), by decide +kernel⟩,
    ⟨numbered.modPort .foreNear fun x => { x with control := [⟨hdr12, .beacon beacon1⟩] }, ⟨hdr12, .beacon beacon1⟩,
      .inl ⟨beacon1, rfl⟩, by decide +kernel⟩,
    ⟨numbered.modPort .foreNear fun x =>
      { x with control := [⟨hdr12, .time ⟨5000, 3, false, false, true, false, 0, 0, 0⟩⟩] }, ⟨hdr12, .time ⟨5000, 3,
      false, false, true, false, 0, 0, 0⟩⟩, ⟨5000, 3, false, false, true, false, 0, 0, 0⟩, by decide +kernel⟩,
    ⟨numbered.modPort .foreNear fun x => { x with localMgmt := [⟨hdr12, .mgmt mgmt1⟩], creditSeen := true },
      (.localMgmt, none, ⟨hdr12, .mgmt mgmt1⟩), by decide +kernel⟩⟩

theorem witness_LocalAndAddressedFramesReachTheirPlace :
  ((numbered.ifaceSet LocalIf.eth = true) ∧ (numbered.ifaceFenced LocalIf.eth = false) ∧ (64 ≤ (carried1
    true).frame.length) ∧ ((carried1 true).frame.length ≤ 1522) ∧ (half (carried1 true).frame 12 ≠ 34824) ∧
    (numbered.ingressBytes LocalIf.eth + (carried1 true).frame.length ≤ 32768) ∧ (isGroup (carried1 true).frame =
    true)) ∧
  (∃ (frame : List Byte), (numbered.ifaceSet LocalIf.eth = true) ∧ (numbered.ifaceFenced LocalIf.eth = false) ∧
    (1522 < frame.length)) ∧
  (∃ (frame : List Byte), (numbered.ifaceSet LocalIf.eth = true) ∧ (numbered.ifaceFenced LocalIf.eth = false) ∧
    (frame.length ≤ 1522)) ∧
  (∃ (frame : List Byte), (numbered.ifaceSet LocalIf.eth = true) ∧ (numbered.ifaceFenced LocalIf.eth = false) ∧ (64
    ≤ frame.length) ∧ (frame.length ≤ 1522) ∧ (half frame 12 = 34824)) ∧
  (∃ (s : State), (s.carries Port.foreNear = true) ∧ (hdr12.epoch = s.epoch) ∧ (s.position ≠ 0) ∧ (hdr12.dst =
    s.position) ∧ (isGroup (carried1 false).frame = false) ∧ (s.ifaceOn LocalIf.eth = true) ∧ (id48 (carried1
    false).frame 6 ≠ id48 (carried1 false).frame 0) ∧ ((s.port Port.foreNear).rx.inCut = none) ∧ (s.egressBytes
    LocalIf.eth + (carried1 false).frame.length ≤ 32768) ∧ (s.lookupMac (id48 (carried1 false).frame 0) = some
    (MacWhere.iface LocalIf.eth))) ∧
  (∃ (h : LineHdr), (numbered.carries Port.foreNear = true) ∧ (h.epoch = numbered.epoch) ∧ (numbered.position ≠ 0) ∧
    (h.dst ≠ numbered.position) ∧ (h.dst ≠ 0) ∧ ((numbered.port Port.foreNear).rx.inCut = none) ∧ (numbered.route
    h.dst = some Port.aftNear) ∧ (1 < BitVec.toNat h.ttl)) ∧
  ((numbered.carries Port.foreNear = true) ∧ (hdr12.epoch = numbered.epoch) ∧ (numbered.position ≠ 0) ∧ (hdr12.dst =
    numbered.position) ∧ ((numbered.port Port.foreNear).rx.inCut = none)) ∧
  (∃ (mac : NodeId) (e : MacEntry) (s : State), (List.find? (fun e => decide (e.mac = mac)) s.ld.mac = some e)) :=
  ⟨by decide +kernel,
    ⟨List.replicate 1523 0, by decide +kernel⟩,
    ⟨List.replicate 64 0, by decide +kernel⟩,
    ⟨List.replicate 12 0 ++ [0x88, 8] ++ List.replicate 50 0, by decide +kernel⟩,
    ⟨numbered.modLd fun x => { x with mac := [⟨0x020000000007, 5, .iface .eth⟩], localCfg := [1, 0, 0, 0] },
      by decide +kernel⟩,
    ⟨{ hdr12 with dst := 3 }, by decide +kernel⟩,
    by decide +kernel,
    ⟨7, ⟨7, 5, .iface .eth⟩, numbered.modLd fun x => { x with mac := [⟨7, 5, .iface .eth⟩] }, by decide +kernel⟩⟩

theorem witness_TrainTimeIsSentAndFollowed :
  ((node.timeRuns Die.la = true)) ∧
  (((node.die Die.la).powered = true) ∧ ((node.lend Die.la.timeLink LEnd.second).running = true)) ∧
  (∃ (s : State), (s.ld.clock.stepBy = some 70000)) ∧
  ((numbered.ldRuns = true)) ∧
  ((numbered.laneUp Port.aftNear = true)) ∧
  (∃ (s : State), (s.ldRuns = true) ∧ (s.ld.clock.holdover = false) ∧ (s.ld.clock.followed = true) ∧ (s.position ≠
    1)) ∧
  (∃ (s : State) (turn : Word) (elapsed : Word), (s.timeRuns Die.la = true) ∧ ((s.ld.timeLink Die.la).askedAt = some
    4999999000) ∧ (s.now ≤ 4999999000 + BitVec.toNat elapsed + frameNs Die.la.timeLink 16) ∧ (BitVec.toNat turn ≤
    BitVec.toNat elapsed)) ∧
  ((numbered.carries Port.foreNear = true) ∧ (numbered.commit?.isSome = true → hdr12.epoch = numbered.epoch)) ∧
  ((node.carries Port.foreNear = true) ∧ (node.commit?.isSome = true → hdr12.epoch = node.epoch)) :=
  ⟨by decide +kernel,
    by decide +kernel,
    ⟨numbered.modLd fun x => { x with clock := { x.clock with stepBy := some 70000 } }, by decide +kernel⟩,
    by decide +kernel,
    by decide +kernel,
    ⟨numbered.modLd fun x => { x with clock := { x.clock with followed := true } }, by decide +kernel⟩,
    ⟨node.modTime .la fun x => { x with askedAt := some 4999999000 }, 100, 3000, by decide +kernel⟩,
    by decide +kernel,
    by decide +kernel⟩

theorem witness_VehicleInputsAreFilteredAndSent :
  (∃ (f : InputFilter), (f.cls ≠ InputClass.active) ∧ (f.sinceSteady < 1999)) ∧
  (∃ (f : InputFilter), (f.cls ≠ InputClass.active) ∧ (1999 ≤ f.sinceSteady)) ∧
  (∃ (payload : List Byte), ((numbered.lend FLink.cdRef LEnd.first).running = true) ∧ (numbered.ld.inReset = false)
    ∧ (vinputOk payload = true)) ∧
  (∃ (payload : List Byte), ((numbered.lend FLink.cdRef LEnd.first).running = true) ∧ (numbered.ld.inReset = false)
    ∧ (vinputOk payload = false)) ∧
  ((numbered.ldRuns = true) ∧ (numbered.ld.engine.inputsStale = false)) :=
  ⟨⟨⟨0, .inactive, 3, 1998⟩, by decide +kernel⟩,
    ⟨⟨0, .inactive, 3, 1999⟩, by decide +kernel⟩,
    ⟨[0, 0, 0, 1, 0, 1, 0, 0], by decide +kernel⟩,
    ⟨[0xFF, 0xFF, 0, 1, 0, 1, 0, 0], by decide +kernel⟩,
    by decide +kernel⟩

theorem witness_VerdictsSettleAndBeaconsGoOut :
  (∃ (s : State), ((s.vend VEnd.fore).row = 4 ∨ (s.vend VEnd.fore).row = 6) ∧ ((s.vend VEnd.fore).rowExpired =
    false) ∧ (s.verdictRow VEnd.fore = (s.vend VEnd.fore).row)) ∧
  (((State.reset.vend VEnd.fore).row = 8 ∨ (State.reset.vend VEnd.fore).row = 9) ∧ ((State.reset.vend
    VEnd.fore).rowExpired = false) ∧ (State.reset.verdictRow VEnd.fore = (State.reset.vend VEnd.fore).row) ∧
    ((State.reset.vend VEnd.fore).lostSince (State.reset.vend VEnd.fore).row = none)) ∧
  (∃ (s : State), ((s.vend VEnd.fore).fencedAt = some 4000000000) ∧ (s.shut VEnd.fore.near = true) ∧ ((s.vend
    VEnd.fore).fencedLong = false) ∧ ((s.vend VEnd.fore).cut = false)) ∧
  ((numbered.ldRuns = true)) ∧
  (∃ (id : NodeId) (b : BeaconEntry) (s : State), (List.find? (fun b => decide (b.beacon.nodeId = id))
    s.ld.engine.beacons = some b)) :=
  ⟨⟨node.modVend .fore fun v => { v with row := 4 }, by decide +kernel⟩,
    by decide +kernel,
    ⟨(numbered.modPort .foreNear fun x => { x with fenced := true }).modVend .fore fun v =>
      { v with fencedAt := some 4000000000 }, by decide +kernel⟩,
    by decide +kernel,
    ⟨0xA, ⟨beacon1, 5, .foreNear⟩, numbered.modEng fun x => { x with beacons := [⟨beacon1, 5, .foreNear⟩] },
      by decide +kernel⟩⟩

theorem witness_CallsAndFrontsRunTheRound :
  (∃ (s : State), (s.ldRuns = true) ∧ (s.ld.power ≠ PowerState.draining) ∧ (s.ld.engine.round = Round.idle) ∧
    (s.wantsCall = true) ∧ (s.endNode = false) ∧ (s.ld.engine.lastCallAt = some 8)) ∧
  (∃ (f : FrontP), (numbered.carries Port.foreNear = true) ∧ (f.leadId = 0) ∧ (numbered.endNode = false) ∧
    (numbered.ld.engine.round = Round.idle)) ∧
  (∃ (s : State), (s.ld.engine.round = Round.called)) ∧
  (∃ (s : State), (s.ld.engine.round = Round.held ∨ s.ld.engine.round = Round.launched ∨ s.ld.engine.round =
    Round.tailed)) ∧
  (∃ (s : State), (s.ldRuns = true) ∧ (s.ld.engine.launchDeferred = true) ∧ (s.ld.engine.lastLaunchAt = some 5) ∧
    (s.endNode = true) ∧ (s.ld.engine.round = Round.idle) ∧ (s.ld.power ≠ PowerState.draining)) ∧
  (∃ (f : FrontP) (c : Instr), (numbered.carries Port.foreNear = true) ∧ (f.leadId ≠ 0) ∧ (c = Instr.frontReceived
    Port.foreNear hdr12 f ∧ f.nextPos ≠ 0 ∨ c = Instr.cutReceived Port.foreNear hdr12 f ∧ f.nextPos = 0) ∧
    (frontWellSent Port.foreNear f = false ∨ numbered.loses f = true)) ∧
  (∃ (f : FrontP) (c : Instr) (s : State), (s.carries Port.foreNear = true) ∧ (f.leadId ≠ 0) ∧ (c =
    Instr.frontReceived Port.foreNear hdr12 f ∧ f.nextPos ≠ 0 ∨ c = Instr.cutReceived Port.foreNear hdr12 f ∧
    f.nextPos = 0) ∧ (frontWellSent Port.foreNear f = true) ∧ (s.loses f = false) ∧ (s.ld.engine.round =
    Round.switching) ∧ (s.ld.engine.waitingFront = none)) ∧
  (∃ (f : FrontP), (numbered.carries Port.foreNear = true) ∧ (f.leadId ≠ 0) ∧ (f.nextPos ≠ 0) ∧ (frontWellSent
    Port.foreNear f = true) ∧ (numbered.ld.engine.round = Round.idle) ∧ (numbered.ld.engine.heldRound = none) ∧
    (numbered.terminal Port.foreNear.vend.other = false) ∧ (numbered.laneOf Port.foreNear.vend.other = some
    Port.aftNear) ∧ (f.flags.noCab = numbered.noCab) ∧ (onward f Port.aftNear ≤ 63)) ∧
  (∃ (f : FrontP), (numbered.carries Port.foreNear = true) ∧ (f.leadId ≠ 0) ∧ (f.nextPos = 0) ∧ (frontWellSent
    Port.foreNear f = true) ∧ (numbered.loses f = false) ∧ (numbered.ld.engine.round ≠ Round.switching)) :=
  ⟨⟨(numbered.modEng fun g => { g with committedCab := true, lastCallAt := some 8 }), by decide +kernel⟩,
    ⟨{ callFront numbered .foreNear with leadId := 0 }, by decide +kernel⟩,
    ⟨numbered.modEng fun g => { g with round := .called }, by decide +kernel⟩,
    ⟨numbered.modEng fun g => { g with round := .launched }, by decide +kernel⟩,
    ⟨(numbered.modEng fun g =>
      { g with launchDeferred := true, lastLaunchAt := some 5, aft := { g.aft with committed := .open_, verdict := .open_ } }),
      by decide +kernel⟩,
    ⟨⟨0xA, 12, 2, ⟨false, false, false, false⟩, 0xA, true, true, 1, 0⟩, .frontReceived .foreNear hdr12 ⟨0xA, 12, 2,
      ⟨false, false, false, false⟩, 0xA, true, true, 1, 0⟩, by decide +kernel⟩,
    ⟨⟨0xA, 12, 2, ⟨false, false, false, false⟩, 0xA, true, false, 1, 0⟩, .frontReceived .foreNear hdr12 ⟨0xA, 12, 2,
      ⟨false, false, false, false⟩, 0xA, true, false, 1, 0⟩, numbered.modEng fun g =>
      { g with round := .switching }, by decide +kernel⟩,
    ⟨⟨0xA, 12, 2, ⟨false, false, false, false⟩, 0xA, true, false, 1, 0⟩, by decide +kernel⟩,
    ⟨⟨0xA, 12, 0, ⟨false, false, false, false⟩, 0xA, true, false, 1, 0⟩, by decide +kernel⟩⟩

theorem witness_CommitsSweepAndTakeEffectAsOneStep :
  (∃ (c : CommitP) (r : HeldRound) (s : State), (s.carries Port.aftNear = true) ∧ (s.ld.engine.heldRound = some r) ∧
    (c.phase1 = false) ∧ (r.tailPort = some Port.aftNear) ∧ (r.leadId = c.leadId) ∧ (s.ld.engine.round = Round.held)
    ∧ (r.headPort = some Port.foreNear) ∧ (s.carries Port.foreNear = true)) ∧
  (∃ (c : CommitP) (r : HeldRound) (s : State), (s.carries Port.aftNear = true) ∧ (s.ld.engine.heldRound = some r) ∧
    (c.phase1 = false) ∧ (r.tailPort = some Port.aftNear) ∧ (r.leadId = c.leadId) ∧ (s.ld.engine.round =
    Round.launched)) ∧
  (∃ (c : CommitP) (r : HeldRound) (s : State), (s.ld.engine.phase0 = some (c, 40000)) ∧ (s.ld.engine.heldRound =
    some r) ∧ (s.ld.engine.round = Round.switching) ∧ (s.ld.engine.switch = none) ∧ (BitVec.ofNat 32 (40000 + 2) ≠
    0)) ∧
  (∃ (c : CommitP) (r : HeldRound) (s : State), (s.carries Port.foreNear = true) ∧ (c.phase1 = true) ∧ (s.seenKey
    (floodKey { hdr := hdr12, body := LineBody.commit c } s.now) = false) ∧ (s.ld.engine.heldRound = some r) ∧
    (s.ld.engine.round = Round.held ∨ s.ld.engine.round = Round.tailed) ∧ (r.leadId = c.leadId)) ∧
  (∃ (w : Switch) (s : State), (s.ld.engine.switch = some w) ∧ (s.ldRuns = true) ∧ (s.ld.engine.waitingFront =
    none)) ∧
  (∃ (g : GhostSet) (n : Word) (s : State), (s.ld.engine.switch = none) ∧ (s.ld.engine.ghostSwitch = some (g, n)) ∧
    (s.commit? = some set2)) ∧
  (∃ (p : Position) (c : Commit) (s : State), (s.commit? = some c) ∧ (c.position = 1) ∧ (2 ≤ BitVec.toNat p) ∧
    (BitVec.toNat p < BitVec.toNat c.lastPos) ∧ (isGhost c.ghosts p = false) ∧ (s.silentAt p = true) ∧ (s.heardAt (p
    - 1) = true) ∧ (s.heardAt (p + 1) = true) ∧ (s.ldRuns = true)) :=
  ⟨⟨⟨0xA, 12, false, 3, ⟨false, false, false, false⟩, 0xC, 0, 0⟩, ⟨0xA, 12, 2, false, 0, ⟨false, false, false,
      false⟩, some .foreNear, some .aftNear⟩, numbered.modEng fun g =>
      { g with heldRound := some ⟨0xA, 12, 2, false, 0, ⟨false, false, false, false⟩, some .foreNear, some .aftNear⟩, round := .held },
      by decide +kernel⟩,
    ⟨⟨0xA, 12, false, 3, ⟨false, false, false, false⟩, 0xC, 0, 0⟩, ⟨0xA, 12, 2, false, 0, ⟨false, false, false,
      false⟩, some .foreNear, some .aftNear⟩, numbered.modEng fun g =>
      { g with heldRound := some ⟨0xA, 12, 2, false, 0, ⟨false, false, false, false⟩, some .foreNear, some .aftNear⟩, round := .launched },
      by decide +kernel⟩,
    ⟨⟨0, 12, false, 3, ⟨false, false, false, false⟩, 0xC, 0, 0⟩, ⟨0, 12, 1, false, 0, ⟨false, false, false, false⟩,
      none, some .aftNear⟩, numbered.modEng fun g =>
      { g with heldRound := some ⟨0, 12, 1, false, 0, ⟨false, false, false, false⟩, none, some .aftNear⟩, round := .switching, phase0 := some (⟨0, 12, false, 3, ⟨false, false, false, false⟩, 0xC, 0, 0⟩, 40000) },
      by decide +kernel⟩,
    ⟨⟨0xA, 12, true, 3, ⟨false, false, false, false⟩, 0xC, 0, 40100⟩, ⟨0xA, 12, 2, false, 0, ⟨false, false, false,
      false⟩, some .foreNear, some .aftNear⟩, numbered.modEng fun g =>
      { g with heldRound := some ⟨0xA, 12, 2, false, 0, ⟨false, false, false, false⟩, some .foreNear, some .aftNear⟩, round := .held },
      by decide +kernel⟩,
    ⟨⟨{ set2 with epoch := 10 }, .linked, .linked, 5000125000, false, some .foreNear, none⟩, numbered.modEng fun g
      =>
      { g with switch := some ⟨{ set2 with epoch := 10 }, .linked, .linked, 5000125000, false, some .foreNear, none⟩, round := .switching },
      by decide +kernel⟩,
    ⟨4, 40001, numbered.modEng fun g => { g with ghostSwitch := some (4, 40001) }, by decide +kernel⟩,
    ⟨3, { set2 with position := 1, lastPos := 4 }, numbered.modEng fun g =>
      { g with commit := some { set2 with position := 1, lastPos := 4 }, holders := [(2, 2), (4, 4)], beacons := [⟨{ beacon1 with nodeId := 2, position := 2 }, 4999990000, .aftNear⟩, ⟨{ beacon1 with nodeId := 4, position := 4 }, 4999990000, .aftNear⟩] },
      by decide +kernel⟩⟩

theorem witness_TimedCommandsWaitForTheirBoundary :
  (∃ (seq : Byte) (effect : Word) (i : Instr) (opcode : Byte) (op : HeldOp), (NewCommand Die.la.cdLink seq node) ∧
    ((∃ ch e, i = Instr.mapWrite Die.la seq ch effect e ∧ opcode = 16 ∧ true = (decide (BitVec.toNat ch < 12) &&
    entryOk e) ∧ op = HeldOp.map (chanOf ch) e) ∨ (∃ n k steps, i = Instr.slotWrite Die.la seq n k effect steps ∧
    opcode = 32 ∧ true = (decide (1 ≤ BitVec.toNat n) && decide (BitVec.toNat n ≤ 15) && slotOk (BitVec.toNat k)
    steps) ∧ op = HeldOp.slot (slotIx n) (slotStored (BitVec.toNat k) steps)) ∨ (∃ m ep, i = Instr.stateCmd Die.la
    seq m effect ep ∧ opcode = 48 ∧ true = true ∧ op = HeldOp.state m ep) ∨ ∃ b, i = Instr.scene Die.la seq b effect
    ∧ opcode = 49 ∧ true = true ∧ op = HeldOp.scene b) ∧ ((node.die Die.la).powered = true)) ∧
  (∃ (seq : Byte) (effect : Word) (i : Instr) (opcode : Byte) (op : HeldOp), (NewCommand Die.lb.cdLink seq node) ∧
    ((∃ ch e, i = Instr.mapWrite Die.lb seq ch effect e ∧ opcode = 16 ∧ false = (decide (BitVec.toNat ch < 12) &&
    entryOk e) ∧ op = HeldOp.map (chanOf ch) e) ∨ (∃ n k steps, i = Instr.slotWrite Die.lb seq n k effect steps ∧
    opcode = 32 ∧ false = (decide (1 ≤ BitVec.toNat n) && decide (BitVec.toNat n ≤ 15) && slotOk (BitVec.toNat k)
    steps) ∧ op = HeldOp.slot (slotIx n) (slotStored (BitVec.toNat k) steps)) ∨ (∃ m ep, i = Instr.stateCmd Die.lb
    seq m effect ep ∧ opcode = 48 ∧ false = true ∧ op = HeldOp.state m ep) ∨ ∃ b, i = Instr.scene Die.lb seq b
    effect ∧ opcode = 49 ∧ false = true ∧ op = HeldOp.scene b) ∧ ((node.die Die.lb).powered = true)) ∧
  (∃ (seq : Byte) (effect : Word) (i : Instr) (opcode : Byte) (ok : Bool) (op : HeldOp), (NewCommand Die.la.cdLink
    seq node) ∧ ((∃ ch e, i = Instr.mapWrite Die.la seq ch effect e ∧ opcode = 16 ∧ ok = (decide (BitVec.toNat ch <
    12) && entryOk e) ∧ op = HeldOp.map (chanOf ch) e) ∨ (∃ n k steps, i = Instr.slotWrite Die.la seq n k effect
    steps ∧ opcode = 32 ∧ ok = (decide (1 ≤ BitVec.toNat n) && decide (BitVec.toNat n ≤ 15) && slotOk (BitVec.toNat
    k) steps) ∧ op = HeldOp.slot (slotIx n) (slotStored (BitVec.toNat k) steps)) ∨ (∃ m ep, i = Instr.stateCmd
    Die.la seq m effect ep ∧ opcode = 48 ∧ ok = true ∧ op = HeldOp.state m ep) ∨ ∃ b, i = Instr.scene Die.la seq b
    effect ∧ opcode = 49 ∧ ok = true ∧ op = HeldOp.scene b) ∧ ((node.die Die.la).powered = true)) ∧
  (∃ (seq : Byte) (effect : Word) (i : Instr) (opcode : Byte) (op : HeldOp), (NewCommand Die.la.cdLink seq node) ∧
    ((∃ ch e, i = Instr.mapWrite Die.la seq ch effect e ∧ opcode = 16 ∧ true = (decide (BitVec.toNat ch < 12) &&
    entryOk e) ∧ op = HeldOp.map (chanOf ch) e) ∨ (∃ n k steps, i = Instr.slotWrite Die.la seq n k effect steps ∧
    opcode = 32 ∧ true = (decide (1 ≤ BitVec.toNat n) && decide (BitVec.toNat n ≤ 15) && slotOk (BitVec.toNat k)
    steps) ∧ op = HeldOp.slot (slotIx n) (slotStored (BitVec.toNat k) steps)) ∨ (∃ m ep, i = Instr.stateCmd Die.la
    seq m effect ep ∧ opcode = 48 ∧ true = true ∧ op = HeldOp.state m ep) ∨ ∃ b, i = Instr.scene Die.la seq b effect
    ∧ opcode = 49 ∧ true = true ∧ op = HeldOp.scene b) ∧ ((node.die Die.la).powered = true)) ∧
  (∃ (seq : Byte) (effect : Word) (i : Instr) (opcode : Byte) (op : HeldOp), (NewCommand Die.la.cdLink seq node) ∧
    ((∃ ch e, i = Instr.mapWrite Die.la seq ch effect e ∧ opcode = 16 ∧ true = (decide (BitVec.toNat ch < 12) &&
    entryOk e) ∧ op = HeldOp.map (chanOf ch) e) ∨ (∃ n k steps, i = Instr.slotWrite Die.la seq n k effect steps ∧
    opcode = 32 ∧ true = (decide (1 ≤ BitVec.toNat n) && decide (BitVec.toNat n ≤ 15) && slotOk (BitVec.toNat k)
    steps) ∧ op = HeldOp.slot (slotIx n) (slotStored (BitVec.toNat k) steps)) ∨ (∃ m ep, i = Instr.stateCmd Die.la
    seq m effect ep ∧ opcode = 48 ∧ true = true ∧ op = HeldOp.state m ep) ∨ ∃ b, i = Instr.scene Die.la seq b effect
    ∧ opcode = 49 ∧ true = true ∧ op = HeldOp.scene b) ∧ ((node.die Die.la).powered = true)) ∧
  (∃ (q : Byte) (n : Word) (op : HeldOp) (s : State), ((s.die Die.la).powered = true) ∧ ((s.die Die.la).held =
    [{ seq := q, effect := some n, order := 0, op := op }]) ∧ (ahead32 n (s.die Die.la).clock.cycle32 = false)) :=
  ⟨⟨3, 0, .mapWrite .la 3 2 0 entryUnused, 0x10, .map 2 entryUnused, newCommand_of (by decide +kernel), .inl ⟨_, _,
      rfl, by decide +kernel, by decide +kernel, by decide +kernel⟩, by decide +kernel⟩,
    ⟨3, 9, .mapWrite .lb 3 12 9 entryUnused, 0x10, .map (chanOf 12) entryUnused, newCommand_of (by decide +kernel),
      .inl ⟨_, _, rfl, by decide +kernel, by decide +kernel, by decide +kernel⟩, by decide +kernel⟩,
    ⟨3, 9, .slotWrite .la 3 2 1 9 [0x4001], 0x20, slotOk 1 [0x4001], .slot 2 (slotStored 1 [0x4001]), newCommand_of
      (by decide +kernel), .inr (.inl ⟨_, _, _, rfl, by decide +kernel, by decide +kernel, by decide +kernel⟩),
      by decide +kernel⟩,
    ⟨3, 0xFFFFFFFF, .stateCmd .la 3 5 0xFFFFFFFF 9, 0x30, .state 5 9, newCommand_of (by decide +kernel), .inr (.inr
      (.inl ⟨_, _, rfl, by decide +kernel, by decide +kernel, by decide +kernel⟩)), by decide +kernel⟩,
    ⟨3, 0xFFFFFFFF, .scene .la 3 5 0xFFFFFFFF, 0x31, .scene 5, newCommand_of (by decide +kernel), .inr (.inr (.inr
      ⟨_, rfl, by decide +kernel, by decide +kernel, by decide +kernel⟩)), by decide +kernel⟩,
    ⟨4, 0, .scene 3, (node.modDie .la fun x => { x with held := [⟨4, some 0, 0, .scene 3⟩] }), by decide +kernel⟩⟩

theorem witness_DieReadsAndRegistersAreAnswered :
  (∃ (seq : Byte), (NewCommand Die.la.cdLink seq node) ∧ ((node.die Die.la).powered = true)) ∧
  (∃ (seq : Byte), (NewCommand Die.la.cdLink seq node) ∧ ((node.die Die.la).powered = true)) ∧
  (∃ (seq : Byte), (NewCommand Die.la.cdLink seq node) ∧ ((node.die Die.la).powered = true)) ∧
  (∃ (seq : Byte), (NewCommand Die.lb.cdLink seq node) ∧ ((node.die Die.lb).powered = true)) ∧
  (∃ (seq : Byte) (count : Byte) (a : Word) (l : List Byte), (NewCommand Die.la.cdLink seq node) ∧ (regBytes
    (node.hvRegs Die.la.hv) (BitVec.toNat a) (BitVec.toNat count) = some l) ∧ ((node.die Die.la).powered = true) ∧
    (countOk count 32 = true) ∧ (BitVec.toNat a % 4 = 0)) ∧
  (∃ (seq : Byte) (count : Byte) (a : Word), (NewCommand Die.lb.cdLink seq node) ∧ ((node.die Die.lb).powered =
    true) ∧ (countOk count 32 = false ∨ BitVec.toNat a % 4 ≠ 0 ∨ regBytes (node.hvRegs Die.lb.hv) (BitVec.toNat a)
    (BitVec.toNat count) = none)) ∧
  (∃ (seq : Byte), (NewCommand Die.lb.cdLink seq node) ∧ ((node.die Die.lb).powered = true) ∧ ((policyBytes
    StorePolicy.standard).length = 48) ∧ ((policyOf (policyBytes StorePolicy.standard)).ok = true)) ∧
  (∃ (seq : Byte) (a : Word), (NewCommand Die.lb.cdLink seq node) ∧ ((node.die Die.lb).powered = true) ∧
    (BitVec.toNat a < 64 ∨ 112 ≤ BitVec.toNat a)) ∧
  (∃ (seq : Byte), (NewCommand FLink.cdRef seq node) ∧ ((node.lend FLink.cdRef LEnd.second).running = true)) ∧
  (∃ (seq : Byte) (s : State), (NewCommand FLink.cdRef seq s) ∧ ((s.lend FLink.cdRef LEnd.second).running = true)) :=
  ⟨⟨3, newCommand_of (by decide +kernel), by decide +kernel⟩,
    ⟨3, newCommand_of (by decide +kernel), by decide +kernel⟩,
    ⟨3, newCommand_of (by decide +kernel), by decide +kernel⟩,
    ⟨3, newCommand_of (by decide +kernel), by decide +kernel⟩,
    ⟨3, 8, 0x10, (regBytes (node.hvRegs .la) 0x10 8).getD [], newCommand_of (by decide +kernel), rfl,
      by decide +kernel⟩,
    ⟨3, 8, 0x11, newCommand_of (by decide +kernel), by decide +kernel⟩,
    ⟨3, newCommand_of (by decide +kernel), by decide +kernel⟩,
    ⟨3, 0x70, newCommand_of (by decide +kernel), by decide +kernel⟩,
    ⟨3, newCommand_of (by decide +kernel), by decide +kernel⟩,
    ⟨3, node.modRef fun r => { r with vinput := [1, 2, 3, 4, 5, 6, 7, 8] }, newCommand_of (by decide +kernel),
      by decide +kernel⟩⟩

theorem witness_BurstsAreAdmittedAndRun :
  (∃ (seq : Byte), (NewCommand Die.la.cdLink seq node) ∧ ((node.die Die.la).powered = true)) ∧
  (∃ (b : Burst) (s : State), ((s.die Die.la).powered = true) ∧ ((s.die Die.la).burst = some b) ∧ (b.running =
    false) ∧ (ahead32 b.start (s.die Die.la).clock.cycle32 = false)) ∧
  (∃ (b : Burst) (s : State), ((s.die Die.la).powered = true) ∧ ((s.die Die.la).burst = some b) ∧ (b.running = true)
    ∧ (slotPeriod b.steps ≤ BitVec.toNat ((s.die Die.la).clock.cycle32 - b.start))) ∧
  (∃ (c : Chan) (s : State), (115000 < 115001) ∧ (2000 ≤ 2000) ∧ ((s.die Die.la).driven c = true)) ∧
  ((115000 ≤ 115000 ∨ 2000 < 2000)) :=
  ⟨⟨3, newCommand_of (by decide +kernel), by decide +kernel⟩,
    ⟨⟨1, 2, 0, false, defaultSlots[3], false⟩, node.modDie .la (fun x =>
      { x with burst := some ⟨1, 2, 0, false, defaultSlots[3], false⟩ }), by decide +kernel⟩,
    ⟨⟨1, 2, 0, true, defaultSlots[1], false⟩, node.modDie .la (fun x =>
      { x with burst := some ⟨1, 2, 0, true, defaultSlots[1], false⟩, clock := { x.clock with boundaryTT := 2500000000 } }),
      by decide +kernel⟩,
    ⟨2, node.modDie .la (fun x =>
      { LampDie.modChan 2 (fun x => { x with target := 5 }) x with map := x.map.set 2 (some { entryUnused with mode := 2, enable := true }) }),
      by decide +kernel⟩,
    by decide +kernel⟩

theorem witness_PatternsAndScenesAreShown :
  (((node.die Die.la).powered = true)) ∧
  (∃ (s : State), (s.ldRuns = true) ∧ (s.position = 1) ∧ (s.cd.frost = false)) ∧
  (∃ (l : LampSyncP), (numbered.carries Port.foreNear = true) ∧ (hdr12.epoch = numbered.epoch) ∧ (numbered.seenKey
    (floodKey { hdr := hdr12, body := LineBody.lampSync l } numbered.now) = false)) ∧
  (∃ (l : LampSyncP) (s : State), (s.carries Port.foreNear = true) ∧ (hdr12.epoch = s.epoch) ∧ (s.seenKey (floodKey
    { hdr := hdr12, body := LineBody.lampSync l } s.now) = true)) :=
  ⟨by decide +kernel,
    ⟨numbered.modEng fun g => { g with commit := some { set2 with position := 1 } }, by decide +kernel⟩,
    ⟨⟨40002, 3, false, 0, 0⟩, by decide +kernel⟩,
    ⟨⟨40002, 3, false, 0, 0⟩, numbered.addKey (floodKey ⟨hdr12, .lampSync ⟨40002, 3, false, 0, 0⟩⟩ numbered.now),
      by decide +kernel⟩⟩

theorem witness_LowLightOrCurrentMakesAChannelDark :
  (∃ (c : Chan) (s : State), ((s.die Die.la).powered = true) ∧ ((s.die Die.la).drives = true) ∧ (((s.die
    Die.la).chan c).target ≠ 0) ∧ ((s.die Die.la).gapBlank = false) ∧ (((s.die Die.la).chan c).curBlankUntil ≤ max
    s.now ((s.die Die.la).sampleAt + 1000))) ∧
  (∃ (c : Chan) (s : State), ((s.die Die.la).powered = true) ∧ (64 ≤ ((s.die Die.la).chan c).viewDiffer)) ∧
  (∃ (s : State), ((s.die Die.la).powered = true) ∧ ((s.die Die.la).margin < 768) ∧ (1024 ≤ (s.die
    Die.la).marginLow) ∧ ((fMarginLow.code, Die.la.subject) ∉ (s.die Die.la).conds)) ∧
  (((node.die Die.la).powered = true)) ∧
  (∃ (payload : List Byte), ((node.lend Die.la.cdLink LEnd.first).running = true) ∧ (payload.length = 16) ∧ (byteAt
    payload 0 = 16)) ∧
  (∃ (payload : List Byte), ((node.lend Die.la.cdLink LEnd.first).running = true) ∧ (payload.length ≠ 16 ∨ byteAt
    payload 0 ≠ 16) ∧ ((node.lend Die.la.cdLink LEnd.first).rxerr ≠ 255)) ∧
  (∃ (s : State), ((s.die Die.la).powered = true) ∧ ((s.die Die.la).drives = true) ∧ (true = decide (s.now < (s.die
    Die.la).clock.boundaryAt + 62500))) :=
  ⟨⟨2, node.modDie .la (LampDie.modChan 2 fun x => { x with target := 2000, lowRun := 15, proof := .proven }),
      by decide +kernel⟩,
    ⟨4, node.modDie .la (LampDie.modChan 4 fun x => { x with viewDiffer := 64 }), by decide +kernel⟩,
    ⟨node.modDie .la fun x =>
      { LampDie.modChan 4 (fun x => { x with ratios := [700], own := some ⟨1, 1, 1, 0⟩ }) x with marginLow := 1024 },
      by decide +kernel⟩,
    by decide +kernel,
    ⟨0x10 :: List.replicate 15 0, by decide +kernel⟩,
    ⟨0x10 :: List.replicate 14 0, by decide +kernel⟩,
    ⟨node.modDie .la (fun x =>
      { LampDie.modChan 2 (fun x => { x with target := 2000, proof := .proven, own := some ⟨100000, 100, 20, 0⟩, win1 := some ⟨3, true, false⟩, win2 := some ⟨3, true, false⟩ }) x with clock := { x.clock with boundaryAt := 5000000000 } }),
      by decide +kernel⟩⟩

theorem witness_GrantsAndKillsTakeEffectAtTheDie :
  (∃ (s : State), ((s.die Die.lb).powered = true) ∧ (s.levelTaken Die.lb.grantLink true (twice true) = true) ∧
    ((s.die Die.lb).grant = false)) ∧
  (∃ (s : State), ((s.die Die.la).powered = true) ∧ (s.levelTaken Die.la.grantLink false (twice false) = true) ∧
    ((s.die Die.la).grant = true)) ∧
  (∃ (words : List (BitVec 12)) (s : State), ((s.die Die.la).powered = true) ∧ (s.levelTaken Die.la.grantLink true
    words = false)) ∧
  (∃ (s : State), ((s.die Die.la).powered = true) ∧ (s.levelTaken Die.la.killLink true (twice true) = true) ∧
    ((s.die Die.la).killed = false)) ∧
  (∃ (s : State), (s.levelTaken Die.lb.killLink false (twice false) = true) ∧ ((s.die Die.lb).killed = true)) :=
  ⟨⟨node.modLevel .grantB fun x => { x with sent := some true }, by decide +kernel⟩,
    ⟨node.modLevel .grantA fun x => { x with sent := some false }, by decide +kernel⟩,
    ⟨[levelWord true], node.modLevel .grantA fun x => { x with last := none }, by decide +kernel⟩,
    ⟨node.modLevel .killA fun x => { x with sent := some true }, by decide +kernel⟩,
    ⟨node.modDie .lb (fun x => { x with killed := true, gateSupply := false }), by decide +kernel⟩⟩

theorem witness_InterlockGrantsOnlyAClearDiesPartner :
  (∃ (cause : Byte) (s : State), (s.ref.grant = GrantState.withdrawing Die.la (some Die.lb) cause false true)) ∧
  (∃ (cause : Byte) (s : State), (s.ref.grant = GrantState.withdrawing Die.la (some Die.lb) cause true true) ∧
    (Die.la ≠ Die.lb) ∧ (s.refDriving Die.lb = false)) ∧
  (∃ (cause : Byte) (s : State), (s.ref.grant = GrantState.granting (some Die.la) Die.lb cause false true) ∧ ((s.lv
    Die.lb.driveLink).silent = true)) ∧
  (∃ (cause : Byte) (s : State), (s.ref.grant = GrantState.withdrawing Die.la (some Die.lb) cause false true) ∧
    (Die.la ≠ Die.lb) ∧ (s.levelTaken Die.la.driveLink false (twice false) = true) ∧ (s.refDriving Die.lb = false)) ∧
  (∃ (cause : Byte) (s : State), (s.ref.grant = GrantState.granting (some Die.la) Die.lb cause true true) ∧
    (s.levelTaken Die.lb.driveLink true (twice true) = true) ∧ (s.ref.darkSwitch = false) ∧ (byteFeed (s.ref.view
    Die.lb).state = true) ∧ (byteMode (s.ref.view Die.lb).state ≠ 7) ∧ ((s.lend Die.lb.refLink LEnd.first).lost =
    false)) :=
  ⟨⟨8, (node.modRef fun r => { r with grant := .withdrawing .la (some .lb) 8 false true }), by decide +kernel⟩,
    ⟨8, (node.modRef fun r => { r with grant := .withdrawing .la (some .lb) 8 true true }), by decide +kernel⟩,
    ⟨8, ((node.modRef fun r => { r with grant := .granting (some .la) .lb 8 false true }).modLevel .driveB fun x =>
      { x with silent := true }), by decide +kernel⟩,
    ⟨8, (node.modRef fun r => { r with grant := .withdrawing .la (some .lb) 8 false true }).modLevel .driveA fun x
      => { x with sent := some false }, by decide +kernel⟩,
    ⟨8, (node.modRef fun r =>
      { r with darkSwitch := false, grant := .granting (some .la) .lb 8 true true, viewB := { r.viewB with state := 0x3C } }).modLevel
      .driveB fun x => { x with sent := some true }, by decide +kernel⟩⟩

theorem witness_RefStartsOnEvidenceAndLeavesNoGrant :
  (∃ (s : State), (s.ref.grant = GrantState.boot) ∧ (s.refDriving Die.la = true) ∧ (s.refDriving Die.la.other =
    false) ∧ (s.ref.darkSwitch = false) ∧ (byteFeed (s.ref.view Die.la).state = true) ∧ (byteMode (s.ref.view
    Die.la).state ≠ 7) ∧ ((s.lend Die.la.refLink LEnd.first).lost = false)) ∧
  (∃ (s : State), (s.ref.grant = GrantState.boot) ∧ (s.refDriving Die.la = false) ∧ (s.refDriving Die.lb = false)) ∧
  (∃ (s : State), (s.ref.grant = GrantState.noGrant) ∧ (s.mayGrant s.refPreferred = false) ∧ (s.mayGrant
    s.refPreferred.other = true) ∧ ((s.ref.view s.refPreferred.other).readySince = some 4990000000)) ∧
  (∃ (s : State), (s.ref.grant = GrantState.noGrant) ∧ (s.mayGrant Die.la = false) ∧ (s.mayGrant Die.lb = false)) :=
  ⟨⟨node.modRef fun r => { r with grant := .boot, darkSwitch := false, viewA := { r.viewA with state := 0x3C } },
      by decide +kernel⟩,
    ⟨(node.modRef fun r => { r with grant := .boot }).modLevel .driveA fun x =>
      { x with sent := some false, taken := false }, by decide +kernel⟩,
    ⟨((node.modLevel .driveA fun x => { x with sent := some false, taken := false }).modRef fun r =>
      { r with grant := .noGrant, viewB := { r.viewB with seen := true, state := 0x1F, readySince := some 4990000000 } }),
      by decide +kernel⟩,
    ⟨((node.modLevel .driveA fun x => { x with sent := some false, taken := false }).modRef fun r =>
      { r with grant := .noGrant }), by decide +kernel⟩⟩

theorem witness_DieBootAndHealth :
  (((node.die Die.la).powered = true)) ∧
  (∃ (payload : List Byte), (payload.length = 16) ∧ (byteAt payload 0 = 33) ∧ ((node.lend Die.la.refLink
    LEnd.first).running = true) ∧ ((byteMode (byteAt payload 1)).toNat ≤ 8)) ∧
  (∃ (payload : List Byte), (payload.length = 16) ∧ (byteAt payload 0 = 33) ∧ ((node.lend Die.lb.cdLink
    LEnd.first).running = true)) ∧
  (∃ (s : State), ((s.die Die.la).powered = true) ∧ ((s.die Die.la).bootDone = false)) ∧
  (((node.die Die.la).powered = true) ∧ ((node.die Die.la).bootDone = true)) :=
  ⟨by decide +kernel,
    ⟨[0x21, 0x34] ++ List.replicate 14 0, by decide +kernel⟩,
    ⟨[0x21, 0x34] ++ List.replicate 14 0, by decide +kernel⟩,
    ⟨node.modDie .la fun x => { x with bootDone := false }, by decide +kernel⟩,
    by decide +kernel⟩

theorem witness_MirrorHoldAndOrphanKeepTheLamps :
  ((node.mirroring = some Die.la) ∧ (Option.map MirrorP.cycle (node.die Die.la).mirror.sent ≠ some (node.die
    Die.la).clock.cycle32)) ∧
  (∃ (m : MirrorP), ((node.die Die.lb).powered = true) ∧ ((node.lend FLink.mirror Die.lb.mirrorEnd).running = true)
    ∧ ((node.die Die.lb).drives = false) ∧ (m.version = 1) ∧ ((node.die Die.lb).newerFrame m = true)) ∧
  (∃ (m : MirrorP) (s : State), ((s.die Die.lb).powered = true) ∧ ((s.lend FLink.mirror Die.lb.mirrorEnd).running =
    true) ∧ ((s.die Die.lb).drives = false) ∧ (m.version = 1) ∧ ((s.die Die.lb).newerFrame m = false)) ∧
  (((node.die Die.lb).powered = true) ∧ ((node.die Die.lb).drives = false) ∧ ((node.die Die.lb).mirror.complete =
    none)) ∧
  (∃ (s : State), ((s.die Die.lb).powered = true) ∧ (8 ≤ (s.die Die.lb).mirror.differ) ∧ ((fMirrorDisagrees.code,
    Die.lb.subject) ∉ (s.die Die.lb).conds)) ∧
  (∃ (s : State), ((s.die Die.la).powered = true) ∧ ((s.die Die.la).cd.holding = true) ∧ ((s.die
    Die.la).cd.fallbackDue = false)) ∧
  (∃ (s : State), ((s.die Die.la).powered = true) ∧ ((s.die Die.la).cd.fallbackDue = true) ∧ ((s.die
    Die.la).cd.holdUntil ≤ (s.die Die.la).clock.boundaryAt)) ∧
  (∃ (s : State), (s.orphaned Die.lb = true)) :=
  ⟨by decide +kernel,
    ⟨{ node.mirrorOf .la with cycle := 9 }, by decide +kernel⟩,
    ⟨{ node.mirrorOf .la with cycle := 9 }, node.modDie .lb fun x =>
      { x with mirror := { x.mirror with complete := some { node.mirrorOf .la with cycle := 9 } } },
      by decide +kernel⟩,
    by decide +kernel,
    ⟨node.modDie .lb fun x => { x with mirror := { x.mirror with differ := 8 } }, by decide +kernel⟩,
    ⟨node.modDie .la fun x => { x with cd := { x.cd with holding := true } }, by decide +kernel⟩,
    ⟨node.modDie .la fun x => { x with cd := { x.cd with holding := true, fallbackDue := true } },
      by decide +kernel⟩,
    ⟨(((node.modDie .lb fun x =>
      { x with reqLit := 1, map := x.map.set 0 (some { entryUnused with mode := 2, enable := true }), chans := x.chans.map fun c => { c with viewDark := true, cross := some ⟨1, 1, 1, refCrc { entryUnused with mode := 2, enable := true }⟩ } }).modEnd
      .refLb .second fun x => { x with lost := true }).modEnd .mirror .second fun x =>
      { x with lost := true }).modLevel .grantB fun x => { x with silent := true }, by decide +kernel⟩⟩

theorem witness_RefereeCommandsAndKillTests :
  (∃ (seq : Byte) (s : State), (NewCommand FLink.cdRef seq s) ∧ ((s.lend FLink.cdRef LEnd.second).running = true) ∧
    (s.ref.grant = GrantState.boot)) ∧
  (∃ (seq : Byte), (NewCommand FLink.cdRef seq node) ∧ ((node.lend FLink.cdRef LEnd.second).running = true)) ∧
  (∃ (seq : Byte) (s : State), (NewCommand FLink.cdRef seq s) ∧ ((s.lend FLink.cdRef LEnd.second).running = true) ∧
    (s.ref.grant = GrantState.granted Die.la) ∧ (Die.la ≠ Die.lb) ∧ ((s.switchable Die.lb && (s.ref.view
    Die.lb).ready) = true) ∧ ((s.lv Die.la.driveLink).taken = true)) ∧
  (∃ (seq : Byte), (NewCommand FLink.cdRef seq node) ∧ ((node.lend FLink.cdRef LEnd.second).running = true) ∧
    (node.ref.grant = GrantState.granted Die.la) ∧ (Die.la ≠ Die.lb) ∧ ((node.switchable Die.lb && (node.ref.view
    Die.lb).ready) = false)) ∧
  (∃ (seq : Byte) (s : State), (NewCommand FLink.cdRef seq s) ∧ ((s.lend FLink.cdRef LEnd.second).running = true) ∧
    (s.ref.grant = GrantState.boot) ∧ (s.ref.kill Die.lb = true)) ∧
  (∃ (seq : Byte), (NewCommand FLink.cdRef seq node) ∧ ((node.lend FLink.cdRef LEnd.second).running = true) ∧
    (node.ref.grant.isStandby Die.lb = true) ∧ (node.ref.kill Die.lb = false) ∧ (node.ref.killTest = none)) ∧
  (∃ (seq : Byte), (NewCommand FLink.cdRef seq node) ∧ ((node.lend FLink.cdRef LEnd.second).running = true) ∧
    (node.ref.grant.isStandby Die.la = false)) ∧
  (∃ (seq : Byte) (s : State), (NewCommand FLink.cdRef seq s) ∧ ((s.lend FLink.cdRef LEnd.second).running = true) ∧
    (s.ref.grant = GrantState.boot)) ∧
  (∃ (s : State), (s.ref.killTest = some Die.lb) ∧ (s.ref.grant = GrantState.boot)) ∧
  (∃ (payload : List Byte), ((node.lend FLink.cdRef LEnd.first).running = true) ∧ (payload.length = 16) ∧ (byteAt
    payload 0 = 32)) ∧
  (∃ (payload : List Byte), ((node.lend FLink.cdRef LEnd.first).running = true) ∧ (payload.length = 16) ∧ (byteAt
    payload 0 = 34)) :=
  ⟨⟨3, node.modRef fun r => { r with grant := .boot }, newCommand_of (by decide +kernel), by decide +kernel⟩,
    ⟨3, newCommand_of (by decide +kernel), by decide +kernel⟩,
    ⟨3, node.modRef fun r => { r with viewB := { r.viewB with seen := true, state := 0x1F, readySince := some 0 } },
      newCommand_of (by decide +kernel), by decide +kernel⟩,
    ⟨3, newCommand_of (by decide +kernel), by decide +kernel⟩,
    ⟨3, node.modRef fun r => { r with grant := .boot, killB := true }, newCommand_of (by decide +kernel),
      by decide +kernel⟩,
    ⟨3, newCommand_of (by decide +kernel), by decide +kernel⟩,
    ⟨3, newCommand_of (by decide +kernel), by decide +kernel⟩,
    ⟨3, node.modRef fun r => { r with grant := .boot, pathBadA := 7 }, newCommand_of (by decide +kernel),
      by decide +kernel⟩,
    ⟨node.modRef fun r => { r with grant := .boot, killTest := some .lb, killB := true }, by decide +kernel⟩,
    ⟨0x20 :: List.replicate 15 0, by decide +kernel⟩,
    ⟨0x22 :: List.replicate 15 0, by decide +kernel⟩⟩

theorem witness_StoreIsChargedAndMeasured :
  (((node.die Die.la).powered = true)) ∧
  (((node.die Die.la).powered = true) ∧ ((node.die Die.la).store.feedOk = true) ∧ ((node.die Die.la).store.charging
    = true) ∧ (69000 ≤ 70000) ∧ (74500 ≤ 75000)) ∧
  (∃ (s : State), ((s.die Die.la).powered = true) ∧ ((s.die Die.la).store.bleeding = true)) ∧
  (∃ (s : State), ((s.die Die.lb).powered = true) ∧ ((s.die Die.lb).store.underSince = some 4999000000)) :=
  ⟨by decide +kernel,
    by decide +kernel,
    ⟨node.modStore .la fun x => { x with bleeding := true }, by decide +kernel⟩,
    ⟨node.modStore .lb fun x => { x with underSince := some 4999000000 }, by decide +kernel⟩⟩

theorem witness_FeedLossRidesAndReturns :
  (((node.die Die.la).powered = true) ∧ (139 < 140) ∧ (200000 ≤ 200000) ∧ ((node.die Die.la).store.feedOk = true) ∧
    ((node.die Die.la).store.phase = StorePhase.fed)) ∧
  (((node.die Die.la).powered = true) ∧ (140 ≤ 140 ∨ 200000 < 200000)) ∧
  (((node.die Die.la).powered = true) ∧ (100 < 140) ∧ (199999 < 200000) ∧ ((node.die Die.la).store.feedOk = true)) ∧
  (∃ (s : State), (∃ c, (s.die Die.la).lastSet c = true) ∧ ((s.die Die.la).powered = true) ∧ ((s.die
    Die.la).store.phase = StorePhase.ride)) ∧
  (∃ (s : State), (∃ c, (s.die Die.la).lastSet c = true) ∧ ((s.die Die.la).powered = true) ∧ ((s.die
    Die.la).store.phase = StorePhase.ride)) ∧
  (∃ (s : State), ((s.die Die.la).powered = true) ∧ ((s.die Die.la).store.phase = StorePhase.last) ∧ ((s.die
    Die.la).store.lastAt ≤ (s.die Die.la).clock.boundaryAt)) ∧
  (∃ (s : State), ((s.die Die.la).powered = true) ∧ (155 ≤ 740) ∧ (2000000 ≤ 2000000) ∧ ((s.die Die.la).store.feedOk
    = false) ∧ ((s.die Die.la).store.phase = StorePhase.ride ∨ (s.die Die.la).store.phase = StorePhase.last)) :=
  ⟨by decide +kernel,
    by decide +kernel,
    by decide +kernel,
    ⟨node.modDie .la fun x =>
      { x with reqLit := 0xFFF, store := { x.store with phase := .ride }, cd := { x.cd with fallback := false }, map := Vector.replicate 12 (some { entryUnused with mode := 2, enable := true, role := 2 }) },
      ⟨0, by decide +kernel⟩, by decide +kernel⟩,
    ⟨node.modDie .la fun x =>
      { x with reqLit := 0xFFF, store := { x.store with phase := .ride, eAvail := 1000000000 }, cd := { x.cd with fallback := false }, map := Vector.replicate 12 (some { entryUnused with mode := 2, enable := true, role := 2 }) },
      ⟨0, by decide +kernel⟩, by decide +kernel⟩,
    ⟨node.modStore .la fun x => { x with phase := .last }, by decide +kernel⟩,
    ⟨node.modStore .la fun x => { x with phase := .last, feedOk := false }, by decide +kernel⟩⟩

theorem witness_SpentStoreStopsTheDie :
  (∃ (s : State), ((s.die Die.la).powered = true) ∧ ((s.die Die.la).store.spentAt = some 77) ∧ ((s.die
    Die.la).store.phase = StorePhase.finish) ∧ ((s.die Die.la).shutdown = false)) ∧
  (∃ (r : FinalRecord) (s : State), ((s.die Die.la).powered = true) ∧ ((s.die Die.la).store.writing = some r)) :=
  ⟨⟨node.modStore .la fun x => { x with phase := .finish, spentAt := some 77 }, by decide +kernel⟩,
    ⟨⟨1, 2, 3, 4, 5, 6, 7, 8, 9, 10, 11, 12, true⟩, node.modStore .la fun x =>
      { x with writing := some ⟨1, 2, 3, 4, 5, 6, 7, 8, 9, 10, 11, 12, true⟩ }, by decide +kernel⟩⟩

theorem witness_PowerStatesFollowTheLead :
  (∃ (s : State), (s.powerActs = true) ∧ (s.ld.power ≠ PowerState.draining) ∧ (s.ld.ownTarget = some
    PowerState.lull) ∧ (PowerState.lull ≠ PowerState.draining) ∧ (s.position = 1 ∨ s.position = 0)) ∧
  (∃ (s : State), (s.powerActs = true) ∧ (s.ld.power ≠ PowerState.draining) ∧ (s.ld.ownTarget = none) ∧
    (s.ld.request = some PowerState.lull) ∧ (s.commit? = some set2) ∧ (s.ld.requestFrom = some set2.leadId) ∧ (∀ (w
    : Switch), s.ld.engine.switch = some w → BitVec.toNat s.ld.requestAt < BitVec.toNat w.boundary) ∧ (set2.position
    ≠ 1) ∧ (followed s.ld.power PowerState.lull = some PowerState.lull) ∧ (PowerState.lull ≠ PowerState.draining)) ∧
  (∃ (s : State), (s.powerActs = true) ∧ (s.ld.power ≠ PowerState.draining) ∧ (s.ld.ownTarget = none) ∧
    (s.ld.request = some PowerState.draining) ∧ (s.commit? = some set2) ∧ (s.ld.requestFrom = some set2.leadId) ∧ (∀
    (w : Switch), s.ld.engine.switch = some w → BitVec.toNat s.ld.requestAt < BitVec.toNat w.boundary) ∧
    (set2.position ≠ 1) ∧ (followed s.ld.power PowerState.draining = some PowerState.draining)) ∧
  (∃ (s : State), (s.powerActs = true) ∧ (s.ld.power = PowerState.waking) ∧ (s.ld.wakeTarget = some GustCode.lull) ∧
    (s.commit?.isSome = true) ∧ (s.leadInStandby = true)) ∧
  (∃ (s : State), (s.powerActs = true) ∧ (s.ld.power = PowerState.draining) ∧ (s.ld.sleepAsked = some 3) ∧
    (s.ld.sleepAnswered = false) ∧ (s.cd.running = true) ∧ (s.cd.serving = none)) ∧
  (∃ (s : State), (s.powerActs = true) ∧ (s.ld.power = PowerState.draining) ∧ (s.ld.sleepAnswered = true) ∧
    (s.cd.goingDark = false)) ∧
  (∃ (s : State), (s.crossingsRest = false)) ∧
  (∃ (s : State), (s.powerActs = true) ∧ (s.ld.power = PowerState.draining) ∧ (s.cd.goingDark = true) ∧
    (s.crossingsRest = true)) ∧
  ((numbered.cd.running = true) ∧ (numbered.ldRuns = true)) ∧
  (∃ (s : State), (s.powerActs = true) ∧ (s.ld.power = PowerState.waking ∨ s.ld.power = PowerState.draining) ∧
    (s.cd.goingDark = false)) :=
  ⟨⟨node.modLd fun x => { x with ownTarget := some .lull }, by decide +kernel⟩,
    ⟨numbered.modLd fun x => { x with request := some .lull, requestFrom := some 0xA }, by decide +kernel⟩,
    ⟨numbered.modLd fun x => { x with request := some .draining, requestFrom := some 0xA }, by decide +kernel⟩,
    ⟨(numbered.modLd fun x => { x with power := .waking, wakeTarget := some .lull }), by decide +kernel⟩,
    ⟨(numbered.modLd fun x => { x with power := .draining, sleepAsked := some 3 }), by decide +kernel⟩,
    ⟨(numbered.modLd fun x => { x with power := .draining, sleepAnswered := true }), by decide +kernel⟩,
    ⟨{ (numbered.modLd fun x => { x with power := .draining }) with cd := { numbered.cd with goingDark := true }, crossings := [(.ctlToHost, { numbered.crossed .ctlToHost with req := true })] },
      by decide +kernel⟩,
    ⟨{ (numbered.modLd fun x => { x with power := .draining }) with cd := { numbered.cd with goingDark := true } },
      by decide +kernel⟩,
    by decide +kernel,
    ⟨numbered.modLd fun x => { x with power := .waking }, by decide +kernel⟩⟩

theorem witness_GustsWakeAndProbe :
  (∃ (s : State), (s.ldRuns = true) ∧ (s.ld.gustDue = some GustCode.lull) ∧ (s.ld.gustBusy = false)) ∧
  (∃ (s : State), (s.ldRuns = true) ∧ (s.ld.gustBusy = true)) ∧
  (∃ (s : State) (others : List (List (Bool × Nat))), (s.ld.power = PowerState.calm) ∧ (s.ld.wakeArmed = true) ∧
    (gustOf (gustBurst GustCode.lull) = some GustCode.lull) ∧ (GustCode.active = if (others.any fun l => decide
    (gustOf l = some GustCode.active)) = true then GustCode.active else GustCode.lull)) ∧
  (∃ (s : State) (others : List (List (Bool × Nat))), (s.ld.power = PowerState.calm) ∧ (s.ld.wakeArmed = true) ∧
    (gustOf (gustBurst GustCode.lull) = some GustCode.lull) ∧ (GustCode.lull = if (others.any fun l => decide
    (gustOf l = some GustCode.active)) = true then GustCode.active else GustCode.lull)) ∧
  (∃ (cmd : Byte) (f : HostFrame) (s : State), (s.ld.power = PowerState.calm) ∧ (s.ao.reset.active = false) ∧
    (BitVec.toNat cmd ≤ 3) ∧ (requestWhole cmd f = true) ∧ (requestOk cmd f = true)) ∧
  (∃ (s : State), (s.ldRuns = true) ∧ (s.ld.gustBusy = false) ∧ (s.ld.firstProbe = some VEnd.aft)) ∧
  (∃ (s : State), (s.powerActs = true) ∧ (powerGust s.ld.power = some GustCode.active) ∧ ((s.vend VEnd.fore).verdict
    = Verdict.broken) ∧ (s.laneUp VEnd.fore.near = false) ∧ (s.laneUp VEnd.fore.skip = false) ∧ (s.ld.probing
    VEnd.fore = false)) :=
  ⟨⟨numbered.modLd (fun x => { x with gustDue := some .lull }), by decide +kernel⟩,
    ⟨numbered.modLd (fun x => { x with gustBusy := true }), by decide +kernel⟩,
    ⟨numbered.modLd (fun x => { x with power := .calm, wakeArmed := true }), [gustBurst .active], by decide +kernel⟩,
    ⟨numbered.modLd (fun x => { x with power := .calm, wakeArmed := true }), [gustBurst .lull], by decide +kernel⟩,
    ⟨1, frame 1 0 0 0 0 [], numbered.modLd (fun x => { x with power := .calm }), by decide +kernel⟩,
    ⟨numbered.modLd (fun x => { x with probingAft := true }), by decide +kernel⟩,
    ⟨((numbered.modLane .foreNear fun x => { x with st := .detect }).modLane .foreSkip fun x =>
      { x with st := .detect }).modVend .fore fun v => { v with verdict := .broken }, by decide +kernel⟩⟩

theorem witness_ResetsTakeTheirLevelAndEnd :
  ((node.cd.lastWord = false) ∧ (node.ao.reset.active = false) ∧ (node.regsLive = true) ∧ (node.cd.frost = false)) ∧
  (∃ (s : State), (s.ao.reset.holdRst = true)) ∧
  ((node.cd.lastWord = false) ∧ (node.ao.reset.active = false) ∧ (1999 < 2000 ∨ false = true) ∧ (node.ao.fuses ≠
    [])) ∧
  (∃ (i : Instr), ((∃ mv ns, mv ≤ 2400 ∧ 5000 ≤ ns ∧ i = Instr.brownoutReset mv ns false) ∧ 1 = 1 ∨ (∃ temps ns, (∃
    c ∈ temps, 135 ≤ c) ∧ 100000 ≤ ns ∧ i = Instr.thermalTrip temps ns) ∧ 1 = 5 ∨ (∃ ns, 10000 ≤ ns ∧ i =
    Instr.rstNReset ns) ∧ 1 = 2 ∧ node.cd.frost = false) ∧ (node.cd.lastWord = false) ∧ (node.ao.reset.active =
    false)) ∧
  (∃ (i : Instr), ((∃ mv ns, mv ≤ 2400 ∧ 5000 ≤ ns ∧ i = Instr.brownoutReset mv ns false) ∧ 5 = 1 ∨ (∃ temps ns, (∃
    c ∈ temps, 135 ≤ c) ∧ 100000 ≤ ns ∧ i = Instr.thermalTrip temps ns) ∧ 5 = 5 ∨ (∃ ns, 10000 ≤ ns ∧ i =
    Instr.rstNReset ns) ∧ 5 = 2 ∧ node.cd.frost = false) ∧ (node.cd.lastWord = false) ∧ (node.ao.reset.active =
    false)) ∧
  (∃ (i : Instr), ((∃ mv ns, mv ≤ 2400 ∧ 5000 ≤ ns ∧ i = Instr.brownoutReset mv ns false) ∧ 2 = 1 ∨ (∃ temps ns, (∃
    c ∈ temps, 135 ≤ c) ∧ 100000 ≤ ns ∧ i = Instr.thermalTrip temps ns) ∧ 2 = 5 ∨ (∃ ns, 10000 ≤ ns ∧ i =
    Instr.rstNReset ns) ∧ 2 = 2 ∧ node.cd.frost = false) ∧ (node.cd.lastWord = false) ∧ (node.ao.reset.active =
    false)) ∧
  ((node.cd.lastWord = false) ∧ (node.ao.reset.active = false) ∧ (999 < 1000)) ∧
  ((node.cd.lastWord = false) ∧ (node.ao.reset.active = false) ∧ (node.regsLive = true)) ∧
  (∃ (s : State), (s.cd.lastWord = false) ∧ (s.ao.reset.active = false) ∧ (s.regsLive = true) ∧ ((s.lend
    HvDie.la.cdLink LEnd.first).running = true) ∧ ((s.lend HvDie.la.cdLink LEnd.first).lost = true) ∧ ((s.lend
    HvDie.la.cdLink LEnd.first).upSinceStart = true) ∧ (s.sourceLevel 7 = 2)) ∧
  (∃ (s : State), (s.cd.lastWord = false) ∧ (s.ao.reset.active = false) ∧ (s.regsLive = true) ∧ ((s.lend
    HvDie.la.cdLink LEnd.first).running = true) ∧ ((s.lend HvDie.la.cdLink LEnd.first).lost = true) ∧ ((s.lend
    HvDie.la.cdLink LEnd.first).upSinceStart = true) ∧ (s.sourceLevel 7 = 3) ∧ (s.fences.contains (Block.cdEnd
    HvDie.la) = false)) ∧
  ((node.cd.lastWord = false) ∧ (node.ao.reset.active = false) ∧ (node.regsLive = true) ∧ (node.ldRuns = true) ∧
    (2599 < 2600) ∧ (5000 ≤ 5000)) ∧
  (∃ (s : State) (temps : List Int), (s.ao.reset.holdThermal = true) ∧ (∀ c ∈ temps, c ≤ 115)) ∧
  (∃ (s : State), (s.cd.lastWord = true) ∧ (10000 ≤ 10000)) ∧
  (∃ (s : State), (s.cd.lastWord = true)) ∧
  (∃ (s : State), (s.cd.lastWord = true) ∧ (s.ao.reset.active = false) ∧ (2650 ≤ 2650) ∧ (100000 ≤ 100000)) :=
  ⟨by decide +kernel,
    ⟨{ node with ao := { node.ao with reset := { node.ao.reset with holdRst := true } } }, by decide +kernel⟩,
    by decide +kernel,
    ⟨.brownoutReset 2400 5000 false, by simp, by decide +kernel⟩,
    ⟨.thermalTrip [20, 135] 100000, by simp, by decide +kernel⟩,
    ⟨.rstNReset 10000, .inr (.inr ⟨⟨10000, by decide, rfl⟩, by decide +kernel⟩), by decide +kernel⟩,
    by decide +kernel,
    by decide +kernel,
    ⟨node.modEnd .cdLa .first (fun x => { x with lost := true }), by decide +kernel⟩,
    ⟨{ node.modEnd .cdLa .first (fun x => { x with lost := true }) with ao := { node.ao with fuses := List.replicate 256 0xFF } },
      by decide +kernel⟩,
    by decide +kernel,
    ⟨{ node with ao := { node.ao with reset := { node.ao.reset with holdThermal := true } } }, [115, -3],
      by decide +kernel⟩,
    ⟨{ node with cd := { node.cd with lastWord := true } }, by decide +kernel⟩,
    ⟨{ node with cd := { node.cd with lastWord := true } }, by decide +kernel⟩,
    ⟨{ node with cd := { node.cd with lastWord := true } }, by decide +kernel⟩⟩

theorem witness_IslandsAreReleased :
  (∃ (s : State), (s.releasable = true) ∧ (s.ao.reset.pendingClocks = false)) ∧
  (∃ (s : State), (s.releasable = true) ∧ (s.ao.reset.pendingClocks = true)) ∧
  (∃ (s : State), (s.releasable = false) ∧ (s.regsLive = true) ∧ (s.cd.port.pendingReset = true)) ∧
  (∃ (s : State), (s.regsLive = true) ∧ (s.cd.port.pendingReset = true)) :=
  ⟨⟨{ node with ao := { node.ao with reset := ⟨true, 0, 0, 5, false, false, false⟩ }, ld := { node.ld with inReset := true } },
      by decide +kernel⟩,
    ⟨{ State.reset with ao := { node.ao with reset := ⟨true, 1, 0, 5, false, false, true⟩ } }, by decide +kernel⟩,
    ⟨{ node with cd := { node.cd with port := { node.cd.port with pendingReset := true } } }, by decide +kernel⟩,
    ⟨{ node with cd := { node.cd with port := { node.cd.port with pendingReset := true } } }, by decide +kernel⟩⟩

theorem witness_BlocksAreFencedAndReadied :
  ((node.regsLive = true) ∧ (node.fences.contains (Block.cdEnd HvDie.lb) = false)) ∧
  (∃ (s : State), (s.fences.contains (Block.cdEnd HvDie.lb) = true)) :=
  ⟨by decide +kernel,
    ⟨{ node with fences := [.nvm, .cdEnd .lb] }, by decide +kernel⟩⟩

theorem witness_StartReachesItsMilestones :
  (∃ (s : State), (s.startReady = true) ∧ (s.cd.nvm.inReset = false) ∧ (BitVec.toNat (counterRead s.cd.nvm.counter)
    < 4) ∧ (s.ao.fuseOk = true)) ∧
  (∃ (s : State), (s.startReady = true) ∧ (4 ≤ BitVec.toNat (counterRead s.cd.nvm.counter))) ∧
  (∃ (s : State), (s.regsLive = true) ∧ (s.cd.frost = false) ∧ (s.cd.milestone = 1) ∧ (s.cd.nvm.inReset = false) ∧
    (s.nvmSeen.boot.trial = none) ∧ (s.imgCheck s.nvmSeen.bankA ≠ 0) ∧ (s.imgCheck s.nvmSeen.bankB ≠ 0)) ∧
  (∃ (s : State), (s.regsLive = true) ∧ (s.cd.frost = false) ∧ (s.cd.milestone = 5) ∧ (s.cd.resetDue = none) ∧
    (s.cd.nvm.inReset = false)) ∧
  (∃ (s : State), (s.regsLive = true) ∧ (s.cd.frost = false) ∧ (1 ≤ BitVec.toNat s.cd.milestone) ∧ (BitVec.toNat
    s.cd.milestone ≤ 4) ∧ ((s.lend HvDie.ref.cdLink LEnd.first).lost = true) ∧ (s.cd.absentDies &&& hvBit HvDie.ref
    = 0)) ∧
  (∃ (s : State), ((s.die Die.lb).powered = true) ∧ ((s.die Die.lb).cd.frostDue = true)) ∧
  (∃ (s : State), (s.regsLive = true) ∧ (s.cd.frost = false) ∧ (s.cd.milestone = 1) ∧ (s.cd.nvm.inReset = false) ∧
    (s.nvmSeen.boot.trial = none) ∧ (s.nvmSeen.boot.primaryB = false)) :=
  ⟨⟨{ node with ao := { node.ao with reset := ⟨true, 1, 0, 5, false, false, false⟩ }, cd := { node.cd with milestone := 6 } },
      by decide +kernel⟩,
    ⟨{ node.modNvm (fun v => { v with counter := counterWrite 4 v.counter }) with ao := { node.ao with reset := ⟨true, 1, 0, 5, false, false, false⟩ } },
      by decide +kernel⟩,
    ⟨{ node with cd := { node.cd with milestone := 1 } }, by decide +kernel⟩,
    ⟨{ node with cd := { node.cd with milestone := 5 } }, by decide +kernel⟩,
    ⟨{ node.modEnd .cdRef .first (fun x => { x with lost := true }) with cd := { node.cd with milestone := 4 } },
      by decide +kernel⟩,
    ⟨node.modDie .lb fun x => { x with cd := { x.cd with frostDue := true } }, by decide +kernel⟩,
    ⟨{ node with cd := { node.cd with milestone := 1 } }, by decide +kernel⟩⟩

theorem witness_HostFramesAreAnsweredAndApplied :
  (∃ (f : HostFrame), (node.ld.power ≠ PowerState.calm) ∧ (node.regsLive = true) ∧ (node.cd.port.pendingReset =
    false) ∧ (node.cd.lastWord = false) ∧ (node.cd.frost = false) ∧ (node.cd.port.absent = false) ∧ (exactLength
    cmdNop f = true) ∧ (requestOk cmdNop f = true)) ∧
  (∃ (f : HostFrame), (node.ld.power ≠ PowerState.calm) ∧ (node.regsLive = true) ∧ (node.cd.port.pendingReset =
    false) ∧ (node.cd.lastWord = false) ∧ (node.cd.frost = false) ∧ (node.cd.port.absent = false) ∧ (exactLength
    cmdRead f = true) ∧ (requestOk cmdRead f = true) ∧ (node.targetOf f.target f.unit = Target.here) ∧ (node.mapped
    (BitVec.toNat f.address) (frameWords f) = true)) ∧
  (∃ (f : HostFrame), (node.ld.power ≠ PowerState.calm) ∧ (node.regsLive = true) ∧ (node.cd.port.pendingReset =
    false) ∧ (node.cd.lastWord = false) ∧ (node.cd.frost = false) ∧ (node.cd.port.absent = false) ∧ (exactLength
    cmdWrite f = true) ∧ (requestOk cmdWrite f = true) ∧ (requestData cmdWrite f ≤ f.data.length) ∧ (node.targetOf
    f.target f.unit = Target.here) ∧ (State.writeRefused Writer.host (BitVec.toNat f.address) (frameWords f) node =
    none)) ∧
  (∃ (f : HostFrame) (r : Byte), (node.ld.power ≠ PowerState.calm) ∧ (node.regsLive = true) ∧
    (node.cd.port.pendingReset = false) ∧ (node.cd.lastWord = false) ∧ (node.cd.frost = false) ∧
    (node.cd.port.absent = false) ∧ (exactLength cmdWrite f = true) ∧ (requestOk cmdWrite f = true) ∧ (requestData
    cmdWrite f ≤ f.data.length) ∧ (node.targetOf f.target f.unit = Target.here) ∧ (State.writeRefused Writer.host
    (BitVec.toNat f.address) (frameWords f) node = some r)) ∧
  (∃ (f : HostFrame) (cmd : Byte), (node.ld.power ≠ PowerState.calm) ∧ (node.regsLive = true) ∧
    (node.cd.port.pendingReset = false) ∧ (node.cd.lastWord = false) ∧ (node.cd.frost = false) ∧
    (node.cd.port.absent = false) ∧ (3 < BitVec.toNat cmd) ∧ (exactLength cmd f = true)) ∧
  (∃ (f : HostFrame), (node.ld.power ≠ PowerState.calm) ∧ (node.regsLive = true) ∧ (node.cd.port.pendingReset =
    false) ∧ (node.cd.lastWord = false) ∧ (node.cd.frost = false) ∧ (node.cd.port.absent = false) ∧ (exactLength
    cmdRead f = true) ∧ (requestOk cmdRead f = false)) :=
  ⟨⟨frame 0 0 0 0 0 [], by decide +kernel⟩,
    ⟨frame 1 0 0 0 0x20 [], by decide +kernel⟩,
    ⟨frame 2 0 0 0 0x6C [1, 2, 3, 4], by decide +kernel⟩,
    ⟨frame 2 0 0 0 0x20 [1, 2, 3, 4], 5, by decide +kernel⟩,
    ⟨frame 4 0 0 0 0 [], 4, by decide +kernel⟩,
    ⟨{ frame 1 0 0 0 0 [] with crc := 0x1234 }, by decide +kernel⟩⟩

theorem witness_LockedAccessIsLocalAndWhole :
  (∃ (f : HostFrame) (old : Word) (v : Word), (old = word (node.readWords (BitVec.toNat f.address) 1) 0) ∧ (v = old
    &&& ~~~word f.data 0 ||| word f.data 4 &&& word f.data 0) ∧ (node.ld.power ≠ PowerState.calm) ∧ (node.regsLive =
    true) ∧ (node.cd.port.pendingReset = false) ∧ (node.cd.lastWord = false) ∧ (node.cd.frost = false) ∧
    (node.cd.port.absent = false) ∧ (exactLength cmdRmw f = true) ∧ (requestOk cmdRmw f = true) ∧ (8 ≤
    f.data.length) ∧ (f.words = 0) ∧ (node.targetOf f.target f.unit = Target.here) ∧ (State.writeRefused Writer.host
    (BitVec.toNat f.address) 1 node = none) ∧ (node.cd.fullReset = none)) ∧
  (∃ (f : HostFrame), (node.ld.power ≠ PowerState.calm) ∧ (node.regsLive = true) ∧ (node.cd.port.pendingReset =
    false) ∧ (node.cd.lastWord = false) ∧ (node.cd.frost = false) ∧ (node.cd.port.absent = false) ∧ (requestOk
    cmdRmw f = true) ∧ (8 ≤ f.data.length) ∧ (f.words ≠ 0) ∧ (exactLength cmdRmw f = true)) ∧
  (∃ (f : HostFrame), ((∃ p u, numbered.targetOf f.target f.unit = Target.far p u) ∨ ∃ d, numbered.targetOf f.target
    f.unit = Target.own d) ∧ (numbered.ld.power ≠ PowerState.calm) ∧ (numbered.regsLive = true) ∧
    (numbered.cd.port.pendingReset = false) ∧ (numbered.cd.lastWord = false) ∧ (numbered.cd.frost = false) ∧
    (numbered.cd.port.absent = false) ∧ (requestOk cmdRmw f = true) ∧ (8 ≤ f.data.length) ∧ (f.words = 0) ∧
    (exactLength cmdRmw f = true)) ∧
  (∃ (f : HostFrame), (node.ld.power ≠ PowerState.calm) ∧ (node.regsLive = true) ∧ (node.cd.port.pendingReset =
    false) ∧ (node.cd.lastWord = false) ∧ (node.cd.frost = false) ∧ (node.cd.port.absent = false) ∧ (requestOk
    cmdWrite f = true) ∧ (requestData cmdWrite f ≤ f.data.length) ∧ (exactLength cmdWrite f = true) ∧ (node.targetOf
    f.target f.unit = Target.own HvDie.lb) ∧ (BitVec.toNat f.address % 4 = 0)) :=
  ⟨⟨frame 3 0 0 0 0x6C [1, 2, 3, 4, 5, 6, 7, 8], word (node.readWords 0x6C 1) 0, (word (node.readWords 0x6C 1) 0
      &&& ~~~word [1, 2, 3, 4, 5, 6, 7, 8] 0) ||| (word [1, 2, 3, 4, 5, 6, 7, 8] 4 &&& word [1, 2, 3, 4, 5, 6, 7, 8]
      0), rfl, rfl, by decide +kernel⟩,
    ⟨frame 3 0 0 1 0x6C [1, 2, 3, 4, 5, 6, 7, 8], by decide +kernel⟩,
    ⟨frame 3 3 0 0 0x6C [1, 2, 3, 4, 5, 6, 7, 8], .inl ⟨3, 0, by decide +kernel⟩, by decide +kernel⟩,
    ⟨frame 2 0x41 0 0 0x40 [1, 2, 3, 4], by decide +kernel⟩⟩

theorem witness_FarFramesUseTags :
  (∃ (f : HostFrame) (p : Position) (unit : Byte) (i : Instr) (cmd : Byte) (k : Fin 8), (numbered.ld.power ≠
    PowerState.calm) ∧ (numbered.regsLive = true) ∧ (numbered.cd.port.pendingReset = false) ∧ (numbered.cd.lastWord
    = false) ∧ (numbered.cd.frost = false) ∧ (numbered.cd.port.absent = false) ∧ (numbered.targetOf f.target f.unit
    = Target.far p unit) ∧ (BitVec.toNat f.address % 4 = 0) ∧ (i = Instr.farRead f ∧ cmd = cmdRead ∨ i =
    Instr.farWrite f ∧ cmd = cmdWrite) ∧ (exactLength cmd f = true) ∧ (requestOk cmd f = true) ∧ (requestData cmd f
    ≤ f.data.length) ∧ (numbered.unroutable p = false) ∧ (numbered.cd.bridgeInReset = false) ∧ (numbered.cd.tagFor
    cmd f = none) ∧ (numbered.cd.freeTag = some k)) ∧
  (∃ (f : HostFrame) (p : Position) (unit : Byte) (s : State) (i : Instr) (cmd : Byte), (s.ld.power ≠
    PowerState.calm) ∧ (s.regsLive = true) ∧ (s.cd.port.pendingReset = false) ∧ (s.cd.lastWord = false) ∧
    (s.cd.frost = false) ∧ (s.cd.port.absent = false) ∧ (s.targetOf f.target f.unit = Target.far p unit) ∧
    (BitVec.toNat f.address % 4 = 0) ∧ (i = Instr.farRead f ∧ cmd = cmdRead ∨ i = Instr.farWrite f ∧ cmd = cmdWrite)
    ∧ (exactLength cmd f = true) ∧ (requestOk cmd f = true) ∧ (requestData cmd f ≤ f.data.length) ∧ (s.unroutable p
    = true)) ∧
  (∃ (f : HostFrame) (p : Position) (unit : Byte) (s : State) (i : Instr) (cmd : Byte), (s.ld.power ≠
    PowerState.calm) ∧ (s.regsLive = true) ∧ (s.cd.port.pendingReset = false) ∧ (s.cd.lastWord = false) ∧
    (s.cd.frost = false) ∧ (s.cd.port.absent = false) ∧ (s.targetOf f.target f.unit = Target.far p unit) ∧
    (BitVec.toNat f.address % 4 = 0) ∧ (i = Instr.farRead f ∧ cmd = cmdRead ∨ i = Instr.farWrite f ∧ cmd = cmdWrite)
    ∧ (exactLength cmd f = true) ∧ (requestOk cmd f = true) ∧ (requestData cmd f ≤ f.data.length) ∧ (s.unroutable p
    = false) ∧ (s.cd.bridgeInReset = false) ∧ (s.cd.tagFor cmd f = none) ∧ (s.cd.freeTag = none)) ∧
  (∃ (f : HostFrame) (p : Position) (unit : Byte) (s : State) (i : Instr) (cmd : Byte) (k : Fin 8), (s.ld.power ≠
    PowerState.calm) ∧ (s.regsLive = true) ∧ (s.cd.port.pendingReset = false) ∧ (s.cd.lastWord = false) ∧
    (s.cd.frost = false) ∧ (s.cd.port.absent = false) ∧ (s.targetOf f.target f.unit = Target.far p unit) ∧
    (BitVec.toNat f.address % 4 = 0) ∧ (i = Instr.farRead f ∧ cmd = cmdRead ∨ i = Instr.farWrite f ∧ cmd = cmdWrite)
    ∧ (exactLength cmd f = true) ∧ (requestOk cmd f = true) ∧ (requestData cmd f ≤ f.data.length) ∧ (s.unroutable p
    = false) ∧ (s.cd.tagFor cmd f = some k) ∧ (s.cd.tags[↑k].st = TagState.held)) :=
  ⟨⟨frame 1 3 0 0 0x20 [], 3, 0, .farRead (frame 1 3 0 0 0x20 []), 1, 0, by decide +kernel⟩,
    ⟨frame 1 1 0 0 0x20 [], 1, 0, numbered.modEng (fun g =>
      { g with commit := some { set2 with ghosts := ghostBit 1 } }), .farRead (frame 1 1 0 0 0x20 []), 1,
      by decide +kernel⟩,
    ⟨frame 1 3 0 0 0x20 [], 3, 0,
      { numbered with cd := { numbered.cd with tags := Vector.replicate 8 { Tag.free with st := .fetching } } },
      .farRead (frame 1 3 0 0 0x20 []), 1, by decide +kernel⟩,
    ⟨frame 1 3 0 0 0x20 [], 3, 0,
      { numbered with cd := { numbered.cd with tags := numbered.cd.tags.set 5 ⟨.held, 1, frame 1 3 0 0 0x20 [], false, 7, 0, [1, 2, 3, 4], []⟩ } },
      .farRead (frame 1 3 0 0 0x20 []), 1, 5, by decide +kernel⟩⟩

theorem witness_TagsResponsesAndHeartbeatInTime :
  (∃ (k : Fin 8) (s : State), (s.cd.tags[↑k].st = TagState.fetching)) ∧
  (∃ (k : Fin 8) (s : State), (s.cd.tags[↑k].st = TagState.held)) ∧
  (∃ (h : LineHdr) (m : MgmtP) (k : Fin 8) (s : State), (m.tag.toNat = ↑k) ∧ (s.carries Port.aftNear = true) ∧
    (h.epoch = s.epoch) ∧ (s.position ≠ 0) ∧ (h.dst = s.position) ∧ ((s.port Port.aftNear).rx.inCut = none) ∧
    (s.regsLive = true) ∧ (s.cd.bridgeInReset = false)) ∧
  (∃ (r : List (Port × LineHdr × MgmtP)) (s : State), (s.ld.mgmtQueue = (Port.foreNear, hdr12, mgmt1) :: r) ∧
    (s.regsLive = true) ∧ (s.ldRuns = true) ∧ (s.cd.responding = none) ∧ (s.cd.frost = false) ∧ (mgmt1.op = 1) ∧
    (mgmtFormOk mgmt1 = true) ∧ (mgmt1.target = 0) ∧ (s.mapped (BitVec.toNat mgmt1.address) (BitVec.toNat
    mgmt1.count / 4) = true) ∧ (s.route hdr12.src = some Port.foreNear)) ∧
  ((numbered.regsLive = true) ∧ (numbered.cd.port.pendingReset = false) ∧ (numbered.cd.lastWord = false) ∧
    (numbered.cd.port.absent = false)) :=
  ⟨⟨2,
      { numbered with cd := { numbered.cd with tags := numbered.cd.tags.set 2 { Tag.free with st := .fetching } } },
      by decide +kernel⟩,
    ⟨2, { numbered with cd := { numbered.cd with tags := numbered.cd.tags.set 2 { Tag.free with st := .held } } },
      by decide +kernel⟩,
    ⟨⟨3, 2, 62, 9, 5⟩, ⟨0x81, 2, 0, 0, 0x20, 4, [1, 2, 3, 4]⟩, 2,
      { numbered with cd := { numbered.cd with tags := numbered.cd.tags.set 2 { Tag.free with st := .fetching, cmd := 1, frame := frame 1 3 0 0 0x20 [] } } },
      by decide +kernel⟩,
    ⟨[], numbered.modLd fun x => { x with mgmtQueue := [(.foreNear, hdr12, mgmt1)] }, by decide +kernel⟩,
    by decide +kernel⟩

theorem witness_AttentionAndMailboxControlActAsWritten :
  (∃ (s : State), (s.regsLive = true)) ∧
  (∃ (s : State), (∀ (q : Position), Writer.host = Writer.far q → s.permits q = true) ∧ (s.regsLive = true) ∧
    (s.cd.fullReset = none)) :=
  ⟨⟨node.setEvent 6, by decide +kernel⟩,
    ⟨{ node with cd := { node.cd with slots := node.cd.slots.set 1 { MbxSlot.free with st := .filling, owner := some .host } } },
      by intro q h; cases h <;> decide +kernel, by decide +kernel⟩⟩

theorem witness_RegisterRowsReachTheirRegister :
  (∃ (s : State) (n : Fin 4), (∀ (q : Position), Writer.host = Writer.far q → s.permits q = true) ∧ (s.regsLive =
    true) ∧ ((s.slot n).owner = some Writer.host) ∧ ((s.slot n).st = MbxState.filling)) ∧
  (∃ (s : State) (w : Sys2Proof.Writer) (n : Fin 4), (∀ (q : Position), w = Writer.far q → s.permits q = true) ∧
    (s.regsLive = true) ∧ ((s.slot n).owner = some w) ∧ ((s.slot n).st = MbxState.filling) ∧ (s.cd.fullReset =
    none)) ∧
  (∃ (n : Fin 4) (v : List Byte), (∀ (q : Position), Writer.host = Writer.far q → node.permits q = true) ∧
    (node.regsLive = true) ∧ (v.length = 4) ∧ (MbxSlot.takes Writer.host (node.slot n) = true)) ∧
  ((∀ (q : Position), Writer.host = Writer.far q → node.permits q = true) ∧ (node.regsLive = true)) ∧
  (∃ (q : Position), (node.regsLive = true) ∧ (node.permits q = false)) ∧
  ((node.regsLive = true)) :=
  ⟨⟨{ node with cd := { node.cd with slots := node.cd.slots.set 1 { MbxSlot.free with st := .filling, owner := some .host } } },
      1, by intro q h; cases h <;> decide +kernel, by decide +kernel⟩,
    ⟨{ numbered with cd := { numbered.cd with shadow := { numbered.cd.shadow with permit := 8 }, slots := numbered.cd.slots.set 1 { MbxSlot.free with st := .filling, owner := some (.far 3) } } },
      .far 3, 1, by intro q h; cases h <;> decide +kernel, by decide +kernel⟩,
    ⟨3, [1, 2, 3, 4], by intro q h; cases h <;> decide +kernel, by decide +kernel⟩,
    ⟨by intro q h; cases h <;> decide +kernel, by decide +kernel⟩,
    ⟨3, by decide +kernel⟩,
    by decide +kernel⟩

theorem witness_MailboxRefusesInOrderAndInTime :
  (∃ (op : Half) (r : MbxRow) (n : Fin 4) (s : State), (Serves n op s) ∧ (mbxOpcode Instr.mapSet = some op) ∧
    (mbxRow op = some r) ∧ (s.cd.frost = true) ∧ (r.frost = false)) ∧
  (∃ (op : Half) (r : MbxRow) (n : Fin 4) (s : State), (Serves n op s) ∧ (mbxOpcode Instr.mapSet = some op) ∧
    (mbxRow op = some r) ∧ (s.cd.frost = false ∨ r.frost = true) ∧ ((s.slot n).len < r.lo ∨ r.hi < (s.slot n).len)) ∧
  (∃ (n : Fin 4) (s : State), (s.nextSlot = some n) ∧ ((s.slot n).orphaned = false) ∧ (mbxRow (s.slot n).opcode =
    none)) ∧
  (∃ (n : Fin 4) (s : State), ((s.slot n).st = MbxState.filling)) ∧
  (∃ (n : Fin 4) (s : State), ((s.slot n).st = MbxState.done)) ∧
  (∃ (n : Fin 4) (s : State), (s.regsLive = true) ∧ (s.cd.lastWord = false) ∧ ((s.slot n).st = MbxState.busy) ∧
    ((s.slot n).missed = false) ∧ (s.heldBack (s.slot n).opcode = false)) ∧
  (∃ (s : State) (m : Fin 4), (s.cd.fullReset = some (m, 70)) ∧ (s.regsLive = true) ∧ (s.cd.lastWord = false) ∧
    (s.cd.frost = false)) :=
  ⟨⟨0x20, ((mbxRow 0x20).get (by decide)), 1,
      { asked 0x20 [] node with cd := { (asked 0x20 [] node).cd with frost := true } }, serves_of
      (by decide +kernel), by decide +kernel⟩,
    ⟨0x20, ((mbxRow 0x20).get (by decide)), 1, asked 0x20 [1] node, serves_of (by decide +kernel),
      by decide +kernel⟩,
    ⟨1, asked 0x21FF [1] node, by decide +kernel⟩,
    ⟨1,
      { node with cd := { node.cd with slots := node.cd.slots.set 1 { MbxSlot.free with st := .filling, owner := some .host } } },
      by decide +kernel⟩,
    ⟨1,
      { node with cd := { node.cd with slots := node.cd.slots.set 1 { MbxSlot.free with st := .done, owner := some .host } } },
      by decide +kernel⟩,
    ⟨1, asked 0x20 [] node, by decide +kernel⟩,
    ⟨{ node with cd := { node.cd with fullReset := some (2, 70) } }, 2, by decide +kernel⟩⟩

theorem witness_MailboxReadsAnswerFromState :
  (∃ (op : Half) (ans : List Byte) (n : Fin 4) (s : State), (Serves n op s) ∧ (Instr.identity = Instr.identity ∧ op
    = 1 ∧ ans = s.identityBytes ∨ Instr.identity = Instr.roleGet ∧ op = 38 ∧ ans = s.roleBytes ∨ Instr.identity =
    Instr.inaugGet ∧ op = 49 ∧ ans = s.inaugBytes ∨ Instr.identity = Instr.linkGet ∧ op = 65 ∧ ans = s.linkBytes ∨
    Instr.identity = Instr.permitGet ∧ op = 67 ∧ ans = be64 s.cd.shadow.permit ∨ Instr.identity =
    Instr.powerPolicyGet ∧ op = 81 ∧ ans = s.policyPayload ∨ Instr.identity = Instr.gpioGet ∧ op = 97 ∧ ans = fit
    s.cd.gpio 8 ∨ Instr.identity = Instr.eyeScanResult ∧ op = 337 ∧ ans = s.ld.eye.resultBytes ∨ Instr.identity =
    Instr.ledgerRead ∧ op = 368 ∧ ans = s.ledgerBytes ∧ (s.lend FLink.cdLa LEnd.first).lost = true ∧ (s.lend
    FLink.cdLb LEnd.first).lost = true ∨ Instr.identity = Instr.fwStatus ∧ op = 419 ∧ ans = s.fwStatusBytes) ∧
    (s.cd.frost = false) ∧ (s.draining = false) ∧ ((s.slot n).len = 0)) ∧
  (∃ (op : Half) (ans : List Byte) (n : Fin 4) (s : State), (Serves n op s) ∧ (Instr.roleGet = Instr.identity ∧ op =
    1 ∧ ans = s.identityBytes ∨ Instr.roleGet = Instr.roleGet ∧ op = 38 ∧ ans = s.roleBytes ∨ Instr.roleGet =
    Instr.inaugGet ∧ op = 49 ∧ ans = s.inaugBytes ∨ Instr.roleGet = Instr.linkGet ∧ op = 65 ∧ ans = s.linkBytes ∨
    Instr.roleGet = Instr.permitGet ∧ op = 67 ∧ ans = be64 s.cd.shadow.permit ∨ Instr.roleGet = Instr.powerPolicyGet
    ∧ op = 81 ∧ ans = s.policyPayload ∨ Instr.roleGet = Instr.gpioGet ∧ op = 97 ∧ ans = fit s.cd.gpio 8 ∨
    Instr.roleGet = Instr.eyeScanResult ∧ op = 337 ∧ ans = s.ld.eye.resultBytes ∨ Instr.roleGet = Instr.ledgerRead ∧
    op = 368 ∧ ans = s.ledgerBytes ∧ (s.lend FLink.cdLa LEnd.first).lost = true ∧ (s.lend FLink.cdLb
    LEnd.first).lost = true ∨ Instr.roleGet = Instr.fwStatus ∧ op = 419 ∧ ans = s.fwStatusBytes) ∧ (s.cd.frost =
    false) ∧ (s.draining = false) ∧ ((s.slot n).len = 0)) ∧
  (∃ (op : Half) (ans : List Byte) (n : Fin 4) (s : State), (Serves n op s) ∧ (Instr.inaugGet = Instr.identity ∧ op
    = 1 ∧ ans = s.identityBytes ∨ Instr.inaugGet = Instr.roleGet ∧ op = 38 ∧ ans = s.roleBytes ∨ Instr.inaugGet =
    Instr.inaugGet ∧ op = 49 ∧ ans = s.inaugBytes ∨ Instr.inaugGet = Instr.linkGet ∧ op = 65 ∧ ans = s.linkBytes ∨
    Instr.inaugGet = Instr.permitGet ∧ op = 67 ∧ ans = be64 s.cd.shadow.permit ∨ Instr.inaugGet =
    Instr.powerPolicyGet ∧ op = 81 ∧ ans = s.policyPayload ∨ Instr.inaugGet = Instr.gpioGet ∧ op = 97 ∧ ans = fit
    s.cd.gpio 8 ∨ Instr.inaugGet = Instr.eyeScanResult ∧ op = 337 ∧ ans = s.ld.eye.resultBytes ∨ Instr.inaugGet =
    Instr.ledgerRead ∧ op = 368 ∧ ans = s.ledgerBytes ∧ (s.lend FLink.cdLa LEnd.first).lost = true ∧ (s.lend
    FLink.cdLb LEnd.first).lost = true ∨ Instr.inaugGet = Instr.fwStatus ∧ op = 419 ∧ ans = s.fwStatusBytes) ∧
    (s.cd.frost = false) ∧ (s.draining = false) ∧ ((s.slot n).len = 0)) ∧
  (∃ (op : Half) (ans : List Byte) (n : Fin 4) (s : State), (Serves n op s) ∧ (Instr.linkGet = Instr.identity ∧ op =
    1 ∧ ans = s.identityBytes ∨ Instr.linkGet = Instr.roleGet ∧ op = 38 ∧ ans = s.roleBytes ∨ Instr.linkGet =
    Instr.inaugGet ∧ op = 49 ∧ ans = s.inaugBytes ∨ Instr.linkGet = Instr.linkGet ∧ op = 65 ∧ ans = s.linkBytes ∨
    Instr.linkGet = Instr.permitGet ∧ op = 67 ∧ ans = be64 s.cd.shadow.permit ∨ Instr.linkGet = Instr.powerPolicyGet
    ∧ op = 81 ∧ ans = s.policyPayload ∨ Instr.linkGet = Instr.gpioGet ∧ op = 97 ∧ ans = fit s.cd.gpio 8 ∨
    Instr.linkGet = Instr.eyeScanResult ∧ op = 337 ∧ ans = s.ld.eye.resultBytes ∨ Instr.linkGet = Instr.ledgerRead ∧
    op = 368 ∧ ans = s.ledgerBytes ∧ (s.lend FLink.cdLa LEnd.first).lost = true ∧ (s.lend FLink.cdLb
    LEnd.first).lost = true ∨ Instr.linkGet = Instr.fwStatus ∧ op = 419 ∧ ans = s.fwStatusBytes) ∧ (s.cd.frost =
    false) ∧ (s.draining = false) ∧ ((s.slot n).len = 0)) ∧
  (∃ (op : Half) (ans : List Byte) (n : Fin 4) (s : State), (Serves n op s) ∧ (Instr.permitGet = Instr.identity ∧ op
    = 1 ∧ ans = s.identityBytes ∨ Instr.permitGet = Instr.roleGet ∧ op = 38 ∧ ans = s.roleBytes ∨ Instr.permitGet =
    Instr.inaugGet ∧ op = 49 ∧ ans = s.inaugBytes ∨ Instr.permitGet = Instr.linkGet ∧ op = 65 ∧ ans = s.linkBytes ∨
    Instr.permitGet = Instr.permitGet ∧ op = 67 ∧ ans = be64 s.cd.shadow.permit ∨ Instr.permitGet =
    Instr.powerPolicyGet ∧ op = 81 ∧ ans = s.policyPayload ∨ Instr.permitGet = Instr.gpioGet ∧ op = 97 ∧ ans = fit
    s.cd.gpio 8 ∨ Instr.permitGet = Instr.eyeScanResult ∧ op = 337 ∧ ans = s.ld.eye.resultBytes ∨ Instr.permitGet =
    Instr.ledgerRead ∧ op = 368 ∧ ans = s.ledgerBytes ∧ (s.lend FLink.cdLa LEnd.first).lost = true ∧ (s.lend
    FLink.cdLb LEnd.first).lost = true ∨ Instr.permitGet = Instr.fwStatus ∧ op = 419 ∧ ans = s.fwStatusBytes) ∧
    (s.cd.frost = false) ∧ (s.draining = false) ∧ ((s.slot n).len = 0)) ∧
  (∃ (op : Half) (ans : List Byte) (n : Fin 4) (s : State), (Serves n op s) ∧ (Instr.powerPolicyGet = Instr.identity
    ∧ op = 1 ∧ ans = s.identityBytes ∨ Instr.powerPolicyGet = Instr.roleGet ∧ op = 38 ∧ ans = s.roleBytes ∨
    Instr.powerPolicyGet = Instr.inaugGet ∧ op = 49 ∧ ans = s.inaugBytes ∨ Instr.powerPolicyGet = Instr.linkGet ∧ op
    = 65 ∧ ans = s.linkBytes ∨ Instr.powerPolicyGet = Instr.permitGet ∧ op = 67 ∧ ans = be64 s.cd.shadow.permit ∨
    Instr.powerPolicyGet = Instr.powerPolicyGet ∧ op = 81 ∧ ans = s.policyPayload ∨ Instr.powerPolicyGet =
    Instr.gpioGet ∧ op = 97 ∧ ans = fit s.cd.gpio 8 ∨ Instr.powerPolicyGet = Instr.eyeScanResult ∧ op = 337 ∧ ans =
    s.ld.eye.resultBytes ∨ Instr.powerPolicyGet = Instr.ledgerRead ∧ op = 368 ∧ ans = s.ledgerBytes ∧ (s.lend
    FLink.cdLa LEnd.first).lost = true ∧ (s.lend FLink.cdLb LEnd.first).lost = true ∨ Instr.powerPolicyGet =
    Instr.fwStatus ∧ op = 419 ∧ ans = s.fwStatusBytes) ∧ (s.cd.frost = false) ∧ (s.draining = false) ∧ ((s.slot
    n).len = 0)) ∧
  (∃ (op : Half) (ans : List Byte) (n : Fin 4) (s : State), (Serves n op s) ∧ (Instr.gpioGet = Instr.identity ∧ op =
    1 ∧ ans = s.identityBytes ∨ Instr.gpioGet = Instr.roleGet ∧ op = 38 ∧ ans = s.roleBytes ∨ Instr.gpioGet =
    Instr.inaugGet ∧ op = 49 ∧ ans = s.inaugBytes ∨ Instr.gpioGet = Instr.linkGet ∧ op = 65 ∧ ans = s.linkBytes ∨
    Instr.gpioGet = Instr.permitGet ∧ op = 67 ∧ ans = be64 s.cd.shadow.permit ∨ Instr.gpioGet = Instr.powerPolicyGet
    ∧ op = 81 ∧ ans = s.policyPayload ∨ Instr.gpioGet = Instr.gpioGet ∧ op = 97 ∧ ans = fit s.cd.gpio 8 ∨
    Instr.gpioGet = Instr.eyeScanResult ∧ op = 337 ∧ ans = s.ld.eye.resultBytes ∨ Instr.gpioGet = Instr.ledgerRead ∧
    op = 368 ∧ ans = s.ledgerBytes ∧ (s.lend FLink.cdLa LEnd.first).lost = true ∧ (s.lend FLink.cdLb
    LEnd.first).lost = true ∨ Instr.gpioGet = Instr.fwStatus ∧ op = 419 ∧ ans = s.fwStatusBytes) ∧ (s.cd.frost =
    false) ∧ (s.draining = false) ∧ ((s.slot n).len = 0)) ∧
  (∃ (op : Half) (n : Fin 4) (s : State), (Serves n op s) ∧ (Instr.eyeScanResult = Instr.identity ∧ op = 1 ∧
    node.ld.eye.resultBytes = s.identityBytes ∨ Instr.eyeScanResult = Instr.roleGet ∧ op = 38 ∧
    node.ld.eye.resultBytes = s.roleBytes ∨ Instr.eyeScanResult = Instr.inaugGet ∧ op = 49 ∧ node.ld.eye.resultBytes
    = s.inaugBytes ∨ Instr.eyeScanResult = Instr.linkGet ∧ op = 65 ∧ node.ld.eye.resultBytes = s.linkBytes ∨
    Instr.eyeScanResult = Instr.permitGet ∧ op = 67 ∧ node.ld.eye.resultBytes = be64 s.cd.shadow.permit ∨
    Instr.eyeScanResult = Instr.powerPolicyGet ∧ op = 81 ∧ node.ld.eye.resultBytes = s.policyPayload ∨
    Instr.eyeScanResult = Instr.gpioGet ∧ op = 97 ∧ node.ld.eye.resultBytes = fit s.cd.gpio 8 ∨ Instr.eyeScanResult
    = Instr.eyeScanResult ∧ op = 337 ∧ node.ld.eye.resultBytes = s.ld.eye.resultBytes ∨ Instr.eyeScanResult =
    Instr.ledgerRead ∧ op = 368 ∧ node.ld.eye.resultBytes = s.ledgerBytes ∧ (s.lend FLink.cdLa LEnd.first).lost =
    true ∧ (s.lend FLink.cdLb LEnd.first).lost = true ∨ Instr.eyeScanResult = Instr.fwStatus ∧ op = 419 ∧
    node.ld.eye.resultBytes = s.fwStatusBytes) ∧ (s.cd.frost = false) ∧ (s.draining = false) ∧ ((s.slot n).len = 0)) ∧
  (∃ (op : Half) (ans : List Byte) (n : Fin 4) (s : State), (Serves n op s) ∧ (Instr.ledgerRead = Instr.identity ∧
    op = 1 ∧ ans = s.identityBytes ∨ Instr.ledgerRead = Instr.roleGet ∧ op = 38 ∧ ans = s.roleBytes ∨
    Instr.ledgerRead = Instr.inaugGet ∧ op = 49 ∧ ans = s.inaugBytes ∨ Instr.ledgerRead = Instr.linkGet ∧ op = 65 ∧
    ans = s.linkBytes ∨ Instr.ledgerRead = Instr.permitGet ∧ op = 67 ∧ ans = be64 s.cd.shadow.permit ∨
    Instr.ledgerRead = Instr.powerPolicyGet ∧ op = 81 ∧ ans = s.policyPayload ∨ Instr.ledgerRead = Instr.gpioGet ∧
    op = 97 ∧ ans = fit s.cd.gpio 8 ∨ Instr.ledgerRead = Instr.eyeScanResult ∧ op = 337 ∧ ans = s.ld.eye.resultBytes
    ∨ Instr.ledgerRead = Instr.ledgerRead ∧ op = 368 ∧ ans = s.ledgerBytes ∧ (s.lend FLink.cdLa LEnd.first).lost =
    true ∧ (s.lend FLink.cdLb LEnd.first).lost = true ∨ Instr.ledgerRead = Instr.fwStatus ∧ op = 419 ∧ ans =
    s.fwStatusBytes) ∧ (s.cd.frost = false) ∧ (s.draining = false) ∧ ((s.slot n).len = 0)) ∧
  (∃ (op : Half) (ans : List Byte) (n : Fin 4) (s : State), (Serves n op s) ∧ (Instr.fwStatus = Instr.identity ∧ op
    = 1 ∧ ans = s.identityBytes ∨ Instr.fwStatus = Instr.roleGet ∧ op = 38 ∧ ans = s.roleBytes ∨ Instr.fwStatus =
    Instr.inaugGet ∧ op = 49 ∧ ans = s.inaugBytes ∨ Instr.fwStatus = Instr.linkGet ∧ op = 65 ∧ ans = s.linkBytes ∨
    Instr.fwStatus = Instr.permitGet ∧ op = 67 ∧ ans = be64 s.cd.shadow.permit ∨ Instr.fwStatus =
    Instr.powerPolicyGet ∧ op = 81 ∧ ans = s.policyPayload ∨ Instr.fwStatus = Instr.gpioGet ∧ op = 97 ∧ ans = fit
    s.cd.gpio 8 ∨ Instr.fwStatus = Instr.eyeScanResult ∧ op = 337 ∧ ans = s.ld.eye.resultBytes ∨ Instr.fwStatus =
    Instr.ledgerRead ∧ op = 368 ∧ ans = s.ledgerBytes ∧ (s.lend FLink.cdLa LEnd.first).lost = true ∧ (s.lend
    FLink.cdLb LEnd.first).lost = true ∨ Instr.fwStatus = Instr.fwStatus ∧ op = 419 ∧ ans = s.fwStatusBytes) ∧
    (s.cd.frost = false) ∧ (s.draining = false) ∧ ((s.slot n).len = 0)) ∧
  (∃ (op : Half) (ans : List Byte) (n : Fin 4) (s : State), (Serves n op s) ∧ ((s.slot n).len = 8 ∧ Instr.optRead =
    Instr.optRead ∧ op = 16 ∧ spanOk 8192 (s.slot n).payload = true ∧ ans = fit (s.slot n).payload 8 ++ Mem.bytes
    255 s.nvmSeen.option (BitVec.toNat (word (s.slot n).payload 0)) (BitVec.toNat (half (s.slot n).payload 4)) ∨
    (s.slot n).len = 4 ∧ Instr.optRead = Instr.lampState ∧ op = 256 ∧ byteAt (s.slot n).payload 0 = 0 ∧ s.cd.driver
    = none ∧ ans = s.lampPage0 none ∨ (s.slot n).len = 4 ∧ Instr.optRead = Instr.lampState ∧ op = 256 ∧ 1 ≤
    BitVec.toNat (byteAt (s.slot n).payload 0) ∧ BitVec.toNat (byteAt (s.slot n).payload 0) ≤ 7 ∧ ans = s.alarmPage
    (BitVec.toNat (byteAt (s.slot n).payload 0)) ∨ (s.slot n).len = 4 ∧ Instr.optRead = Instr.counterRead ∧ op = 320
    ∧ groupOk (byteAt (s.slot n).payload 0) = true ∧ bitOf (byteAt (s.slot n).payload 1) 0 = false ∧ ans = [byteAt
    (s.slot n).payload 0, 0, 0, 0] ++ List.flatMap be32 (s.groupWords (byteAt (s.slot n).payload 0)) ∨ (s.slot
    n).len = 4 ∧ Instr.optRead = Instr.eyeScanPoints ∧ op = 338 ∧ 1 ≤ BitVec.toNat (byteAt (s.slot n).payload 2) ∧
    BitVec.toNat (byteAt (s.slot n).payload 2) ≤ 60 ∧ BitVec.toNat (half (s.slot n).payload 0) + BitVec.toNat
    (byteAt (s.slot n).payload 2) ≤ s.ld.eye.grid ∧ ans = fit (s.slot n).payload 4 ++ List.flatMap (fun k => be32
    (if BitVec.toNat (half (s.slot n).payload 0) + k < s.ld.eye.measured then s.ld.eye.counts.getD (BitVec.toNat
    (half (s.slot n).payload 0) + k) 0 else 0)) (List.range (BitVec.toNat (byteAt (s.slot n).payload 2))) ∨ (s.slot
    n).len = 8 ∧ Instr.optRead = Instr.faultRead ∧ op = 352 ∧ 1 ≤ BitVec.toNat (byteAt (s.slot n).payload 4) ∧
    BitVec.toNat (byteAt (s.slot n).payload 4) ≤ 7 ∧ word (s.slot n).payload 0 = 4294967295 ∧ ans = be32
    s.nvmSeen.newestSeq ++ [BitVec.ofNat 8 (s.newestRecords (BitVec.toNat (byteAt (s.slot n).payload 4))).length, 0,
    0, 0] ++ List.flatMap (fun x => x.2) (s.newestRecords (BitVec.toNat (byteAt (s.slot n).payload 4))) ∨ (s.slot
    n).len = 4 ∧ Instr.optRead = Instr.retainedRead ∧ op = 384 ∧ retainedSpan (s.slot n).payload = true ∧ ans = fit
    (s.slot n).payload 4 ++ Mem.bytes 0 s.cd.retained.host (BitVec.toNat (half (s.slot n).payload 0)) (BitVec.toNat
    (byteAt (s.slot n).payload 2))) ∧ (s.cd.frost = false) ∧ (s.draining = false)) ∧
  (∃ (op : Half) (ans : List Byte) (n : Fin 4) (s : State), (Serves n op s) ∧ ((s.slot n).len = 8 ∧ Instr.lampState
    = Instr.optRead ∧ op = 16 ∧ spanOk 8192 (s.slot n).payload = true ∧ ans = fit (s.slot n).payload 8 ++ Mem.bytes
    255 s.nvmSeen.option (BitVec.toNat (word (s.slot n).payload 0)) (BitVec.toNat (half (s.slot n).payload 4)) ∨
    (s.slot n).len = 4 ∧ Instr.lampState = Instr.lampState ∧ op = 256 ∧ byteAt (s.slot n).payload 0 = 0 ∧
    s.cd.driver = none ∧ ans = s.lampPage0 none ∨ (s.slot n).len = 4 ∧ Instr.lampState = Instr.lampState ∧ op = 256
    ∧ 1 ≤ BitVec.toNat (byteAt (s.slot n).payload 0) ∧ BitVec.toNat (byteAt (s.slot n).payload 0) ≤ 7 ∧ ans =
    s.alarmPage (BitVec.toNat (byteAt (s.slot n).payload 0)) ∨ (s.slot n).len = 4 ∧ Instr.lampState =
    Instr.counterRead ∧ op = 320 ∧ groupOk (byteAt (s.slot n).payload 0) = true ∧ bitOf (byteAt (s.slot n).payload
    1) 0 = false ∧ ans = [byteAt (s.slot n).payload 0, 0, 0, 0] ++ List.flatMap be32 (s.groupWords (byteAt (s.slot
    n).payload 0)) ∨ (s.slot n).len = 4 ∧ Instr.lampState = Instr.eyeScanPoints ∧ op = 338 ∧ 1 ≤ BitVec.toNat
    (byteAt (s.slot n).payload 2) ∧ BitVec.toNat (byteAt (s.slot n).payload 2) ≤ 60 ∧ BitVec.toNat (half (s.slot
    n).payload 0) + BitVec.toNat (byteAt (s.slot n).payload 2) ≤ s.ld.eye.grid ∧ ans = fit (s.slot n).payload 4 ++
    List.flatMap (fun k => be32 (if BitVec.toNat (half (s.slot n).payload 0) + k < s.ld.eye.measured then
    s.ld.eye.counts.getD (BitVec.toNat (half (s.slot n).payload 0) + k) 0 else 0)) (List.range (BitVec.toNat (byteAt
    (s.slot n).payload 2))) ∨ (s.slot n).len = 8 ∧ Instr.lampState = Instr.faultRead ∧ op = 352 ∧ 1 ≤ BitVec.toNat
    (byteAt (s.slot n).payload 4) ∧ BitVec.toNat (byteAt (s.slot n).payload 4) ≤ 7 ∧ word (s.slot n).payload 0 =
    4294967295 ∧ ans = be32 s.nvmSeen.newestSeq ++ [BitVec.ofNat 8 (s.newestRecords (BitVec.toNat (byteAt (s.slot
    n).payload 4))).length, 0, 0, 0] ++ List.flatMap (fun x => x.2) (s.newestRecords (BitVec.toNat (byteAt (s.slot
    n).payload 4))) ∨ (s.slot n).len = 4 ∧ Instr.lampState = Instr.retainedRead ∧ op = 384 ∧ retainedSpan (s.slot
    n).payload = true ∧ ans = fit (s.slot n).payload 4 ++ Mem.bytes 0 s.cd.retained.host (BitVec.toNat (half (s.slot
    n).payload 0)) (BitVec.toNat (byteAt (s.slot n).payload 2))) ∧ (s.cd.frost = false) ∧ (s.draining = false)) ∧
  (∃ (op : Half) (ans : List Byte) (n : Fin 4) (s : State), (Serves n op s) ∧ ((s.slot n).len = 8 ∧
    Instr.counterRead = Instr.optRead ∧ op = 16 ∧ spanOk 8192 (s.slot n).payload = true ∧ ans = fit (s.slot
    n).payload 8 ++ Mem.bytes 255 s.nvmSeen.option (BitVec.toNat (word (s.slot n).payload 0)) (BitVec.toNat (half
    (s.slot n).payload 4)) ∨ (s.slot n).len = 4 ∧ Instr.counterRead = Instr.lampState ∧ op = 256 ∧ byteAt (s.slot
    n).payload 0 = 0 ∧ s.cd.driver = none ∧ ans = s.lampPage0 none ∨ (s.slot n).len = 4 ∧ Instr.counterRead =
    Instr.lampState ∧ op = 256 ∧ 1 ≤ BitVec.toNat (byteAt (s.slot n).payload 0) ∧ BitVec.toNat (byteAt (s.slot
    n).payload 0) ≤ 7 ∧ ans = s.alarmPage (BitVec.toNat (byteAt (s.slot n).payload 0)) ∨ (s.slot n).len = 4 ∧
    Instr.counterRead = Instr.counterRead ∧ op = 320 ∧ groupOk (byteAt (s.slot n).payload 0) = true ∧ bitOf (byteAt
    (s.slot n).payload 1) 0 = false ∧ ans = [byteAt (s.slot n).payload 0, 0, 0, 0] ++ List.flatMap be32
    (s.groupWords (byteAt (s.slot n).payload 0)) ∨ (s.slot n).len = 4 ∧ Instr.counterRead = Instr.eyeScanPoints ∧ op
    = 338 ∧ 1 ≤ BitVec.toNat (byteAt (s.slot n).payload 2) ∧ BitVec.toNat (byteAt (s.slot n).payload 2) ≤ 60 ∧
    BitVec.toNat (half (s.slot n).payload 0) + BitVec.toNat (byteAt (s.slot n).payload 2) ≤ s.ld.eye.grid ∧ ans =
    fit (s.slot n).payload 4 ++ List.flatMap (fun k => be32 (if BitVec.toNat (half (s.slot n).payload 0) + k <
    s.ld.eye.measured then s.ld.eye.counts.getD (BitVec.toNat (half (s.slot n).payload 0) + k) 0 else 0))
    (List.range (BitVec.toNat (byteAt (s.slot n).payload 2))) ∨ (s.slot n).len = 8 ∧ Instr.counterRead =
    Instr.faultRead ∧ op = 352 ∧ 1 ≤ BitVec.toNat (byteAt (s.slot n).payload 4) ∧ BitVec.toNat (byteAt (s.slot
    n).payload 4) ≤ 7 ∧ word (s.slot n).payload 0 = 4294967295 ∧ ans = be32 s.nvmSeen.newestSeq ++ [BitVec.ofNat 8
    (s.newestRecords (BitVec.toNat (byteAt (s.slot n).payload 4))).length, 0, 0, 0] ++ List.flatMap (fun x => x.2)
    (s.newestRecords (BitVec.toNat (byteAt (s.slot n).payload 4))) ∨ (s.slot n).len = 4 ∧ Instr.counterRead =
    Instr.retainedRead ∧ op = 384 ∧ retainedSpan (s.slot n).payload = true ∧ ans = fit (s.slot n).payload 4 ++
    Mem.bytes 0 s.cd.retained.host (BitVec.toNat (half (s.slot n).payload 0)) (BitVec.toNat (byteAt (s.slot
    n).payload 2))) ∧ (s.cd.frost = false) ∧ (s.draining = false)) ∧
  (∃ (op : Half) (ans : List Byte) (n : Fin 4) (s : State), (Serves n op s) ∧ ((s.slot n).len = 8 ∧
    Instr.eyeScanPoints = Instr.optRead ∧ op = 16 ∧ spanOk 8192 (s.slot n).payload = true ∧ ans = fit (s.slot
    n).payload 8 ++ Mem.bytes 255 s.nvmSeen.option (BitVec.toNat (word (s.slot n).payload 0)) (BitVec.toNat (half
    (s.slot n).payload 4)) ∨ (s.slot n).len = 4 ∧ Instr.eyeScanPoints = Instr.lampState ∧ op = 256 ∧ byteAt (s.slot
    n).payload 0 = 0 ∧ s.cd.driver = none ∧ ans = s.lampPage0 none ∨ (s.slot n).len = 4 ∧ Instr.eyeScanPoints =
    Instr.lampState ∧ op = 256 ∧ 1 ≤ BitVec.toNat (byteAt (s.slot n).payload 0) ∧ BitVec.toNat (byteAt (s.slot
    n).payload 0) ≤ 7 ∧ ans = s.alarmPage (BitVec.toNat (byteAt (s.slot n).payload 0)) ∨ (s.slot n).len = 4 ∧
    Instr.eyeScanPoints = Instr.counterRead ∧ op = 320 ∧ groupOk (byteAt (s.slot n).payload 0) = true ∧ bitOf
    (byteAt (s.slot n).payload 1) 0 = false ∧ ans = [byteAt (s.slot n).payload 0, 0, 0, 0] ++ List.flatMap be32
    (s.groupWords (byteAt (s.slot n).payload 0)) ∨ (s.slot n).len = 4 ∧ Instr.eyeScanPoints = Instr.eyeScanPoints ∧
    op = 338 ∧ 1 ≤ BitVec.toNat (byteAt (s.slot n).payload 2) ∧ BitVec.toNat (byteAt (s.slot n).payload 2) ≤ 60 ∧
    BitVec.toNat (half (s.slot n).payload 0) + BitVec.toNat (byteAt (s.slot n).payload 2) ≤ s.ld.eye.grid ∧ ans =
    fit (s.slot n).payload 4 ++ List.flatMap (fun k => be32 (if BitVec.toNat (half (s.slot n).payload 0) + k <
    s.ld.eye.measured then s.ld.eye.counts.getD (BitVec.toNat (half (s.slot n).payload 0) + k) 0 else 0))
    (List.range (BitVec.toNat (byteAt (s.slot n).payload 2))) ∨ (s.slot n).len = 8 ∧ Instr.eyeScanPoints =
    Instr.faultRead ∧ op = 352 ∧ 1 ≤ BitVec.toNat (byteAt (s.slot n).payload 4) ∧ BitVec.toNat (byteAt (s.slot
    n).payload 4) ≤ 7 ∧ word (s.slot n).payload 0 = 4294967295 ∧ ans = be32 s.nvmSeen.newestSeq ++ [BitVec.ofNat 8
    (s.newestRecords (BitVec.toNat (byteAt (s.slot n).payload 4))).length, 0, 0, 0] ++ List.flatMap (fun x => x.2)
    (s.newestRecords (BitVec.toNat (byteAt (s.slot n).payload 4))) ∨ (s.slot n).len = 4 ∧ Instr.eyeScanPoints =
    Instr.retainedRead ∧ op = 384 ∧ retainedSpan (s.slot n).payload = true ∧ ans = fit (s.slot n).payload 4 ++
    Mem.bytes 0 s.cd.retained.host (BitVec.toNat (half (s.slot n).payload 0)) (BitVec.toNat (byteAt (s.slot
    n).payload 2))) ∧ (s.cd.frost = false) ∧ (s.draining = false)) ∧
  (∃ (op : Half) (ans : List Byte) (n : Fin 4) (s : State), (Serves n op s) ∧ ((s.slot n).len = 8 ∧ Instr.faultRead
    = Instr.optRead ∧ op = 16 ∧ spanOk 8192 (s.slot n).payload = true ∧ ans = fit (s.slot n).payload 8 ++ Mem.bytes
    255 s.nvmSeen.option (BitVec.toNat (word (s.slot n).payload 0)) (BitVec.toNat (half (s.slot n).payload 4)) ∨
    (s.slot n).len = 4 ∧ Instr.faultRead = Instr.lampState ∧ op = 256 ∧ byteAt (s.slot n).payload 0 = 0 ∧
    s.cd.driver = none ∧ ans = s.lampPage0 none ∨ (s.slot n).len = 4 ∧ Instr.faultRead = Instr.lampState ∧ op = 256
    ∧ 1 ≤ BitVec.toNat (byteAt (s.slot n).payload 0) ∧ BitVec.toNat (byteAt (s.slot n).payload 0) ≤ 7 ∧ ans =
    s.alarmPage (BitVec.toNat (byteAt (s.slot n).payload 0)) ∨ (s.slot n).len = 4 ∧ Instr.faultRead =
    Instr.counterRead ∧ op = 320 ∧ groupOk (byteAt (s.slot n).payload 0) = true ∧ bitOf (byteAt (s.slot n).payload
    1) 0 = false ∧ ans = [byteAt (s.slot n).payload 0, 0, 0, 0] ++ List.flatMap be32 (s.groupWords (byteAt (s.slot
    n).payload 0)) ∨ (s.slot n).len = 4 ∧ Instr.faultRead = Instr.eyeScanPoints ∧ op = 338 ∧ 1 ≤ BitVec.toNat
    (byteAt (s.slot n).payload 2) ∧ BitVec.toNat (byteAt (s.slot n).payload 2) ≤ 60 ∧ BitVec.toNat (half (s.slot
    n).payload 0) + BitVec.toNat (byteAt (s.slot n).payload 2) ≤ s.ld.eye.grid ∧ ans = fit (s.slot n).payload 4 ++
    List.flatMap (fun k => be32 (if BitVec.toNat (half (s.slot n).payload 0) + k < s.ld.eye.measured then
    s.ld.eye.counts.getD (BitVec.toNat (half (s.slot n).payload 0) + k) 0 else 0)) (List.range (BitVec.toNat (byteAt
    (s.slot n).payload 2))) ∨ (s.slot n).len = 8 ∧ Instr.faultRead = Instr.faultRead ∧ op = 352 ∧ 1 ≤ BitVec.toNat
    (byteAt (s.slot n).payload 4) ∧ BitVec.toNat (byteAt (s.slot n).payload 4) ≤ 7 ∧ word (s.slot n).payload 0 =
    4294967295 ∧ ans = be32 s.nvmSeen.newestSeq ++ [BitVec.ofNat 8 (s.newestRecords (BitVec.toNat (byteAt (s.slot
    n).payload 4))).length, 0, 0, 0] ++ List.flatMap (fun x => x.2) (s.newestRecords (BitVec.toNat (byteAt (s.slot
    n).payload 4))) ∨ (s.slot n).len = 4 ∧ Instr.faultRead = Instr.retainedRead ∧ op = 384 ∧ retainedSpan (s.slot
    n).payload = true ∧ ans = fit (s.slot n).payload 4 ++ Mem.bytes 0 s.cd.retained.host (BitVec.toNat (half (s.slot
    n).payload 0)) (BitVec.toNat (byteAt (s.slot n).payload 2))) ∧ (s.cd.frost = false) ∧ (s.draining = false)) ∧
  (∃ (op : Half) (ans : List Byte) (n : Fin 4) (s : State), (Serves n op s) ∧ ((s.slot n).len = 8 ∧
    Instr.retainedRead = Instr.optRead ∧ op = 16 ∧ spanOk 8192 (s.slot n).payload = true ∧ ans = fit (s.slot
    n).payload 8 ++ Mem.bytes 255 s.nvmSeen.option (BitVec.toNat (word (s.slot n).payload 0)) (BitVec.toNat (half
    (s.slot n).payload 4)) ∨ (s.slot n).len = 4 ∧ Instr.retainedRead = Instr.lampState ∧ op = 256 ∧ byteAt (s.slot
    n).payload 0 = 0 ∧ s.cd.driver = none ∧ ans = s.lampPage0 none ∨ (s.slot n).len = 4 ∧ Instr.retainedRead =
    Instr.lampState ∧ op = 256 ∧ 1 ≤ BitVec.toNat (byteAt (s.slot n).payload 0) ∧ BitVec.toNat (byteAt (s.slot
    n).payload 0) ≤ 7 ∧ ans = s.alarmPage (BitVec.toNat (byteAt (s.slot n).payload 0)) ∨ (s.slot n).len = 4 ∧
    Instr.retainedRead = Instr.counterRead ∧ op = 320 ∧ groupOk (byteAt (s.slot n).payload 0) = true ∧ bitOf (byteAt
    (s.slot n).payload 1) 0 = false ∧ ans = [byteAt (s.slot n).payload 0, 0, 0, 0] ++ List.flatMap be32
    (s.groupWords (byteAt (s.slot n).payload 0)) ∨ (s.slot n).len = 4 ∧ Instr.retainedRead = Instr.eyeScanPoints ∧
    op = 338 ∧ 1 ≤ BitVec.toNat (byteAt (s.slot n).payload 2) ∧ BitVec.toNat (byteAt (s.slot n).payload 2) ≤ 60 ∧
    BitVec.toNat (half (s.slot n).payload 0) + BitVec.toNat (byteAt (s.slot n).payload 2) ≤ s.ld.eye.grid ∧ ans =
    fit (s.slot n).payload 4 ++ List.flatMap (fun k => be32 (if BitVec.toNat (half (s.slot n).payload 0) + k <
    s.ld.eye.measured then s.ld.eye.counts.getD (BitVec.toNat (half (s.slot n).payload 0) + k) 0 else 0))
    (List.range (BitVec.toNat (byteAt (s.slot n).payload 2))) ∨ (s.slot n).len = 8 ∧ Instr.retainedRead =
    Instr.faultRead ∧ op = 352 ∧ 1 ≤ BitVec.toNat (byteAt (s.slot n).payload 4) ∧ BitVec.toNat (byteAt (s.slot
    n).payload 4) ≤ 7 ∧ word (s.slot n).payload 0 = 4294967295 ∧ ans = be32 s.nvmSeen.newestSeq ++ [BitVec.ofNat 8
    (s.newestRecords (BitVec.toNat (byteAt (s.slot n).payload 4))).length, 0, 0, 0] ++ List.flatMap (fun x => x.2)
    (s.newestRecords (BitVec.toNat (byteAt (s.slot n).payload 4))) ∨ (s.slot n).len = 4 ∧ Instr.retainedRead =
    Instr.retainedRead ∧ op = 384 ∧ retainedSpan (s.slot n).payload = true ∧ ans = fit (s.slot n).payload 4 ++
    Mem.bytes 0 s.cd.retained.host (BitVec.toNat (half (s.slot n).payload 0)) (BitVec.toNat (byteAt (s.slot
    n).payload 2))) ∧ (s.cd.frost = false) ∧ (s.draining = false)) :=
  ⟨⟨1, (asked 1 [] node).identityBytes, 1, asked 1 [] node, serves_of (by decide +kernel), .inl ⟨rfl, rfl,
      by first | rfl | decide +kernel⟩, by decide +kernel⟩,
    ⟨0x26, (asked 0x26 [] node).roleBytes, 1, asked 0x26 [] node, serves_of (by decide +kernel), .inr (.inl ⟨rfl,
      rfl, by first | rfl | decide +kernel⟩), by decide +kernel⟩,
    ⟨0x31, (asked 0x31 [] node).inaugBytes, 1, asked 0x31 [] node, serves_of (by decide +kernel), .inr (.inr (.inl
      ⟨rfl, rfl, by first | rfl | decide +kernel⟩)), by decide +kernel⟩,
    ⟨0x41, (asked 0x41 [] node).linkBytes, 1, asked 0x41 [] node, serves_of (by decide +kernel), .inr (.inr (.inr
      (.inl ⟨rfl, rfl, by first | rfl | decide +kernel⟩))), by decide +kernel⟩,
    ⟨0x43, zeros 8, 1, asked 0x43 [] node, serves_of (by decide +kernel), .inr (.inr (.inr (.inr (.inl ⟨rfl, rfl,
      by first | rfl | decide +kernel⟩)))), by decide +kernel⟩,
    ⟨0x51, (asked 0x51 [] node).policyPayload, 1, asked 0x51 [] node, serves_of (by decide +kernel), .inr (.inr
      (.inr (.inr (.inr (.inl ⟨rfl, rfl, by first | rfl | decide +kernel⟩))))), by decide +kernel⟩,
    ⟨0x61, zeros 8, 1, asked 0x61 [] node, serves_of (by decide +kernel), .inr (.inr (.inr (.inr (.inr (.inr (.inl
      ⟨rfl, rfl, by first | rfl | decide +kernel⟩)))))), by decide +kernel⟩,
    ⟨0x151, 1, asked 0x151 [] node, serves_of (by decide +kernel), .inr (.inr (.inr (.inr (.inr (.inr (.inr (.inl
      ⟨rfl, rfl, by first | rfl | decide +kernel⟩))))))), by decide +kernel⟩,
    ⟨0x170, (asked 0x170 [] ((node.modEnd .cdLa .first fun x => { x with lost := true }).modEnd .cdLb .first fun x
      => { x with lost := true })).ledgerBytes, 1, asked 0x170 [] ((node.modEnd .cdLa .first fun x =>
      { x with lost := true }).modEnd .cdLb .first fun x => { x with lost := true }), serves_of (by decide +kernel),
      .inr (.inr (.inr (.inr (.inr (.inr (.inr (.inr (.inl ⟨rfl, rfl, by first | rfl | decide +kernel⟩)))))))),
      by decide +kernel⟩,
    ⟨0x1A3, (asked 0x1A3 [] node).fwStatusBytes, 1, asked 0x1A3 [] node, serves_of (by decide +kernel), .inr (.inr
      (.inr (.inr (.inr (.inr (.inr (.inr (.inr (⟨rfl, rfl, by first | rfl | decide +kernel⟩))))))))),
      by decide +kernel⟩,
    ⟨0x10, [0, 0, 0, 0, 0, 16, 0, 0] ++ List.replicate 16 0xFF, 1, asked 0x10 [0, 0, 0, 0, 0, 16, 0, 0] node,
      serves_of (by decide +kernel), .inl ⟨by decide +kernel, rfl, rfl, by decide +kernel,
      by first | rfl | decide +kernel⟩, by decide +kernel⟩,
    ⟨0x100, (asked 0x100 [0, 0, 0, 0] node).lampPage0 none, 1, asked 0x100 [0, 0, 0, 0] node, serves_of
      (by decide +kernel), .inr (.inl ⟨by decide +kernel, rfl, rfl, by decide +kernel, by decide +kernel,
      by first | rfl | decide +kernel⟩), by decide +kernel⟩,
    ⟨0x140, [1, 0, 0, 0] ++ (node.groupWords 1).flatMap be32, 1, asked 0x140 [1, 0, 0, 0] node, serves_of
      (by decide +kernel), .inr (.inr (.inr (.inl ⟨by decide +kernel, rfl, rfl, by decide +kernel,
      by decide +kernel, by first | rfl | decide +kernel⟩))), by decide +kernel⟩,
    ⟨0x152, [0, 1, 2, 0] ++ be32 8 ++ be32 0, 1, asked 0x152 [0, 1, 2, 0] (node.modLd fun l =>
      { l with eye := { l.eye with st := 2, counts := [7, 8], measured := 2 } }), serves_of (by decide +kernel),
      .inr (.inr (.inr (.inr (.inl ⟨by decide +kernel, rfl, rfl, by decide +kernel, by decide +kernel,
      by decide +kernel, by first | rfl | decide +kernel⟩)))), by decide +kernel⟩,
    ⟨0x160, be32 node.nvmSeen.newestSeq ++ [0, 0, 0, 0], 1, asked 0x160 [0xFF, 0xFF, 0xFF, 0xFF, 1, 0, 0, 0] node,
      serves_of (by decide +kernel), .inr (.inr (.inr (.inr (.inr (.inl ⟨by decide +kernel, rfl, rfl,
      by decide +kernel, by decide +kernel, by decide +kernel, by first | rfl | decide +kernel⟩))))),
      by decide +kernel⟩,
    ⟨0x180, [0, 0, 8, 0] ++ zeros 8, 1, asked 0x180 [0, 0, 8, 0] node, serves_of (by decide +kernel), .inr (.inr
      (.inr (.inr (.inr (.inr (⟨by decide +kernel, rfl, rfl, by decide +kernel,
      by first | rfl | decide +kernel⟩)))))), by decide +kernel⟩⟩

theorem witness_OptReadReturnsTheAreaAsItStands :
  (∃ (n : Fin 4) (p : List Byte) (s : State), (Serves n 16 s) ∧ (s.draining = false) ∧ (s.cd.lastWord = false) ∧
    (s.cd.nvm.inReset = false) ∧ ((s.slot n).payload = p) ∧ ((s.slot n).len = 8) ∧ (BitVec.toNat (word p 0) % 4 = 0)
    ∧ (BitVec.toNat (half p 4) % 4 = 0) ∧ (4 ≤ BitVec.toNat (half p 4)) ∧ (BitVec.toNat (half p 4) ≤ 240) ∧
    (BitVec.toNat (word p 0) + BitVec.toNat (half p 4) ≤ 8192)) ∧
  (∃ (n : Fin 4) (p : List Byte) (s : State), (Serves n 16 s) ∧ (s.draining = false) ∧ (s.cd.lastWord = false) ∧
    (s.cd.nvm.inReset = false) ∧ ((s.slot n).payload = p) ∧ ((s.slot n).len = 8) ∧ (BitVec.toNat (word p 0) % 4 ≠ 0
    ∨ BitVec.toNat (half p 4) % 4 ≠ 0 ∨ BitVec.toNat (half p 4) < 4 ∨ 240 < BitVec.toNat (half p 4) ∨ 8192 <
    BitVec.toNat (word p 0) + BitVec.toNat (half p 4))) :=
  ⟨⟨1, [0, 0, 0x1F, 0xFC, 0, 4, 0, 0], asked 0x10 [0, 0, 0x1F, 0xFC, 0, 4, 0, 0] node, serves_of
      (by decide +kernel), by decide +kernel⟩,
    ⟨1, [0, 0, 0x1F, 0xFC, 0, 8, 0, 0], asked 0x10 [0, 0, 0x1F, 0xFC, 0, 8, 0, 0] node, serves_of
      (by decide +kernel), by decide +kernel⟩⟩

theorem witness_MailboxSettingsTakeEffect :
  (∃ (n : Fin 4) (p : List Byte) (s : State), (Serves n 36 s) ∧ (s.cd.frost = false) ∧ (s.draining = false) ∧
    ((s.slot n).payload = p) ∧ ((s.slot n).len = 4)) ∧
  (∃ (n : Fin 4) (p : List Byte) (s : State), (Serves n 37 s) ∧ (s.cd.frost = false) ∧ (s.draining = false) ∧
    ((s.slot n).payload = p) ∧ ((s.slot n).len = 4) ∧ (s.ld.engine.switch = none)) ∧
  (∃ (n : Fin 4) (p : List Byte) (s : State), (Serves n 48 s) ∧ (s.cd.frost = false) ∧ (s.draining = false) ∧
    ((s.slot n).payload = p) ∧ ((s.slot n).len = 4)) ∧
  (∃ (n : Fin 4) (p : List Byte) (s : State), (Serves n 64 s) ∧ (s.cd.frost = false) ∧ (s.draining = false) ∧
    ((s.slot n).payload = p) ∧ ((s.slot n).len = 4) ∧ (localPortOk (List.drop 1 p) = true)) ∧
  (∃ (n : Fin 4) (p : List Byte) (s : State), (Serves n 66 s) ∧ (s.cd.frost = false) ∧ (s.draining = false) ∧
    ((s.slot n).payload = p) ∧ ((s.slot n).len = 8)) ∧
  (∃ (n : Fin 4) (p : List Byte) (s : State), (Serves n 96 s) ∧ (s.cd.frost = false) ∧ (s.draining = false) ∧
    ((s.slot n).payload = p) ∧ ((s.slot n).len = 8) ∧ (gpioOk p = true)) ∧
  (∃ (n : Fin 4) (p : List Byte) (s : State), (Serves n 304 s) ∧ (s.cd.frost = false) ∧ (s.draining = false) ∧
    ((s.slot n).payload = p) ∧ ((s.slot n).len = 4) ∧ (BitVec.toNat (byteAt p 0) ≤ 2)) ∧
  (∃ (n : Fin 4) (p : List Byte) (s : State), (Serves n 320 s) ∧ (s.cd.frost = false) ∧ (s.draining = false) ∧
    ((s.slot n).payload = p) ∧ ((s.slot n).len = 4) ∧ (byteAt p 0 = Port.foreSkip.code) ∧ (bitOf (byteAt p 1) 0 =
    true)) :=
  ⟨⟨1, [1, 0, 0, 0], asked 0x24 [1, 0, 0, 0] node, serves_of (by decide +kernel), by decide +kernel⟩,
    ⟨1, [1, 2, 3, 4], asked 0x25 [1, 2, 3, 4] node, serves_of (by decide +kernel), by decide +kernel⟩,
    ⟨1, [0xFF, 2, 3, 4], asked 0x30 [0xFF, 2, 3, 4] node, serves_of (by decide +kernel), by decide +kernel⟩,
    ⟨1, [0xFF, 0x8F, 0, 0], asked 0x40 [0xFF, 0x8F, 0, 0] node, serves_of (by decide +kernel), by decide +kernel⟩,
    ⟨1, [1, 2, 3, 4, 5, 6, 7, 8], asked 0x42 [1, 2, 3, 4, 5, 6, 7, 8] node, serves_of (by decide +kernel),
      by decide +kernel⟩,
    ⟨1, [1, 2, 3, 4, 0, 1, 2, 3], asked 0x60 [1, 2, 3, 4, 0, 1, 2, 3] node, serves_of (by decide +kernel),
      by decide +kernel⟩,
    ⟨1, [1, 0, 0, 0], asked 0x130 [1, 0, 0, 0] node, serves_of (by decide +kernel), by decide +kernel⟩,
    ⟨1, [1, 1, 0, 0], asked 0x140 [1, 1, 0, 0] node, serves_of (by decide +kernel), by decide +kernel⟩⟩

theorem witness_StagedDataAndResetRequests :
  (∃ (n : Fin 4) (s : State), (Serves n 17 s) ∧ (s.cd.frost = false) ∧ (s.draining = false) ∧ ((s.slot n).payload =
    []) ∧ ((s.slot n).len = 0)) ∧
  (∃ (n : Fin 4) (p : List Byte) (s : State), (Serves n 18 s) ∧ (s.cd.frost = false) ∧ (s.draining = false) ∧
    ((s.slot n).payload = p) ∧ (p.length = (s.slot n).len) ∧ (12 ≤ p.length) ∧ (spanOk 8192 p = true) ∧
    (BitVec.toNat (half p 4) + 8 = p.length) ∧ (s.staged n = some Mem.blank)) ∧
  (∃ (n : Fin 4) (p : List Byte) (s : State), (Serves n 20 s) ∧ (s.cd.frost = false) ∧ (s.draining = false) ∧
    ((s.slot n).payload = p) ∧ ((s.slot n).len = 4) ∧ (word p 0 = 3852798732) ∧ (s.cd.nvm.inReset = false)) ∧
  (∃ (n : Fin 4) (p : List Byte) (s : State), (Serves n 336 s) ∧ (s.cd.frost = false) ∧ (s.draining = false) ∧
    ((s.slot n).payload = p) ∧ ((s.slot n).len = 4) ∧ (byteAt p 0 = Port.foreSkip.code) ∧ (BitVec.toNat (byteAt p 1)
    ≤ 2) ∧ (4 ≤ BitVec.toNat (byteAt p 2)) ∧ (BitVec.toNat (byteAt p 2) ≤ 6) ∧ (s.laneUp Port.foreSkip = true) ∧
    (s.ld.eye.st ≠ 1)) ∧
  (∃ (n : Fin 4) (p : List Byte) (s : State), (Serves n 385 s) ∧ (s.cd.frost = false) ∧ (s.draining = false) ∧
    ((s.slot n).payload = p) ∧ (p.length = (s.slot n).len) ∧ (8 ≤ p.length) ∧ (p.length ≤ 244) ∧ (retainedSpan p =
    true) ∧ (p.length = 4 + BitVec.toNat (byteAt p 2))) ∧
  (∃ (n : Fin 4) (p : List Byte) (s : State), (Serves n 400 s) ∧ (s.cd.frost = false) ∧ (s.draining = false) ∧
    ((s.slot n).payload = p) ∧ ((s.slot n).len = 4) ∧ (word p 0 = 3092705520)) :=
  ⟨⟨1, asked 0x11 [] node, serves_of (by decide +kernel), by decide +kernel⟩,
    ⟨1, [0, 0, 0, 4, 0, 4, 0, 0, 1, 2, 3, 4],
      { asked 0x12 [0, 0, 0, 4, 0, 4, 0, 0, 1, 2, 3, 4] node with cd := { (asked 0x12 [0, 0, 0, 4, 0, 4, 0, 0, 1, 2, 3, 4] node).cd with staging := some (.blank, .host) } },
      serves_of (by decide +kernel), by decide +kernel⟩,
    ⟨1, [0xE5, 0xA5, 0x0B, 0x0C], asked 0x14 [0xE5, 0xA5, 0x0B, 0x0C] node, serves_of (by decide +kernel),
      by decide +kernel⟩,
    ⟨1, [1, 1, 4, 0], asked 0x150 [1, 1, 4, 0] node, serves_of (by decide +kernel), by decide +kernel⟩,
    ⟨1, [0, 8, 4, 0, 1, 2, 3, 4], asked 0x181 [0, 8, 4, 0, 1, 2, 3, 4] node, serves_of (by decide +kernel),
      by decide +kernel⟩,
    ⟨1, [0xB8, 0x56, 0xF0, 0xF0], asked 0x190 [0xB8, 0x56, 0xF0, 0xF0] node, serves_of (by decide +kernel),
      by decide +kernel⟩⟩

theorem witness_MailboxAsksTheDies :
  (∃ (op : Half) (cmd : List Byte) (n : Fin 4) (p : List Byte) (s : State), (Serves n op s) ∧ (s.cd.frost = false) ∧
    (s.draining = false) ∧ ((s.slot n).payload = p) ∧ (Instr.mapSet = Instr.mapSet ∧ op = 32 ∧ (s.slot n).len = 24 ∧
    BitVec.toNat (byteAt p 0) ≤ 11 ∧ s.effectOk (word p 4) = true ∧ entryOk (mapSetEntry p) = true ∧ cmd =
    cmdMapWrite (BitVec.toNat (byteAt p 0)) (word p 4) (mapSetEntry p) ∨ Instr.mapSet = Instr.mapGet ∧ op = 33 ∧
    (s.slot n).len = 4 ∧ BitVec.toNat (byteAt p 0) ≤ 11 ∧ cmd = cmdMapRead (BitVec.toNat (byteAt p 0)) ∨
    Instr.mapSet = Instr.slotSet ∧ op = 34 ∧ (s.slot n).len = 24 ∧ 1 ≤ BitVec.toNat (byteAt p 0) ∧ BitVec.toNat
    (byteAt p 0) ≤ 15 ∧ s.effectOk (word p 4) = true ∧ slotOk (BitVec.toNat (byteAt p 1)) (stepsOf p 8) = true ∧ cmd
    = cmdSlotWrite (BitVec.toNat (byteAt p 0)) (word p 4) (slotSetSlot p) ∨ Instr.mapSet = Instr.slotGet ∧ op = 35 ∧
    (s.slot n).len = 4 ∧ BitVec.toNat (byteAt p 0) ≤ 15 ∧ cmd = cmdSlotRead (BitVec.toNat (byteAt p 0)) ∨
    Instr.mapSet = Instr.powerPolicySet ∧ op = 80 ∧ (s.slot n).len = 52 ∧ applyBits p = 4 ∧ (policyOf (List.drop 4
    p)).ok = true ∧ cmd = cmdRegWrite 64 (policyBytes (policyOf (List.drop 4 p)))) ∧ ((s.lend FLink.cdLa
    LEnd.first).lost = false) ∧ ((s.lend FLink.cdLb LEnd.first).lost = false)) ∧
  (∃ (op : Half) (cmd : List Byte) (n : Fin 4) (p : List Byte) (s : State), (Serves n op s) ∧ (s.cd.frost = false) ∧
    (s.draining = false) ∧ ((s.slot n).payload = p) ∧ (Instr.mapGet = Instr.mapSet ∧ op = 32 ∧ (s.slot n).len = 24 ∧
    BitVec.toNat (byteAt p 0) ≤ 11 ∧ s.effectOk (word p 4) = true ∧ entryOk (mapSetEntry p) = true ∧ cmd =
    cmdMapWrite (BitVec.toNat (byteAt p 0)) (word p 4) (mapSetEntry p) ∨ Instr.mapGet = Instr.mapGet ∧ op = 33 ∧
    (s.slot n).len = 4 ∧ BitVec.toNat (byteAt p 0) ≤ 11 ∧ cmd = cmdMapRead (BitVec.toNat (byteAt p 0)) ∨
    Instr.mapGet = Instr.slotSet ∧ op = 34 ∧ (s.slot n).len = 24 ∧ 1 ≤ BitVec.toNat (byteAt p 0) ∧ BitVec.toNat
    (byteAt p 0) ≤ 15 ∧ s.effectOk (word p 4) = true ∧ slotOk (BitVec.toNat (byteAt p 1)) (stepsOf p 8) = true ∧ cmd
    = cmdSlotWrite (BitVec.toNat (byteAt p 0)) (word p 4) (slotSetSlot p) ∨ Instr.mapGet = Instr.slotGet ∧ op = 35 ∧
    (s.slot n).len = 4 ∧ BitVec.toNat (byteAt p 0) ≤ 15 ∧ cmd = cmdSlotRead (BitVec.toNat (byteAt p 0)) ∨
    Instr.mapGet = Instr.powerPolicySet ∧ op = 80 ∧ (s.slot n).len = 52 ∧ applyBits p = 4 ∧ (policyOf (List.drop 4
    p)).ok = true ∧ cmd = cmdRegWrite 64 (policyBytes (policyOf (List.drop 4 p)))) ∧ ((s.lend FLink.cdLa
    LEnd.first).lost = false) ∧ ((s.lend FLink.cdLb LEnd.first).lost = false)) ∧
  (∃ (op : Half) (cmd : List Byte) (n : Fin 4) (p : List Byte) (s : State), (Serves n op s) ∧ (s.cd.frost = false) ∧
    (s.draining = false) ∧ ((s.slot n).payload = p) ∧ (Instr.mapGet = Instr.mapSet ∧ op = 32 ∧ (s.slot n).len = 24 ∧
    BitVec.toNat (byteAt p 0) ≤ 11 ∧ s.effectOk (word p 4) = true ∧ entryOk (mapSetEntry p) = true ∧ cmd =
    cmdMapWrite (BitVec.toNat (byteAt p 0)) (word p 4) (mapSetEntry p) ∨ Instr.mapGet = Instr.mapGet ∧ op = 33 ∧
    (s.slot n).len = 4 ∧ BitVec.toNat (byteAt p 0) ≤ 11 ∧ cmd = cmdMapRead (BitVec.toNat (byteAt p 0)) ∨
    Instr.mapGet = Instr.slotSet ∧ op = 34 ∧ (s.slot n).len = 24 ∧ 1 ≤ BitVec.toNat (byteAt p 0) ∧ BitVec.toNat
    (byteAt p 0) ≤ 15 ∧ s.effectOk (word p 4) = true ∧ slotOk (BitVec.toNat (byteAt p 1)) (stepsOf p 8) = true ∧ cmd
    = cmdSlotWrite (BitVec.toNat (byteAt p 0)) (word p 4) (slotSetSlot p) ∨ Instr.mapGet = Instr.slotGet ∧ op = 35 ∧
    (s.slot n).len = 4 ∧ BitVec.toNat (byteAt p 0) ≤ 15 ∧ cmd = cmdSlotRead (BitVec.toNat (byteAt p 0)) ∨
    Instr.mapGet = Instr.powerPolicySet ∧ op = 80 ∧ (s.slot n).len = 52 ∧ applyBits p = 4 ∧ (policyOf (List.drop 4
    p)).ok = true ∧ cmd = cmdRegWrite 64 (policyBytes (policyOf (List.drop 4 p)))) ∧ ((s.lend FLink.cdLa
    LEnd.first).lost = true) ∧ ((s.lend FLink.cdLb LEnd.first).lost = true)) ∧
  (∃ (op : Half) (cmd : List Byte) (n : Fin 4) (p : List Byte) (s : State), (Serves n op s) ∧ (s.cd.frost = false) ∧
    (s.draining = false) ∧ ((s.slot n).payload = p) ∧ (Instr.slotSet = Instr.mapSet ∧ op = 32 ∧ (s.slot n).len = 24
    ∧ BitVec.toNat (byteAt p 0) ≤ 11 ∧ s.effectOk (word p 4) = true ∧ entryOk (mapSetEntry p) = true ∧ cmd =
    cmdMapWrite (BitVec.toNat (byteAt p 0)) (word p 4) (mapSetEntry p) ∨ Instr.slotSet = Instr.mapGet ∧ op = 33 ∧
    (s.slot n).len = 4 ∧ BitVec.toNat (byteAt p 0) ≤ 11 ∧ cmd = cmdMapRead (BitVec.toNat (byteAt p 0)) ∨
    Instr.slotSet = Instr.slotSet ∧ op = 34 ∧ (s.slot n).len = 24 ∧ 1 ≤ BitVec.toNat (byteAt p 0) ∧ BitVec.toNat
    (byteAt p 0) ≤ 15 ∧ s.effectOk (word p 4) = true ∧ slotOk (BitVec.toNat (byteAt p 1)) (stepsOf p 8) = true ∧ cmd
    = cmdSlotWrite (BitVec.toNat (byteAt p 0)) (word p 4) (slotSetSlot p) ∨ Instr.slotSet = Instr.slotGet ∧ op = 35
    ∧ (s.slot n).len = 4 ∧ BitVec.toNat (byteAt p 0) ≤ 15 ∧ cmd = cmdSlotRead (BitVec.toNat (byteAt p 0)) ∨
    Instr.slotSet = Instr.powerPolicySet ∧ op = 80 ∧ (s.slot n).len = 52 ∧ applyBits p = 4 ∧ (policyOf (List.drop 4
    p)).ok = true ∧ cmd = cmdRegWrite 64 (policyBytes (policyOf (List.drop 4 p)))) ∧ ((s.lend FLink.cdLa
    LEnd.first).lost = false) ∧ ((s.lend FLink.cdLb LEnd.first).lost = false)) ∧
  (∃ (op : Half) (cmd : List Byte) (n : Fin 4) (p : List Byte) (s : State), (Serves n op s) ∧ (s.cd.frost = false) ∧
    (s.draining = false) ∧ ((s.slot n).payload = p) ∧ (Instr.slotGet = Instr.mapSet ∧ op = 32 ∧ (s.slot n).len = 24
    ∧ BitVec.toNat (byteAt p 0) ≤ 11 ∧ s.effectOk (word p 4) = true ∧ entryOk (mapSetEntry p) = true ∧ cmd =
    cmdMapWrite (BitVec.toNat (byteAt p 0)) (word p 4) (mapSetEntry p) ∨ Instr.slotGet = Instr.mapGet ∧ op = 33 ∧
    (s.slot n).len = 4 ∧ BitVec.toNat (byteAt p 0) ≤ 11 ∧ cmd = cmdMapRead (BitVec.toNat (byteAt p 0)) ∨
    Instr.slotGet = Instr.slotSet ∧ op = 34 ∧ (s.slot n).len = 24 ∧ 1 ≤ BitVec.toNat (byteAt p 0) ∧ BitVec.toNat
    (byteAt p 0) ≤ 15 ∧ s.effectOk (word p 4) = true ∧ slotOk (BitVec.toNat (byteAt p 1)) (stepsOf p 8) = true ∧ cmd
    = cmdSlotWrite (BitVec.toNat (byteAt p 0)) (word p 4) (slotSetSlot p) ∨ Instr.slotGet = Instr.slotGet ∧ op = 35
    ∧ (s.slot n).len = 4 ∧ BitVec.toNat (byteAt p 0) ≤ 15 ∧ cmd = cmdSlotRead (BitVec.toNat (byteAt p 0)) ∨
    Instr.slotGet = Instr.powerPolicySet ∧ op = 80 ∧ (s.slot n).len = 52 ∧ applyBits p = 4 ∧ (policyOf (List.drop 4
    p)).ok = true ∧ cmd = cmdRegWrite 64 (policyBytes (policyOf (List.drop 4 p)))) ∧ ((s.lend FLink.cdLa
    LEnd.first).lost = false) ∧ ((s.lend FLink.cdLb LEnd.first).lost = false)) ∧
  (∃ (op : Half) (cmd : List Byte) (n : Fin 4) (p : List Byte) (s : State), (Serves n op s) ∧ (s.cd.frost = false) ∧
    (s.draining = false) ∧ ((s.slot n).payload = p) ∧ (Instr.powerPolicySet = Instr.mapSet ∧ op = 32 ∧ (s.slot
    n).len = 24 ∧ BitVec.toNat (byteAt p 0) ≤ 11 ∧ s.effectOk (word p 4) = true ∧ entryOk (mapSetEntry p) = true ∧
    cmd = cmdMapWrite (BitVec.toNat (byteAt p 0)) (word p 4) (mapSetEntry p) ∨ Instr.powerPolicySet = Instr.mapGet ∧
    op = 33 ∧ (s.slot n).len = 4 ∧ BitVec.toNat (byteAt p 0) ≤ 11 ∧ cmd = cmdMapRead (BitVec.toNat (byteAt p 0)) ∨
    Instr.powerPolicySet = Instr.slotSet ∧ op = 34 ∧ (s.slot n).len = 24 ∧ 1 ≤ BitVec.toNat (byteAt p 0) ∧
    BitVec.toNat (byteAt p 0) ≤ 15 ∧ s.effectOk (word p 4) = true ∧ slotOk (BitVec.toNat (byteAt p 1)) (stepsOf p 8)
    = true ∧ cmd = cmdSlotWrite (BitVec.toNat (byteAt p 0)) (word p 4) (slotSetSlot p) ∨ Instr.powerPolicySet =
    Instr.slotGet ∧ op = 35 ∧ (s.slot n).len = 4 ∧ BitVec.toNat (byteAt p 0) ≤ 15 ∧ cmd = cmdSlotRead (BitVec.toNat
    (byteAt p 0)) ∨ Instr.powerPolicySet = Instr.powerPolicySet ∧ op = 80 ∧ (s.slot n).len = 52 ∧ applyBits p = 4 ∧
    (policyOf (List.drop 4 p)).ok = true ∧ cmd = cmdRegWrite 64 (policyBytes (policyOf (List.drop 4 p)))) ∧ ((s.lend
    FLink.cdLa LEnd.first).lost = false) ∧ ((s.lend FLink.cdLb LEnd.first).lost = false)) ∧
  (∃ (op : Half) (cmd : List Byte) (n : Fin 4) (p : List Byte) (s : State), (Serves n op s) ∧ (s.cd.frost = false) ∧
    (s.draining = false) ∧ ((s.slot n).payload = p) ∧ (Instr.redundSwitch = Instr.redundSwitch ∧ op = 288 ∧ (s.slot
    n).len = 4 ∧ BitVec.toNat (byteAt p 0) ≤ 1 ∧ cmd = cmdDie 82 (byteAt p 0) ∨ Instr.redundSwitch = Instr.killTest
    ∧ op = 289 ∧ (s.slot n).len = 4 ∧ BitVec.toNat (byteAt p 0) ≤ 1 ∧ cmd = cmdDie 84 (byteAt p 0) ∨
    Instr.redundSwitch = Instr.killRelease ∧ op = 290 ∧ (s.slot n).len = 4 ∧ BitVec.toNat (byteAt p 0) ≤ 1 ∧ cmd =
    cmdDie 83 (byteAt p 0) ∨ Instr.redundSwitch = Instr.pathClear ∧ op = 291 ∧ (s.slot n).len = 4 ∧ BitVec.toNat
    (byteAt p 0) ≤ 1 ∧ cmd = cmdPathClear (byteAt p 0) (BitVec.extractLsb' 0 12 (half p 2)) ∨ Instr.redundSwitch =
    Instr.redundStatus ∧ op = 292 ∧ (s.slot n).len = 0 ∧ cmd = cmdRefStatus) ∧ ((s.lend FLink.cdRef LEnd.first).lost
    = false)) ∧
  (∃ (op : Half) (cmd : List Byte) (n : Fin 4) (p : List Byte) (s : State), (Serves n op s) ∧ (s.cd.frost = false) ∧
    (s.draining = false) ∧ ((s.slot n).payload = p) ∧ (Instr.killTest = Instr.redundSwitch ∧ op = 288 ∧ (s.slot
    n).len = 4 ∧ BitVec.toNat (byteAt p 0) ≤ 1 ∧ cmd = cmdDie 82 (byteAt p 0) ∨ Instr.killTest = Instr.killTest ∧ op
    = 289 ∧ (s.slot n).len = 4 ∧ BitVec.toNat (byteAt p 0) ≤ 1 ∧ cmd = cmdDie 84 (byteAt p 0) ∨ Instr.killTest =
    Instr.killRelease ∧ op = 290 ∧ (s.slot n).len = 4 ∧ BitVec.toNat (byteAt p 0) ≤ 1 ∧ cmd = cmdDie 83 (byteAt p 0)
    ∨ Instr.killTest = Instr.pathClear ∧ op = 291 ∧ (s.slot n).len = 4 ∧ BitVec.toNat (byteAt p 0) ≤ 1 ∧ cmd =
    cmdPathClear (byteAt p 0) (BitVec.extractLsb' 0 12 (half p 2)) ∨ Instr.killTest = Instr.redundStatus ∧ op = 292
    ∧ (s.slot n).len = 0 ∧ cmd = cmdRefStatus) ∧ ((s.lend FLink.cdRef LEnd.first).lost = false)) ∧
  (∃ (op : Half) (cmd : List Byte) (n : Fin 4) (p : List Byte) (s : State), (Serves n op s) ∧ (s.cd.frost = false) ∧
    (s.draining = false) ∧ ((s.slot n).payload = p) ∧ (Instr.killRelease = Instr.redundSwitch ∧ op = 288 ∧ (s.slot
    n).len = 4 ∧ BitVec.toNat (byteAt p 0) ≤ 1 ∧ cmd = cmdDie 82 (byteAt p 0) ∨ Instr.killRelease = Instr.killTest ∧
    op = 289 ∧ (s.slot n).len = 4 ∧ BitVec.toNat (byteAt p 0) ≤ 1 ∧ cmd = cmdDie 84 (byteAt p 0) ∨ Instr.killRelease
    = Instr.killRelease ∧ op = 290 ∧ (s.slot n).len = 4 ∧ BitVec.toNat (byteAt p 0) ≤ 1 ∧ cmd = cmdDie 83 (byteAt p
    0) ∨ Instr.killRelease = Instr.pathClear ∧ op = 291 ∧ (s.slot n).len = 4 ∧ BitVec.toNat (byteAt p 0) ≤ 1 ∧ cmd =
    cmdPathClear (byteAt p 0) (BitVec.extractLsb' 0 12 (half p 2)) ∨ Instr.killRelease = Instr.redundStatus ∧ op =
    292 ∧ (s.slot n).len = 0 ∧ cmd = cmdRefStatus) ∧ ((s.lend FLink.cdRef LEnd.first).lost = false)) ∧
  (∃ (op : Half) (cmd : List Byte) (n : Fin 4) (p : List Byte) (s : State), (Serves n op s) ∧ (s.cd.frost = false) ∧
    (s.draining = false) ∧ ((s.slot n).payload = p) ∧ (Instr.pathClear = Instr.redundSwitch ∧ op = 288 ∧ (s.slot
    n).len = 4 ∧ BitVec.toNat (byteAt p 0) ≤ 1 ∧ cmd = cmdDie 82 (byteAt p 0) ∨ Instr.pathClear = Instr.killTest ∧
    op = 289 ∧ (s.slot n).len = 4 ∧ BitVec.toNat (byteAt p 0) ≤ 1 ∧ cmd = cmdDie 84 (byteAt p 0) ∨ Instr.pathClear =
    Instr.killRelease ∧ op = 290 ∧ (s.slot n).len = 4 ∧ BitVec.toNat (byteAt p 0) ≤ 1 ∧ cmd = cmdDie 83 (byteAt p 0)
    ∨ Instr.pathClear = Instr.pathClear ∧ op = 291 ∧ (s.slot n).len = 4 ∧ BitVec.toNat (byteAt p 0) ≤ 1 ∧ cmd =
    cmdPathClear (byteAt p 0) (BitVec.extractLsb' 0 12 (half p 2)) ∨ Instr.pathClear = Instr.redundStatus ∧ op = 292
    ∧ (s.slot n).len = 0 ∧ cmd = cmdRefStatus) ∧ ((s.lend FLink.cdRef LEnd.first).lost = false)) ∧
  (∃ (op : Half) (n : Fin 4) (s : State), (Serves n op s) ∧ (s.cd.frost = false) ∧ (s.draining = false) ∧ ((s.slot
    n).payload = []) ∧ (Instr.redundStatus = Instr.redundSwitch ∧ op = 288 ∧ (s.slot n).len = 4 ∧ BitVec.toNat
    (byteAt [] 0) ≤ 1 ∧ cmdRefStatus = cmdDie 82 (byteAt [] 0) ∨ Instr.redundStatus = Instr.killTest ∧ op = 289 ∧
    (s.slot n).len = 4 ∧ BitVec.toNat (byteAt [] 0) ≤ 1 ∧ cmdRefStatus = cmdDie 84 (byteAt [] 0) ∨
    Instr.redundStatus = Instr.killRelease ∧ op = 290 ∧ (s.slot n).len = 4 ∧ BitVec.toNat (byteAt [] 0) ≤ 1 ∧
    cmdRefStatus = cmdDie 83 (byteAt [] 0) ∨ Instr.redundStatus = Instr.pathClear ∧ op = 291 ∧ (s.slot n).len = 4 ∧
    BitVec.toNat (byteAt [] 0) ≤ 1 ∧ cmdRefStatus = cmdPathClear (byteAt [] 0) (BitVec.extractLsb' 0 12 (half [] 2))
    ∨ Instr.redundStatus = Instr.redundStatus ∧ op = 292 ∧ (s.slot n).len = 0 ∧ cmdRefStatus = cmdRefStatus) ∧
    ((s.lend FLink.cdRef LEnd.first).lost = false)) ∧
  (∃ (op : Half) (n : Fin 4) (s : State), (Serves n op s) ∧ (s.cd.frost = false) ∧ (s.draining = false) ∧ ((s.slot
    n).payload = []) ∧ (Instr.redundStatus = Instr.redundSwitch ∧ op = 288 ∧ (s.slot n).len = 4 ∧ BitVec.toNat
    (byteAt [] 0) ≤ 1 ∧ cmdRefStatus = cmdDie 82 (byteAt [] 0) ∨ Instr.redundStatus = Instr.killTest ∧ op = 289 ∧
    (s.slot n).len = 4 ∧ BitVec.toNat (byteAt [] 0) ≤ 1 ∧ cmdRefStatus = cmdDie 84 (byteAt [] 0) ∨
    Instr.redundStatus = Instr.killRelease ∧ op = 290 ∧ (s.slot n).len = 4 ∧ BitVec.toNat (byteAt [] 0) ≤ 1 ∧
    cmdRefStatus = cmdDie 83 (byteAt [] 0) ∨ Instr.redundStatus = Instr.pathClear ∧ op = 291 ∧ (s.slot n).len = 4 ∧
    BitVec.toNat (byteAt [] 0) ≤ 1 ∧ cmdRefStatus = cmdPathClear (byteAt [] 0) (BitVec.extractLsb' 0 12 (half [] 2))
    ∨ Instr.redundStatus = Instr.redundStatus ∧ op = 292 ∧ (s.slot n).len = 0 ∧ cmdRefStatus = cmdRefStatus) ∧
    ((s.lend FLink.cdRef LEnd.first).lost = true)) ∧
  (∃ (n : Fin 4) (p : List Byte) (s : State), (Serves n 272 s) ∧ (s.cd.frost = false) ∧ (s.draining = false) ∧
    ((s.slot n).payload = p) ∧ ((s.slot n).len = 8) ∧ (1 ≤ BitVec.toNat (byteAt p 0)) ∧ (BitVec.toNat (byteAt p 0) ≤
    15) ∧ (4 ≤ BitVec.toNat (word p 4)) ∧ (BitVec.toNat (word p 4) ≤ 80000) ∧ (s.position ≠ 0) ∧ (s.cd.driver = some
    Die.la) ∧ (s.burstMask ≠ 0) ∧ ((s.lend Die.la.cdLink LEnd.first).lost = false)) ∧
  (∃ (n : Fin 4) (p : List Byte) (s : State), (Serves n 256 s) ∧ (s.cd.frost = false) ∧ (s.draining = false) ∧
    ((s.slot n).payload = p) ∧ ((s.slot n).len = 4) ∧ (byteAt p 0 = 0) ∧ (s.cd.driver = some Die.la) ∧ ((s.lend
    Die.la.cdLink LEnd.first).lost = false)) ∧
  (∃ (n : Fin 4) (s : State), (Serves n 368 s) ∧ (s.cd.frost = false) ∧ (s.draining = false) ∧ ((s.slot n).len = 0)
    ∧ ((s.lend FLink.cdLa LEnd.first).lost = false) ∧ ((s.lend FLink.cdLb LEnd.first).lost = false)) :=
  ⟨⟨0x20, cmdMapWrite 2 0 (mapSetEntry ([2, 0, 0, 0, 0, 0, 0, 0] ++ entryBytes entryUnused)), 1, [2, 0, 0, 0, 0, 0,
      0, 0] ++ entryBytes entryUnused, asked 0x20 ([2, 0, 0, 0, 0, 0, 0, 0] ++ entryBytes entryUnused) node,
      serves_of (by decide +kernel), by decide +kernel⟩,
    ⟨0x21, cmdMapRead 11, 1, [11, 0, 0, 0], asked 0x21 [11, 0, 0, 0] node, serves_of (by decide +kernel),
      by decide +kernel⟩,
    ⟨0x21, cmdMapRead 11, 1, [11, 0, 0, 0], asked 0x21 [11, 0, 0, 0] ((node.modEnd .cdLa .first fun x =>
      { x with lost := true }).modEnd .cdLb .first fun x => { x with lost := true }), serves_of (by decide +kernel),
      by decide +kernel⟩,
    ⟨0x22, cmdSlotWrite 3 0 (slotSetSlot ([3, 1, 0, 0, 0, 0, 0, 0, 0x40, 1] ++ zeros 14)), 1, [3, 1, 0, 0, 0, 0, 0,
      0, 0x40, 1] ++ zeros 14, asked 0x22 ([3, 1, 0, 0, 0, 0, 0, 0, 0x40, 1] ++ zeros 14) node, serves_of
      (by decide +kernel), by decide +kernel⟩,
    ⟨0x23, cmdSlotRead 15, 1, [15, 0, 0, 0], asked 0x23 [15, 0, 0, 0] node, serves_of (by decide +kernel),
      by decide +kernel⟩,
    ⟨0x50, cmdRegWrite 0x40 (policyBytes node.cd.shadow.store), 1, [4, 0, 0, 0] ++ policyBytes node.cd.shadow.store,
      asked 0x50 ([4, 0, 0, 0] ++ policyBytes node.cd.shadow.store) node, serves_of (by decide +kernel),
      by decide +kernel⟩,
    ⟨0x120, cmdDie 0x52 1, 1, [1, 0, 0, 0], asked 0x120 [1, 0, 0, 0] node, serves_of (by decide +kernel),
      by decide +kernel⟩,
    ⟨0x121, cmdDie 0x54 1, 1, [1, 0, 0, 0], asked 0x121 [1, 0, 0, 0] node, serves_of (by decide +kernel),
      by decide +kernel⟩,
    ⟨0x122, cmdDie 0x53 1, 1, [1, 0, 0, 0], asked 0x122 [1, 0, 0, 0] node, serves_of (by decide +kernel),
      by decide +kernel⟩,
    ⟨0x123, cmdPathClear 1 0xABC, 1, [1, 0, 0x0A, 0xBC], asked 0x123 [1, 0, 0x0A, 0xBC] node, serves_of
      (by decide +kernel), by decide +kernel⟩,
    ⟨0x124, 1, asked 0x124 [] node, serves_of (by decide +kernel), by decide +kernel⟩,
    ⟨0x124, 1, asked 0x124 [] (node.modEnd .cdRef .first fun x => { x with lost := true }), serves_of
      (by decide +kernel), by decide +kernel⟩,
    ⟨1, [3, 0, 0, 0, 0, 0, 0, 8], asked 0x110 [3, 0, 0, 0, 0, 0, 0, 8]
      { numbered with cd := { numbered.cd with healthA := [0, 0x40], reqLit := 4, shadow := { numbered.cd.shadow with map := Vector.replicate 12 { entryUnused with mode := 2, enable := true, setpoint := 0x80, burstEn := true } } } },
      serves_of (by decide +kernel), by decide +kernel⟩,
    ⟨1, [0, 0, 0, 0], asked 0x100 [0, 0, 0, 0] { numbered with cd := { numbered.cd with healthA := [0, 0x40] } },
      serves_of (by decide +kernel), by decide +kernel⟩,
    ⟨1, asked 0x170 [] node, serves_of (by decide +kernel), by decide +kernel⟩⟩

theorem witness_FirmwareLoadsIntoTheOtherBank :
  (∃ (n : Fin 4) (p : List Byte) (s : State), (Serves n 416 s) ∧ (s.cd.frost = false) ∧ (s.draining = false) ∧
    ((s.slot n).payload = p) ∧ (s.cd.nvm.inReset = false) ∧ ((s.slot n).len = 4) ∧ (BitVec.toNat (byteAt p 0) ≤ 1) ∧
    (s.cd.runningBank ≠ some (fwLoadBank p))) ∧
  (∃ (n : Fin 4) (p : List Byte) (s : State), (Serves n 416 s) ∧ (s.cd.frost = false) ∧ (s.draining = false) ∧
    ((s.slot n).payload = p) ∧ (s.cd.nvm.inReset = false) ∧ ((s.slot n).len = 4) ∧ (BitVec.toNat (byteAt p 0) ≤ 1) ∧
    (s.cd.runningBank = some (fwLoadBank p))) ∧
  (∃ (n : Fin 4) (p : List Byte) (s : State), (Serves n 417 s) ∧ (s.cd.frost = false) ∧ (s.draining = false) ∧
    ((s.slot n).payload = p) ∧ (s.cd.nvm.inReset = false) ∧ (p.length = (s.slot n).len) ∧ (12 ≤ p.length) ∧
    (p.length = 8 + BitVec.toNat (half p 4)) ∧ (fwSpan p = true) ∧ (s.fwOwned n = true) ∧ (s.cd.fw.st =
    FwState.loading) ∧ (readsBack (s.cd.nvm.bank s.cd.fw.bankB) (BitVec.toNat (word p 0)) (List.drop 8 p) = true)) ∧
  (∃ (n : Fin 4) (s : State), (Serves n 418 s) ∧ (s.cd.frost = false) ∧ (s.draining = false) ∧ ((s.slot n).payload =
    []) ∧ (s.cd.nvm.inReset = false) ∧ ((s.slot n).len = 0) ∧ (s.fwOwned n = true) ∧ (s.cd.fw.st = FwState.loading)) ∧
  (∃ (n : Fin 4) (s : State), (s.cd.frost = false) ∧ (s.draining = false) ∧ ((s.slot n).payload = []) ∧
    (s.cd.nvm.inReset = false) ∧ (s.regsLive = true) ∧ (s.cd.fw.st = FwState.verifying)) ∧
  (∃ (n : Fin 4) (p : List Byte) (s : State), (Serves n 420 s) ∧ (s.cd.frost = false) ∧ (s.draining = false) ∧
    ((s.slot n).payload = p) ∧ (s.cd.nvm.inReset = false) ∧ ((s.slot n).len = 4) ∧ (word p 0 = 3092686245) ∧
    (s.fwOwned n = true) ∧ (s.cd.fw.st = FwState.verified)) ∧
  (∃ (n : Fin 4) (p : List Byte) (s : State), (Serves n 420 s) ∧ (s.cd.frost = false) ∧ (s.draining = false) ∧
    ((s.slot n).payload = p) ∧ (s.cd.nvm.inReset = false) ∧ ((s.slot n).len = 4) ∧ (word p 0 = 3092686245) ∧
    (s.cd.fw.st ≠ FwState.verified)) :=
  ⟨⟨1, [1, 0, 0, 0], asked 0x1A0 [1, 0, 0, 0] node, serves_of (by decide +kernel), by decide +kernel⟩,
    ⟨1, [0, 0, 0, 0], asked 0x1A0 [0, 0, 0, 0] node, serves_of (by decide +kernel), by decide +kernel⟩,
    ⟨1, [0, 0, 0, 4, 0, 4, 0, 0, 1, 2, 3, 4],
      { asked 0x1A1 [0, 0, 0, 4, 0, 4, 0, 0, 1, 2, 3, 4] node with cd := { (asked 0x1A1 [0, 0, 0, 4, 0, 4, 0, 0, 1, 2, 3, 4] node).cd with fw := ⟨.loading, true, 0xFF, some .host, 0, none⟩ } },
      serves_of (by decide +kernel), by decide +kernel⟩,
    ⟨1,
      { asked 0x1A2 [] node with cd := { (asked 0x1A2 [] node).cd with fw := ⟨.loading, true, 0xFF, some .host, 0, none⟩ } },
      serves_of (by decide +kernel), by decide +kernel⟩,
    ⟨1,
      { asked 0x1A2 [] node with cd := { (asked 0x1A2 [] node).cd with fw := ⟨.verifying, true, 0xFF, some .host, 0, none⟩ } },
      by decide +kernel⟩,
    ⟨1, [0xB8, 0x56, 0xA5, 0xA5],
      { asked 0x1A4 [0xB8, 0x56, 0xA5, 0xA5] node with cd := { (asked 0x1A4 [0xB8, 0x56, 0xA5, 0xA5] node).cd with fw := ⟨.verified, true, 0, some .host, 0, none⟩ } },
      serves_of (by decide +kernel), by decide +kernel⟩,
    ⟨1, [0xB8, 0x56, 0xA5, 0xA5], asked 0x1A4 [0xB8, 0x56, 0xA5, 0xA5] node, serves_of (by decide +kernel),
      by decide +kernel⟩⟩

theorem witness_ReportsSummariesAndLedgerReachNvm :
  (∃ (p : List Byte), (node.regsLive = true) ∧ (node.cd.faults.written = []) ∧ (node.cd.nvm.inReset = false) ∧
    ((node.lend HvDie.la.cdLink LEnd.first).running = true) ∧ (p.length = 16) ∧ (byteAt p 0 = 48) ∧
    (BitVec.extractLsb' 6 2 (byteAt p 1) = 0) ∧ ((conditionCodes.any fun f => decide (f.code = half p 2)) = true) ∧
    (node.condOpen (half p 2) (byteAt p 4) = false) ∧ (node.cd.faults.opened.length < 48)) ∧
  (∃ (s : State) (r : FaultRec) (q : List (FaultRec × Nat)), (s.regsLive = true) ∧ (s.cd.faults.written = []) ∧
    (s.cd.nvm.inReset = false) ∧ (s.cd.faults.summaries = (r, 4000000000) :: q)) ∧
  (∃ (s : State), (s.regsLive = true) ∧ (s.cd.faults.written = []) ∧ (s.cd.nvm.inReset = false) ∧
    (s.cd.faults.dropped ≠ 0)) ∧
  ((node.regsLive = true) ∧ (node.cd.nvm.inReset = false)) ∧
  (∃ (s : State), (s.regsLive = true) ∧ (s.cd.nvm.inReset = false) ∧ (s.cd.nvm.ledger.writtenAt + 1440 ≤
    s.cd.nvm.ledger.book.minutes)) ∧
  (∃ (s : State), (s.regsLive = true) ∧ (s.cd.nvm.inReset = false) ∧ (3 ≤ 4) ∧ (4 < 9) ∧ (s.cd.nvm.writes.length =
    9) ∧ (s.cd.nvm.retention.length = 9) ∧ (retentionLimit ≤ s.cd.nvm.retention.getD 4 0)) :=
  ⟨⟨[0x30, 0x00, 0x03, 0x01, 0x0D, 0, 0, 1, 0, 0, 0, 0, 0, 0, 0x12, 0x34], by decide +kernel⟩,
    ⟨node.modBook fun f =>
      { f with summaries := [(⟨0, 0x0101, 2, 1, 0x0D, 4, 2, 1, 5, 3, [0, 0, 0, 0, 0, 0]⟩, 4000000000)] }, ⟨0,
      0x0101, 2, 1, 0x0D, 4, 2, 1, 5, 3, [0, 0, 0, 0, 0, 0]⟩, [], by decide +kernel⟩,
    ⟨node.modBook fun f => { f with dropped := 3 }, by decide +kernel⟩,
    by decide +kernel,
    ⟨node.modNvm fun v => { v with ledger := { v.ledger with book := { v.ledger.book with minutes := 1440 } } },
      by decide +kernel⟩,
    ⟨node.modNvm fun v => { v with retention := v.retention.set 4 retentionLimit }, by decide +kernel⟩⟩

end Sys2Proof.Tests
end

section
/-! Family 00, scope: a step runs the command at the front of the queue, and no command changes the queue. A shared
operation leaves the queue (`_pending`); a command keeps it when every state it can answer has it (`_keepsQueue`), and a
split of its branches reduces that to the shared operations it calls. -/

namespace Sys2Proof.Machine

/-- Whatever state an outcome answers, its queue of waiting commands is that of `s`. -/
def KeepsQueue (s : State) (o : Host.Outcome State Fault Refusal) : Prop := ∀ t, o = .next t → t.pending = s.pending

@[simp] theorem keepsQueue_next {s t : State} : KeepsQueue s (.next t) ↔ t.pending = s.pending := by simp [KeepsQueue]

@[simp] theorem keepsQueue_fault (s : State) (f : Fault) : KeepsQueue s (.fault f) := by simp [KeepsQueue]

section
variable (s : State)

/-! ### Shared operations: COMMANDs, configuration, line streams -/

@[simp] theorem State.serveCommand_pending (l : FLink) (seq : Byte) (run : State → State × List Byte)
    (hk : ∀ t, (run t).1.pending = t.pending) :
    (s.serveCommand l seq run).pending = s.pending := by
  unfold State.serveCommand; split <;> simp [hk]
@[simp] theorem State.rewriteMaps_pending : s.rewriteMaps.pending = s.pending :=
  foldl_pending _ (fun t p => by simp) _ s
@[simp] theorem State.dropIngress_pending (p) : (s.dropIngress p).pending = s.pending := by
  simp only [State.dropIngress]; split <;> simp
@[simp] theorem State.loseIngress_pending (p) : (s.loseIngress p).pending = s.pending := by simp [State.loseIngress]
@[simp] theorem State.stopStream_pending (p) : (s.stopStream p).pending = s.pending := by simp [State.stopStream]
@[simp] theorem State.endCut_pending (p) : (s.endCut p).pending = s.pending :=
  State.forPorts_pending _ _ (fun q t => t.modPort_pending q _) s
@[simp] theorem State.makeWhole_pending (p) : (s.makeWhole p).pending = s.pending :=
  (State.forPorts_pending _ _ (fun q t => t.modPort_pending q _) _).trans (s.endCut_pending p)
@[simp] theorem State.finishIngress_pending (p : Port) (c : Ingress) (take : State → State)
    (hk : ∀ t, (take t).pending = t.pending) :
    (s.finishIngress p c take).pending = s.pending := by
  unfold State.finishIngress; split <;> simp [hk]
@[simp] theorem State.startIngress_pending (p f whole taken) (onward : State → State × Bool) (take : State → State)
    (ho : ∀ t, (onward t).1.pending = t.pending) (hk : ∀ t, (take t).pending = t.pending) :
    (s.startIngress p f whole taken onward take).pending = s.pending := by
  simp only [State.startIngress]; split <;> simp [hk, ho]
@[simp] theorem State.sendCommitState_pending (w) : (s.sendCommitState w).pending = s.pending := by
  unfold State.sendCommitState; split <;> simp
@[simp] theorem State.prepareSwitch_pending (h c boundary outside) :
    (s.prepareSwitch h c boundary outside).pending = s.pending := by simp [State.prepareSwitch]

/-! ### Ingress checks, inputs, verdict timers and inauguration -/

@[simp] theorem State.gate_pending (p : Port) (ownEpoch : Bool) (h : LineHdr) (k : State → State)
    (hk : ∀ t, (k t).pending = t.pending) :
    (s.gate p ownEpoch h k).pending = s.pending := by
  unfold State.gate; split <;> simp [hk]
@[simp] theorem State.gatePooled_pending (p : Port) (f : LineFrame) (k : State → State)
    (hk : ∀ t, (k t).pending = t.pending) :
    (s.gatePooled p f k).pending = s.pending := by
  unfold State.gatePooled; split <;> simp [hk]
@[simp] theorem State.sortPooled_pending (p : Port) (f : LineFrame) (whole : Bool) (take : State → State)
    (hk : ∀ t, (take t).pending = t.pending) :
    (s.sortPooled p f whole take).pending = s.pending := by
  unfold State.sortPooled; split <;> simp [hk]
@[simp] theorem State.ingress_pending (p : Port) (f : LineFrame) (whole : Bool) (take : State → State)
    (hk : ∀ t, (take t).pending = t.pending) :
    (s.ingress p f whole take).pending = s.pending := by
  simp only [State.ingress]; split <;> simp [hk]
@[simp] theorem State.classify_pending (ua) : (s.classify ua).2.pending = s.pending := by
  simp only [State.classify]; split <;> simp
@[simp] theorem State.sampleInput_pending (get set ua) : (s.sampleInput get set ua).pending = s.pending := by
  simp [State.sampleInput]
@[simp] theorem execVinputSample_keepsQueue (cabAct cplFore cplAft aux1 aux2) :
    KeepsQueue s (execVinputSample cabAct cplFore cplAft aux1 aux2 s) := by simp [execVinputSample]
@[simp] theorem execVinputSend_keepsQueue : KeepsQueue s (execVinputSend s) := by simp [execVinputSend]
@[simp] theorem execVinputReceived_keepsQueue (payload) : KeepsQueue s (execVinputReceived payload s) := by
  simp only [execVinputReceived]; (repeat' split) <;> simp
@[simp] theorem execVinputStale_keepsQueue : KeepsQueue s (execVinputStale s) := by
  unfold execVinputStale; split <;> simp
@[simp] theorem execJoiningTimeout_keepsQueue (e) : KeepsQueue s (execJoiningTimeout e s) := by
  simp only [execJoiningTimeout]; split <;> simp
@[simp] theorem execHoldingTimeout_keepsQueue (e) : KeepsQueue s (execHoldingTimeout e s) := by
  simp only [execHoldingTimeout]; split <;> simp
@[simp] theorem execFencedBrokenTimeout_keepsQueue (e) : KeepsQueue s (execFencedBrokenTimeout e s) := by
  unfold execFencedBrokenTimeout; (repeat' split) <;> simp
@[simp] theorem execBeaconSend_keepsQueue : KeepsQueue s (execBeaconSend s) := by
  unfold execBeaconSend; split <;> simp
@[simp] theorem execBeaconEntryAged_keepsQueue (id) : KeepsQueue s (execBeaconEntryAged id s) := by
  unfold execBeaconEntryAged; split <;> simp
@[simp] theorem execInaugurationCall_keepsQueue : KeepsQueue s (execInaugurationCall s) := by
  simp only [execInaugurationCall]; (repeat' split) <;> simp
@[simp] theorem execCallReceived_keepsQueue (p h f) : KeepsQueue s (execCallReceived p h f s) := by
  unfold execCallReceived; split <;> simp
@[simp] theorem execDeferredLaunch_keepsQueue : KeepsQueue s (execDeferredLaunch s) := by
  simp only [execDeferredLaunch]; (repeat' split) <;> simp
@[simp] theorem execFrontReceived_keepsQueue (p h f) : KeepsQueue s (execFrontReceived p h f s) := by
  unfold execFrontReceived; split <;> simp
@[simp] theorem execCutReceived_keepsQueue (p h f) : KeepsQueue s (execCutReceived p h f s) := by
  unfold execCutReceived; split <;> simp
@[simp] theorem execCommitPhase0Received_keepsQueue (p h c) : KeepsQueue s (execCommitPhase0Received p h c s) := by
  unfold execCommitPhase0Received
  rw [keepsQueue_next, State.gate_pending]
  · simp
  · intro t
    dsimp only; (repeat' split) <;> simp
@[simp] theorem execPhase1Send_keepsQueue : KeepsQueue s (execPhase1Send s) := by
  unfold execPhase1Send; (repeat' split) <;> simp
@[simp] theorem State.takePhase1_pending (h c) : (s.takePhase1 h c).pending = s.pending := by
  simp only [State.takePhase1]; split <;> simp
@[simp] theorem execCommitPhase1Received_keepsQueue (p h c) : KeepsQueue s (execCommitPhase1Received p h c s) := by
  simp [execCommitPhase1Received]
@[simp] theorem State.applySwitch_pending (w) : (s.applySwitch w).pending = s.pending := by
  unfold State.applySwitch
  extract_lets was numbered standing raised set cab lit cleared renumbered rated stale committed powered
  have hlit : lit.pending = s.pending := by simp only [lit]; split <;> simp [cab, set, standing]
  have hcommitted : committed.pending = lit.pending := by simp [committed, stale, rated, renumbered, cleared]
  have hpowered : powered.pending = committed.pending := by simp only [powered]; (repeat' split) <;> simp
  simp [hpowered, hcommitted, hlit]
@[simp] theorem State.runSwitch_pending (w) : (s.runSwitch w).pending = s.pending := by simp [State.runSwitch]
@[simp] theorem execCommitApply_keepsQueue : KeepsQueue s (execCommitApply s) := by
  unfold execCommitApply; (repeat' split) <;> simp
@[simp] theorem execCalledTimeout_keepsQueue : KeepsQueue s (execCalledTimeout s) := by
  unfold execCalledTimeout; split <;> simp
@[simp] theorem execRoundTimeout_keepsQueue : KeepsQueue s (execRoundTimeout s) := by
  simp only [execRoundTimeout]; split <;> simp
@[simp] theorem execGhostUpdate_keepsQueue (p) : KeepsQueue s (execGhostUpdate p s) := by
  unfold execGhostUpdate; (repeat' split) <;> simp

/-! ### Alarms, flooding, credits, carried frames and train time -/

@[simp] theorem execLineAlarmReceived_keepsQueue (p h a) : KeepsQueue s (execLineAlarmReceived p h a s) := by
  simp only [execLineAlarmReceived]; (repeat' split) <;> simp
@[simp] theorem execAlarmFrameReceived_keepsQueue (d seq record) :
    KeepsQueue s (execAlarmFrameReceived d seq record s) := by
  simp only [execAlarmFrameReceived]; (repeat' split) <;> simp
@[simp] theorem execAlarmRepeat_keepsQueue : KeepsQueue s (execAlarmRepeat s) := by
  unfold execAlarmRepeat; (repeat' split) <;> simp
@[simp] theorem execAlarmEntryStale_keepsQueue (id) : KeepsQueue s (execAlarmEntryStale id s) := by
  unfold execAlarmEntryStale; split <;> simp
@[simp] theorem execAlarmSlotInsert_keepsQueue (p) : KeepsQueue s (execAlarmSlotInsert p s) := by
  unfold execAlarmSlotInsert; split <;> simp
@[simp] theorem execFloodKeyAged_keepsQueue : KeepsQueue s (execFloodKeyAged s) := by
  unfold execFloodKeyAged; split <;> simp
@[simp] theorem execPortCycleEnd_keepsQueue (p) : KeepsQueue s (execPortCycleEnd p s) := by
  unfold execPortCycleEnd; split <;> simp
@[simp] theorem execBeaconReceived_keepsQueue (p h b) : KeepsQueue s (execBeaconReceived p h b s) := by
  unfold execBeaconReceived; split <;> simp
@[simp] theorem execCreditReceived_keepsQueue (p h c) : KeepsQueue s (execCreditReceived p h c s) := by
  unfold execCreditReceived; split <;> simp
@[simp] theorem execCreditSend_keepsQueue (p) : KeepsQueue s (execCreditSend p s) := by
  unfold execCreditSend; split <;> simp
@[simp] theorem execFrameTransmitStart_keepsQueue (p) : KeepsQueue s (execFrameTransmitStart p s) := by
  simp [execFrameTransmitStart]
@[simp] theorem State.sendCarried_pending (c dst) : (s.sendCarried c dst).pending = s.pending := by
  unfold State.sendCarried
  split
  · split <;> simp
  · exact (State.forPorts_pending _ _ (fun q t => t.modPort_pending q _) _).trans (by simp)
@[simp] theorem execLocalFrameReceived_keepsQueue (i frame fcsOk) :
    KeepsQueue s (execLocalFrameReceived i frame fcsOk s) := by
  simp only [execLocalFrameReceived]; (repeat' split) <;> simp
@[simp] theorem execCarriedReceived_keepsQueue (p h c whole) :
    KeepsQueue s (execCarriedReceived p h c whole s) := by simp [execCarriedReceived]
@[simp] theorem execMacEntryAged_keepsQueue (mac) : KeepsQueue s (execMacEntryAged mac s) := by
  unfold execMacEntryAged; split <;> simp
@[simp] theorem execMgmtRequestReceived_keepsQueue (p h m whole) :
    KeepsQueue s (execMgmtRequestReceived p h m whole s) := by simp [execMgmtRequestReceived]
@[simp] theorem State.followRate_pending (p t at_) : (s.followRate p t at_).pending = s.pending := by
  simp only [State.followRate]; split <;> simp
@[simp] theorem State.followTime_pending (p t at_) : (s.followTime p t at_).pending = s.pending := by
  simp [State.followTime]
@[simp] theorem execLineTimeReceived_keepsQueue (p h f since) : KeepsQueue s (execLineTimeReceived p h f since s) := by
  simp only [execLineTimeReceived]
  rw [keepsQueue_next, State.gate_pending]
  · simp
  · intro t
    (repeat' split) <;> simp
@[simp] theorem execTimeSend_keepsQueue : KeepsQueue s (execTimeSend s) := by
  unfold execTimeSend; split <;> simp
@[simp] theorem execTimeEchoRequest_keepsQueue (p) : KeepsQueue s (execTimeEchoRequest p s) := by
  unfold execTimeEchoRequest; split <;> simp
@[simp] theorem execTrainTimeStep_keepsQueue : KeepsQueue s (execTrainTimeStep s) := by
  unfold execTrainTimeStep; split <;> simp
@[simp] theorem execHoldoverEnter_keepsQueue : KeepsQueue s (execHoldoverEnter s) := by
  simp only [execHoldoverEnter]; (repeat' split) <;> simp

/-! ### Lanes and codewords -/

@[simp] theorem State.toDetect_pending (p) : (s.toDetect p).pending = s.pending := by simp [State.toDetect]
@[simp] theorem State.loseLane_pending (p) : (s.loseLane p).pending = s.pending := by simp [State.loseLane]
@[simp] theorem State.enterBlink_pending (p) : (s.enterBlink p).pending = s.pending := by
  unfold State.enterBlink; split <;> simp
@[simp] theorem execLaneSignalChange_keepsQueue (p los detector) :
    KeepsQueue s (execLaneSignalChange p los detector s) := by
  simp only [execLaneSignalChange]; (repeat' split) <;> simp
@[simp] theorem execDetectComplete_keepsQueue (p) : KeepsQueue s (execDetectComplete p s) := by
  simp only [execDetectComplete]; split <;> simp
@[simp] theorem execTrainingFrameReceived_keepsQueue (p ui adapted) :
    KeepsQueue s (execTrainingFrameReceived p ui adapted s) := by
  unfold execTrainingFrameReceived; split <;> simp
@[simp] theorem execAcquireTimeout_keepsQueue (p) : KeepsQueue s (execAcquireTimeout p s) := by
  simp only [execAcquireTimeout]; split <;> simp
@[simp] theorem execTrainComplete_keepsQueue (p) : KeepsQueue s (execTrainComplete p s) := by
  simp only [execTrainComplete]; split <;> simp
@[simp] theorem execTrainTimeout_keepsQueue (p) : KeepsQueue s (execTrainTimeout p s) := by
  simp only [execTrainTimeout]; split <;> simp
@[simp] theorem execTrialEnd_keepsQueue (p) : KeepsQueue s (execTrialEnd p s) := by
  simp only [execTrialEnd]; split <;> simp
@[simp] theorem execVerdictComplete_keepsQueue (p) : KeepsQueue s (execVerdictComplete p s) := by
  simp only [execVerdictComplete]; split <;> simp
@[simp] theorem execVerdictTimeout_keepsQueue (p) : KeepsQueue s (execVerdictTimeout p s) := by
  simp only [execVerdictTimeout]; split <;> simp
@[simp] theorem execBackoffEnd_keepsQueue (p) : KeepsQueue s (execBackoffEnd p s) := by
  simp only [execBackoffEnd]; split <;> simp
@[simp] theorem execCdrLockLost_keepsQueue (p) : KeepsQueue s (execCdrLockLost p s) := by simp [execCdrLockLost]
@[simp] theorem execFastRelock_keepsQueue (p) : KeepsQueue s (execFastRelock p s) := by
  simp only [execFastRelock]; split <;> simp
@[simp] theorem execBlinkTimeout_keepsQueue (p) : KeepsQueue s (execBlinkTimeout p s) := by
  simp only [execBlinkTimeout]; split <;> simp
@[simp] theorem execLaneParamRefresh_keepsQueue (p params) : KeepsQueue s (execLaneParamRefresh p params s) := by
  unfold execLaneParamRefresh; split <;> simp
@[simp] theorem execEyeScanDone_keepsQueue (counts) : KeepsQueue s (execEyeScanDone counts s) := by
  simp only [execEyeScanDone]; split <;> simp
@[simp] theorem State.takeArrival_pending (p a) : (s.takeArrival p a).pending = s.pending := by
  simp only [State.takeArrival]; (repeat' split) <;> simp
@[simp] theorem State.takeCodeword_pending (p d) : (s.takeCodeword p d).pending = s.pending := by
  simp [State.takeCodeword]
@[simp] theorem State.badCodeword_pending (p) : (s.badCodeword p).pending = s.pending := by simp [State.badCodeword]
@[simp] theorem execCodewordReceived_keepsQueue (p symbols) : KeepsQueue s (execCodewordReceived p symbols s) := by
  simp only [execCodewordReceived]; (repeat' split) <;> simp

/-! ### Crossings and isolated links -/

@[simp] theorem execCrossingTransfer_keepsQueue (x data sclk) :
    KeepsQueue s (execCrossingTransfer x data sclk s) := by
  unfold execCrossingTransfer; (repeat' split) <;> simp
@[simp] theorem execHeartbeatSend_keepsQueue (l e) : KeepsQueue s (execHeartbeatSend l e s) := by
  simp only [execHeartbeatSend]; split <;> simp
@[simp] theorem execLinkLost_keepsQueue (l e) : KeepsQueue s (execLinkLost l e s) := by
  simp only [execLinkLost]; split <;> simp
@[simp] theorem execLinkStartTimeout_keepsQueue (l e) : KeepsQueue s (execLinkStartTimeout l e s) := by
  simp only [execLinkStartTimeout]; split <;> simp
@[simp] theorem execHeartbeatMissed_keepsQueue (l e) : KeepsQueue s (execHeartbeatMissed l e s) := by
  simp only [execHeartbeatMissed]; split <;> simp
@[simp] theorem execLinkFrameDiscarded_keepsQueue (l e positive codes) :
    KeepsQueue s (execLinkFrameDiscarded l e positive codes s) := by
  unfold execLinkFrameDiscarded; (repeat' split) <;> simp
@[simp] theorem execLinkErrorsClear_keepsQueue (l) : KeepsQueue s (execLinkErrorsClear l s) := by
  simp only [execLinkErrorsClear]; split <;> simp
@[simp] theorem execHeartbeatReceived_keepsQueue (l e cycle st rxerr) :
    KeepsQueue s (execHeartbeatReceived l e cycle st rxerr s) := by
  simp only [execHeartbeatReceived]; split <;> simp
@[simp] theorem execAlarmRepeatInsertion_keepsQueue (d) : KeepsQueue s (execAlarmRepeatInsertion d s) := by
  simp only [execAlarmRepeatInsertion]; split <;> simp
@[simp] theorem execLevelLinkSilent_keepsQueue (l) : KeepsQueue s (execLevelLinkSilent l s) := by
  unfold execLevelLinkSilent; split <;> simp
@[simp] theorem execTimeLinkDelayMeasure_keepsQueue (d) : KeepsQueue s (execTimeLinkDelayMeasure d s) := by
  unfold execTimeLinkDelayMeasure; split <;> simp
@[simp] theorem execTimeLinkSend_keepsQueue (d) : KeepsQueue s (execTimeLinkSend d s) := by
  unfold execTimeLinkSend; split <;> simp
@[simp] theorem execTimeLinkEchoReceived_keepsQueue (d turn elapsed) :
    KeepsQueue s (execTimeLinkEchoReceived d turn elapsed s) := by
  unfold execTimeLinkEchoReceived; (repeat' split) <;> simp
@[simp] theorem execLampTimeFrameReceived_keepsQueue (d tt echoReq stepped turn) :
    KeepsQueue s (execLampTimeFrameReceived d tt echoReq stepped turn s) := by
  simp only [execLampTimeFrameReceived]; split <;> simp

/-! ### Lamp drive -/

@[simp] theorem State.dieCommand_keepsQueue (d : Die) (seq : Byte) (run : State → State × List Byte)
    (hk : ∀ t, (run t).1.pending = t.pending) :
    KeepsQueue s (s.dieCommand d seq run) := by
  unfold State.dieCommand; split <;> simp [hk]
@[simp] theorem execLampIdentity_keepsQueue (d seq id) : KeepsQueue s (execLampIdentity d seq id s) := by
  simp [execLampIdentity]
@[simp] theorem execMapWrite_keepsQueue (d seq channel effect entry) :
    KeepsQueue s (execMapWrite d seq channel effect entry s) := by simp [execMapWrite]
@[simp] theorem execMapRead_keepsQueue (d seq channel) : KeepsQueue s (execMapRead d seq channel s) := by
  simp only [execMapRead]; split <;> simp
@[simp] theorem execSlotWrite_keepsQueue (d seq slot count effect steps) :
    KeepsQueue s (execSlotWrite d seq slot count effect steps s) := by simp [execSlotWrite]
@[simp] theorem execSlotRead_keepsQueue (d seq slot) : KeepsQueue s (execSlotRead d seq slot s) := by
  unfold execSlotRead; split <;> simp
@[simp] theorem execStateCmd_keepsQueue (d seq reqLit effect epoch) :
    KeepsQueue s (execStateCmd d seq reqLit effect epoch s) := by simp [execStateCmd]
@[simp] theorem execScene_keepsQueue (d seq scene effect) : KeepsQueue s (execScene d seq scene effect s) := by
  simp [execScene]
@[simp] theorem execLampBurst_keepsQueue (d seq slot burstCycle mask) :
    KeepsQueue s (execLampBurst d seq slot burstCycle mask s) := by simp [execLampBurst]
@[simp] theorem execStatus_keepsQueue (d seq) : KeepsQueue s (execStatus d seq s) := by simp [execStatus]
@[simp] theorem execCommandEffectApply_keepsQueue (d) : KeepsQueue s (execCommandEffectApply d s) := by
  simp only [execCommandEffectApply]; split <;> simp
@[simp] theorem execLampCycleBoundary_keepsQueue (d m ready) :
    KeepsQueue s (execLampCycleBoundary d m ready s) := by
  simp only [execLampCycleBoundary]; split <;> simp
@[simp] theorem execOvercurrentCut_keepsQueue (d c senseUv heldNs) :
    KeepsQueue s (execOvercurrentCut d c senseUv heldNs s) := by
  simp only [execOvercurrentCut]; split <;> simp
@[simp] theorem execBurstStart_keepsQueue (d) : KeepsQueue s (execBurstStart d s) := by
  simp only [execBurstStart]; (repeat' split) <;> simp
@[simp] theorem execBurstEnd_keepsQueue (d) : KeepsQueue s (execBurstEnd d s) := by
  simp only [execBurstEnd]; (repeat' split) <;> simp
@[simp] theorem execLampSyncSend_keepsQueue : KeepsQueue s (execLampSyncSend s) := by
  unfold execLampSyncSend; split <;> simp
@[simp] theorem execLampSyncReceived_keepsQueue (p h l) : KeepsQueue s (execLampSyncReceived p h l s) := by
  simp [execLampSyncReceived]

/-! ### Proof of light -/

@[simp] theorem execCurrentSample_keepsQueue (d senseUv) : KeepsQueue s (execCurrentSample d senseUv s) := by
  simp only [execCurrentSample]; split <;> simp
@[simp] theorem execLightWindowClose_keepsQueue (d photo) : KeepsQueue s (execLightWindowClose d photo s) := by
  simp only [execLightWindowClose]; split <;> simp
@[simp] theorem execLightViewDisagrees_keepsQueue (d c) : KeepsQueue s (execLightViewDisagrees d c s) := by
  simp only [execLightViewDisagrees]; split <;> simp
@[simp] theorem execLightMarginLow_keepsQueue (d) : KeepsQueue s (execLightMarginLow d s) := by
  simp only [execLightMarginLow]; split <;> simp
@[simp] theorem execProvingReportSend_keepsQueue (d) : KeepsQueue s (execProvingReportSend d s) := by
  simp only [execProvingReportSend]; split <;> simp
@[simp] theorem State.cdReport_keepsQueue (l : FLink) (kind : Byte) (payload : List Byte) (k : State → State)
    (hk : ∀ t, (k t).pending = t.pending) :
    KeepsQueue s (s.cdReport l kind payload k) := by
  unfold State.cdReport; (repeat' split) <;> simp [hk]
@[simp] theorem execProvingReportReceived_keepsQueue (d seq payload) :
    KeepsQueue s (execProvingReportReceived d seq payload s) :=
  s.cdReport_keepsQueue _ _ _ _ fun t => t.modCd_pending _

/-! ### The referee and the two feeds -/

@[simp] theorem execRefReset_keepsQueue : KeepsQueue s (execRefReset s) := by simp [execRefReset]
@[simp] theorem execRefStartDecision_keepsQueue : KeepsQueue s (execRefStartDecision s) := by
  simp only [execRefStartDecision]; (repeat' split) <;> simp
@[simp] theorem execNoGrantTimeout_keepsQueue : KeepsQueue s (execNoGrantTimeout s) := by
  simp only [execNoGrantTimeout]; (repeat' split) <;> simp
@[simp] theorem execNoGrantRetry_keepsQueue : KeepsQueue s (execNoGrantRetry s) := by
  simp only [execNoGrantRetry]; (repeat' split) <;> simp
@[simp] theorem execClearTimeout_keepsQueue : KeepsQueue s (execClearTimeout s) := by
  unfold execClearTimeout; split <;> simp
@[simp] theorem execKillSettled_keepsQueue : KeepsQueue s (execKillSettled s) := by
  unfold execKillSettled; split <;> simp
@[simp] theorem execDriveStartTimeout_keepsQueue : KeepsQueue s (execDriveStartTimeout s) := by
  unfold execDriveStartTimeout; split <;> simp
@[simp] theorem execDriveStateTaken_keepsQueue (d driving words) :
    KeepsQueue s (execDriveStateTaken d driving words s) := by
  simp only [execDriveStateTaken]; (repeat' split) <;> simp
@[simp] theorem execGrantTaken_keepsQueue (d words) : KeepsQueue s (execGrantTaken d words s) := by
  simp only [execGrantTaken]; (repeat' split) <;> simp
@[simp] theorem execWithdrawnTaken_keepsQueue (d words) : KeepsQueue s (execWithdrawnTaken d words s) := by
  simp only [execWithdrawnTaken]; (repeat' split) <;> simp
@[simp] theorem execKillAssertedTaken_keepsQueue (d words) : KeepsQueue s (execKillAssertedTaken d words s) := by
  simp only [execKillAssertedTaken]; (repeat' split) <;> simp
@[simp] theorem execKillReleasedTaken_keepsQueue (d words) : KeepsQueue s (execKillReleasedTaken d words s) := by
  simp only [execKillReleasedTaken]; split <;> simp
@[simp] theorem execDieBootEnd_keepsQueue (d clockBad supplyBad frontBad badWords badHold) :
    KeepsQueue s (execDieBootEnd d clockBad supplyBad frontBad badWords badHold s) := by
  simp only [execDieBootEnd]; split <;> simp
@[simp] theorem execLampDieSelfCheckFailed_keepsQueue (d clockBad supplyBad frontBad) :
    KeepsQueue s (execLampDieSelfCheckFailed d clockBad supplyBad frontBad s) := by
  unfold execLampDieSelfCheckFailed; split <;> simp
@[simp] theorem execDieHealthSend_keepsQueue (d) : KeepsQueue s (execDieHealthSend d s) := by
  simp only [execDieHealthSend]; (repeat' split) <;> simp
@[simp] theorem execDieHealthReceived_keepsQueue (d atRef seq payload) :
    KeepsQueue s (execDieHealthReceived d atRef seq payload s) := by
  unfold execDieHealthReceived; (repeat' split) <;> simp
@[simp] theorem execMirrorSend_keepsQueue : KeepsQueue s (execMirrorSend s) := by
  simp only [execMirrorSend]; (repeat' split) <;> simp
@[simp] theorem execMirrorReceived_keepsQueue (d m) : KeepsQueue s (execMirrorReceived d m s) := by
  simp only [execMirrorReceived]; split <;> simp
@[simp] theorem execMirrorFrameMissed_keepsQueue (d) : KeepsQueue s (execMirrorFrameMissed d s) := by
  simp only [execMirrorFrameMissed]; (repeat' split) <;> simp
@[simp] theorem execMirrorDisagrees_keepsQueue (d) : KeepsQueue s (execMirrorDisagrees d s) := by
  simp only [execMirrorDisagrees]; split <;> simp
@[simp] theorem execHoldExpiry_keepsQueue (d) : KeepsQueue s (execHoldExpiry d s) := by
  simp only [execHoldExpiry]; split <;> simp
@[simp] theorem execFallbackEntry_keepsQueue (d) : KeepsQueue s (execFallbackEntry d s) := by
  simp only [execFallbackEntry]; split <;> simp
@[simp] theorem execOrphanTakeover_keepsQueue (d) : KeepsQueue s (execOrphanTakeover d s) := by
  unfold execOrphanTakeover; split <;> simp
@[simp] theorem State.refCommand_keepsQueue (seq : Byte) (run : State → State × List Byte)
    (hk : ∀ t, (run t).1.pending = t.pending) :
    KeepsQueue s (s.refCommand seq run) := by
  unfold State.refCommand; split <;> simp [hk]
@[simp] theorem execRefConfig_keepsQueue (seq policy) : KeepsQueue s (execRefConfig seq policy s) := by
  simp [execRefConfig]
@[simp] theorem execRefStatus_keepsQueue (seq) : KeepsQueue s (execRefStatus seq s) := by simp [execRefStatus]
@[simp] theorem execSwitch_keepsQueue (seq die) : KeepsQueue s (execSwitch seq die s) := by
  unfold execSwitch; split <;> simp
@[simp] theorem execRefKillRelease_keepsQueue (seq die) : KeepsQueue s (execRefKillRelease seq die s) :=
  s.refCommand_keepsQueue _ _ fun t => by (repeat' split) <;> simp
@[simp] theorem execRefKillTest_keepsQueue (seq die) : KeepsQueue s (execRefKillTest seq die s) :=
  s.refCommand_keepsQueue _ _ fun t => by (repeat' split) <;> simp
@[simp] theorem execKillTestEnd_keepsQueue : KeepsQueue s (execKillTestEnd s) := by
  unfold execKillTestEnd; split <;> simp
@[simp] theorem execRefPathClear_keepsQueue (seq die mask) : KeepsQueue s (execRefPathClear seq die mask s) := by
  unfold execRefPathClear; split <;> simp
@[simp] theorem execSwitchReportReceived_keepsQueue (seq payload) :
    KeepsQueue s (execSwitchReportReceived seq payload s) := by simp [execSwitchReportReceived]
@[simp] theorem execKillTestReportReceived_keepsQueue (seq payload) :
    KeepsQueue s (execKillTestReportReceived seq payload s) := by simp [execKillTestReportReceived]

/-! ### Energy store and shutdown -/

@[simp] theorem execStoreChargeControl_keepsQueue (d storeMv) :
    KeepsQueue s (execStoreChargeControl d storeMv s) := by
  unfold execStoreChargeControl; split <;> simp
@[simp] theorem execStoreMeasureDone_keepsQueue (d chargeUc startMv endMv esrStepUv) :
    KeepsQueue s (execStoreMeasureDone d chargeUc startMv endMv esrStepUv s) := by
  simp only [execStoreMeasureDone]; (repeat' split) <;> simp
@[simp] theorem execStoreBleedDone_keepsQueue (d) : KeepsQueue s (execStoreBleedDone d s) := by
  unfold execStoreBleedDone; split <;> simp
@[simp] theorem execStoreOverdrawn_keepsQueue (d) : KeepsQueue s (execStoreOverdrawn d s) := by
  simp only [execStoreOverdrawn]; (repeat' split) <;> simp
@[simp] theorem execFeedLost_keepsQueue (d feedDv heldNs) : KeepsQueue s (execFeedLost d feedDv heldNs s) := by
  simp only [execFeedLost]; split <;> simp
@[simp] theorem execFeedDip_keepsQueue (d feedDv heldNs) : KeepsQueue s (execFeedDip d feedDv heldNs s) := by
  unfold execFeedDip; split <;> simp
@[simp] theorem execRideEnd_keepsQueue (d) : KeepsQueue s (execRideEnd d s) := by
  simp only [execRideEnd]; split <;> simp
@[simp] theorem execLastLightEntry_keepsQueue (d) : KeepsQueue s (execLastLightEntry d s) := by
  simp only [execLastLightEntry]; split <;> simp
@[simp] theorem execShutdownTimeout_keepsQueue (d) : KeepsQueue s (execShutdownTimeout d s) := by
  simp only [execShutdownTimeout]; (repeat' split) <;> simp
@[simp] theorem execFinalRecordWritten_keepsQueue (d) : KeepsQueue s (execFinalRecordWritten d s) := by
  simp only [execFinalRecordWritten]; (repeat' split) <;> simp
@[simp] theorem execFeedPresent_keepsQueue (d feedDv heldNs) :
    KeepsQueue s (execFeedPresent d feedDv heldNs s) := by
  simp only [execFeedPresent]; (repeat' split) <;> simp
@[simp] theorem execLampDieResetRelease_keepsQueue (d storeMv) :
    KeepsQueue s (execLampDieResetRelease d storeMv s) := by simp [execLampDieResetRelease]

/-! ### Calm, Gust, power and Frost -/

@[simp] theorem State.laneOff_pending (p) : (s.laneOff p).pending = s.pending := by simp [State.laneOff]
@[simp] theorem State.lanesOff_pending : s.lanesOff.pending = s.pending := by simp [State.lanesOff]
@[simp] theorem State.lanesDetect_pending (ps) : (s.lanesDetect ps).pending = s.pending := by simp [State.lanesDetect]
@[simp] theorem State.takePower_pending (p) : (s.takePower p).pending = s.pending := by
  unfold State.takePower; split <;> simp
@[simp] theorem State.enterCalm_pending : s.enterCalm.pending = s.pending := by simp [State.enterCalm]
@[simp] theorem State.endProbe_pending (e) : (s.endProbe e).pending = s.pending := by
  unfold State.endProbe; split <;> simp
@[simp] theorem State.endProbes_pending : s.endProbes.pending = s.pending := by simp [State.endProbes]
@[simp] theorem State.enterFrost_pending : s.enterFrost.pending = s.pending := by simp [State.enterFrost]
@[simp] theorem execPowerStateFollow_keepsQueue : KeepsQueue s (execPowerStateFollow s) := by
  simp only [execPowerStateFollow]; (repeat' split) <;> simp
@[simp] theorem execWakeTargetTimeout_keepsQueue : KeepsQueue s (execWakeTargetTimeout s) := by
  unfold execWakeTargetTimeout; (repeat' split) <;> simp
@[simp] theorem execSleepAnswer_keepsQueue : KeepsQueue s (execSleepAnswer s) := by
  unfold execSleepAnswer; split <;> simp
@[simp] theorem execDrainComplete_keepsQueue : KeepsQueue s (execDrainComplete s) := by
  unfold execDrainComplete; split <;> simp
@[simp] theorem execCalmEntry_keepsQueue : KeepsQueue s (execCalmEntry s) := by
  unfold execCalmEntry; split <;> simp
@[simp] theorem execGustRecognised_keepsQueue (p segments others) :
    KeepsQueue s (execGustRecognised p segments others s) := by
  unfold execGustRecognised; (repeat' split) <;> simp
@[simp] theorem State.sendGust_pending (g ps) : (s.sendGust g ps).pending = s.pending :=
  (State.forPorts_pending _ _ (fun q t => t.modLane_pending q _) _).trans (s.emits_pending _)
@[simp] theorem execGustBurstStart_keepsQueue : KeepsQueue s (execGustBurstStart s) := by
  unfold execGustBurstStart; (repeat' split) <;> simp
@[simp] theorem execGustBurstEnd_keepsQueue : KeepsQueue s (execGustBurstEnd s) := by
  unfold execGustBurstEnd; (repeat' split) <;> simp
@[simp] theorem execProbeBurst_keepsQueue (e) : KeepsQueue s (execProbeBurst e s) := by
  unfold execProbeBurst; (repeat' split) <;> simp
@[simp] theorem execPowerWordAck_keepsQueue : KeepsQueue s (execPowerWordAck s) := by
  unfold execPowerWordAck; split <;> simp
@[simp] theorem execFailsafeToCalm_keepsQueue : KeepsQueue s (execFailsafeToCalm s) := by
  unfold execFailsafeToCalm; split <;> simp
@[simp] theorem execLastWordEntry_keepsQueue (vinMv heldNs) : KeepsQueue s (execLastWordEntry vinMv heldNs s) := by
  unfold execLastWordEntry; split <;> simp

/-! ### Registers and level-link rows -/

@[simp] theorem execRegRead_keepsQueue (d seq count address) :
    KeepsQueue s (execRegRead d seq count address s) := by
  unfold execRegRead; split <;> simp
@[simp] theorem execRegWrite_keepsQueue (d seq count address data) :
    KeepsQueue s (execRegWrite d seq count address data s) := by
  unfold execRegWrite; split <;> simp
@[simp] theorem execAttnAck_keepsQueue (value) : KeepsQueue s (execAttnAck value s) := by simp [execAttnAck]
@[simp] theorem execMbxSubmit_keepsQueue (w slots) : KeepsQueue s (execMbxSubmit w slots s) := by simp [execMbxSubmit]
@[simp] theorem execMbxRelease_keepsQueue (w slots) : KeepsQueue s (execMbxRelease w slots s) := by
  simp [execMbxRelease]
@[simp] theorem execMbxSlotWrite_keepsQueue (w address data) :
    KeepsQueue s (execMbxSlotWrite w address data s) := by
  simp only [execMbxSlotWrite]; split <;> simp
@[simp] theorem execRegisterWrite_keepsQueue (w address data) :
    KeepsQueue s (execRegisterWrite w address data s) := by simp [execRegisterWrite]

/-! ### The host port and the bridge -/

@[simp] theorem execHostAbsent_keepsQueue : KeepsQueue s (execHostAbsent s) := by
  unfold execHostAbsent; split <;> simp
/-- What an answered frame does when it takes effect leaves the queue. -/
@[simp] theorem State.farAnswer_pending (cmd f g) (t : State) : ((s.farAnswer cmd f g).2.2 t).pending = t.pending := by
  simp only [State.farAnswer]; (repeat' split) <;> simp [State.countBusy]
@[simp] theorem State.localAnswer_pending (cmd f) (t : State) : ((s.localAnswer cmd f).2.2 t).pending = t.pending := by
  simp only [State.localAnswer]; (repeat' split) <;> simp
@[simp] theorem State.answerFrame_pending (cmd f) (t : State) : ((s.answerFrame cmd f).2.2 t).pending = t.pending := by
  simp only [State.answerFrame]; (repeat' split) <;> simp
@[simp] theorem State.runFrame_pending (cmd f) : (s.runFrame cmd f).pending = s.pending := by
  have hact := s.answerFrame_pending cmd f
  unfold State.runFrame
  generalize s.answerFrame cmd f = answer at hact ⊢
  obtain ⟨rcode, data, act⟩ := answer
  dsimp only at hact ⊢; (repeat' split) <;> simp [hact]
@[simp] theorem State.hostFrame_pending (cmd f) : (s.hostFrame cmd f).pending = s.pending := by
  unfold State.hostFrame; split <;> simp
@[simp] theorem execNop_keepsQueue (f) : KeepsQueue s (execNop f s) := by simp [execNop]
@[simp] theorem execRead_keepsQueue (f) : KeepsQueue s (execRead f s) := by simp [execRead]
@[simp] theorem execWrite_keepsQueue (f) : KeepsQueue s (execWrite f s) := by simp [execWrite]
@[simp] theorem execLockedRmw_keepsQueue (f) : KeepsQueue s (execLockedRmw f s) := by simp [execLockedRmw]
@[simp] theorem execFarRead_keepsQueue (f) : KeepsQueue s (execFarRead f s) := by simp [execFarRead]
@[simp] theorem execFarWrite_keepsQueue (f) : KeepsQueue s (execFarWrite f s) := by simp [execFarWrite]
@[simp] theorem execReservedCmdFrame_keepsQueue (cmd f) : KeepsQueue s (execReservedCmdFrame cmd f s) := by
  unfold execReservedCmdFrame; split <;> simp
@[simp] theorem execHostWake_keepsQueue (cmd f) : KeepsQueue s (execHostWake cmd f s) := by
  unfold execHostWake; split <;> simp
@[simp] theorem execTagTimeout_keepsQueue (tag) : KeepsQueue s (execTagTimeout tag s) := by
  simp only [execTagTimeout]; split <;> simp
@[simp] theorem execTagHoldExpiry_keepsQueue (tag) : KeepsQueue s (execTagHoldExpiry tag s) := by
  simp only [execTagHoldExpiry]; split <;> simp
@[simp] theorem execMgmtResponseReceived_keepsQueue (p h m whole) :
    KeepsQueue s (execMgmtResponseReceived p h m whole s) := by simp [execMgmtResponseReceived]
@[simp] theorem execMgmtRequestServe_keepsQueue : KeepsQueue s (execMgmtRequestServe s) := by
  unfold execMgmtRequestServe; (repeat' split) <;> simp

/-! ### The mailbox: configuration -/

@[simp] theorem State.serveSlot_pending (n r lenOk fieldOk refused) (run : Fin 4 → List Byte → State → State)
    (hrun : ∀ n p t, (run n p t).pending = t.pending) :
    (s.serveSlot n r lenOk fieldOk refused run).pending = s.pending := by
  simp only [State.serveSlot]; (repeat' split) <;> simp [hrun]
/-- A mailbox command leaves the queue when what it runs for its request does. -/
theorem State.mbxCommand_keepsQueue {op : Half} {lenOk fieldOk : List Byte → Bool}
    {refused : State → List Byte → List Byte} {run : Fin 4 → List Byte → State → State}
    (hrun : ∀ n p t, (run n p t).pending = t.pending) :
    KeepsQueue s (s.mbxCommand op lenOk fieldOk refused run) := by
  unfold State.mbxCommand; (repeat' split) <;> simp [hrun]
theorem State.mbxGet_keepsQueue {op payload} : KeepsQueue s (s.mbxGet op payload) :=
  s.mbxCommand_keepsQueue fun _ _ _ => by simp
@[simp] theorem execBadOpcodeRequest_keepsQueue : KeepsQueue s (execBadOpcodeRequest s) := by
  unfold execBadOpcodeRequest; (repeat' split) <;> simp
@[simp] theorem execSlotFillTimeout_keepsQueue (slot) : KeepsQueue s (execSlotFillTimeout slot s) := by
  unfold execSlotFillTimeout; split <;> simp
@[simp] theorem execSlotDoneExpiry_keepsQueue (slot) : KeepsQueue s (execSlotDoneExpiry slot s) := by
  unfold execSlotDoneExpiry; split <;> simp
@[simp] theorem execMailboxDeadlineMissed_keepsQueue (slot) : KeepsQueue s (execMailboxDeadlineMissed slot s) := by
  simp only [execMailboxDeadlineMissed]; split <;> simp
@[simp] theorem execIdentity_keepsQueue : KeepsQueue s (execIdentity s) :=
  s.mbxGet_keepsQueue
@[simp] theorem execOptRead_keepsQueue : KeepsQueue s (execOptRead s) :=
  s.mbxCommand_keepsQueue fun _ _ _ => by simp
@[simp] theorem execOptBegin_keepsQueue : KeepsQueue s (execOptBegin s) :=
  s.mbxCommand_keepsQueue fun _ _ _ => by simp
@[simp] theorem execOptStage_keepsQueue : KeepsQueue s (execOptStage s) :=
  s.mbxCommand_keepsQueue fun _ _ _ => by split <;> simp
@[simp] theorem execOptCommit_keepsQueue (readBackOk) : KeepsQueue s (execOptCommit readBackOk s) :=
  s.mbxCommand_keepsQueue fun _ _ _ => by dsimp only; (repeat' split) <;> simp
@[simp] theorem execOptErase_keepsQueue (readBackOk) : KeepsQueue s (execOptErase readBackOk s) :=
  s.mbxCommand_keepsQueue fun _ _ _ => by simp
@[simp] theorem State.finishServing_pending : s.finishServing.pending = s.pending := by
  simp only [State.finishServing]; (repeat' split) <;> simp
@[simp] theorem State.dieAnswered_pending (d a) : (s.dieAnswered d a).pending = s.pending := by
  simp [State.dieAnswered]
@[simp] theorem State.askAndFinish_pending (n info asks) : (s.askAndFinish n info asks).pending = s.pending := by
  simp [State.askAndFinish]
theorem State.mbxLamps_keepsQueue {op fieldOk refused cmd} : KeepsQueue s (s.mbxLamps op fieldOk refused cmd) :=
  s.mbxCommand_keepsQueue fun _ _ t => t.askAndFinish_pending ..
@[simp] theorem execMapSet_keepsQueue : KeepsQueue s (execMapSet s) :=
  s.mbxLamps_keepsQueue
@[simp] theorem execMapGet_keepsQueue : KeepsQueue s (execMapGet s) :=
  s.mbxLamps_keepsQueue
@[simp] theorem execSlotSet_keepsQueue : KeepsQueue s (execSlotSet s) :=
  s.mbxLamps_keepsQueue
@[simp] theorem execSlotGet_keepsQueue : KeepsQueue s (execSlotGet s) :=
  s.mbxLamps_keepsQueue
@[simp] theorem execSceneSet_keepsQueue : KeepsQueue s (execSceneSet s) :=
  s.mbxCommand_keepsQueue fun _ _ _ => by simp
@[simp] theorem execLampHost_keepsQueue : KeepsQueue s (execLampHost s) :=
  s.mbxCommand_keepsQueue fun _ _ _ => by simp
@[simp] theorem execRoleGet_keepsQueue : KeepsQueue s (execRoleGet s) :=
  s.mbxGet_keepsQueue
@[simp] theorem execInaugSet_keepsQueue : KeepsQueue s (execInaugSet s) :=
  s.mbxCommand_keepsQueue fun _ _ _ => by simp
@[simp] theorem execInaugGet_keepsQueue : KeepsQueue s (execInaugGet s) :=
  s.mbxGet_keepsQueue
@[simp] theorem execLinkSet_keepsQueue : KeepsQueue s (execLinkSet s) :=
  s.mbxCommand_keepsQueue fun _ _ _ => by simp
@[simp] theorem execLinkGet_keepsQueue : KeepsQueue s (execLinkGet s) :=
  s.mbxGet_keepsQueue
@[simp] theorem execPermitSet_keepsQueue : KeepsQueue s (execPermitSet s) :=
  s.mbxCommand_keepsQueue fun _ _ _ => by simp
@[simp] theorem execPermitGet_keepsQueue : KeepsQueue s (execPermitGet s) :=
  s.mbxGet_keepsQueue
@[simp] theorem execPowerPolicySet_keepsQueue : KeepsQueue s (execPowerPolicySet s) :=
  s.mbxCommand_keepsQueue fun _ _ _ => by simp
@[simp] theorem execPowerPolicyGet_keepsQueue : KeepsQueue s (execPowerPolicyGet s) :=
  s.mbxGet_keepsQueue
@[simp] theorem execGpioSet_keepsQueue : KeepsQueue s (execGpioSet s) :=
  s.mbxCommand_keepsQueue fun _ _ _ => by simp
@[simp] theorem execGpioGet_keepsQueue : KeepsQueue s (execGpioGet s) :=
  s.mbxGet_keepsQueue

/-! ### Fault log, ledger and retention -/

@[simp] theorem execFaultSummaryWrite_keepsQueue : KeepsQueue s (execFaultSummaryWrite s) := by
  unfold execFaultSummaryWrite; (repeat' split) <;> simp
@[simp] theorem execLogOverflowWrite_keepsQueue : KeepsQueue s (execLogOverflowWrite s) := by
  unfold execLogOverflowWrite; split <;> simp
@[simp] theorem execLedgerSample_keepsQueue (junctionC) : KeepsQueue s (execLedgerSample junctionC s) := by
  unfold execLedgerSample; split <;> simp
@[simp] theorem execLedgerWrite_keepsQueue : KeepsQueue s (execLedgerWrite s) := by
  simp only [execLedgerWrite]; split <;> simp
@[simp] theorem execRetentionRewrite_keepsQueue (area) : KeepsQueue s (execRetentionRewrite area s) := by
  simp only [execRetentionRewrite]; (repeat' split) <;> simp

/-! ### The mailbox: operation, diagnostics and firmware -/

@[simp] theorem execLampState_keepsQueue : KeepsQueue s (execLampState s) :=
  s.mbxCommand_keepsQueue fun _ _ _ => by (repeat' split) <;> simp
@[simp] theorem execBurst_keepsQueue : KeepsQueue s (execBurst s) :=
  s.mbxCommand_keepsQueue fun _ _ _ => by dsimp only; (repeat' split) <;> simp
theorem State.mbxRef_keepsQueue {op cmd} : KeepsQueue s (s.mbxRef op cmd) :=
  s.mbxCommand_keepsQueue fun _ _ t => t.askAndFinish_pending ..
@[simp] theorem execRedundSwitch_keepsQueue : KeepsQueue s (execRedundSwitch s) :=
  s.mbxRef_keepsQueue
@[simp] theorem execKillTest_keepsQueue : KeepsQueue s (execKillTest s) :=
  s.mbxRef_keepsQueue
@[simp] theorem execKillRelease_keepsQueue : KeepsQueue s (execKillRelease s) :=
  s.mbxRef_keepsQueue
@[simp] theorem execPathClear_keepsQueue : KeepsQueue s (execPathClear s) :=
  s.mbxRef_keepsQueue
@[simp] theorem execRedundStatus_keepsQueue : KeepsQueue s (execRedundStatus s) :=
  s.mbxCommand_keepsQueue fun _ _ _ => by simp
@[simp] theorem execPowerSet_keepsQueue : KeepsQueue s (execPowerSet s) :=
  s.mbxCommand_keepsQueue fun _ _ _ => by simp
@[simp] theorem execCounterRead_keepsQueue : KeepsQueue s (execCounterRead s) :=
  s.mbxCommand_keepsQueue fun _ _ _ => by simp
@[simp] theorem execEyeScanStart_keepsQueue : KeepsQueue s (execEyeScanStart s) :=
  s.mbxCommand_keepsQueue fun _ _ _ => by simp
@[simp] theorem execEyeScanResult_keepsQueue : KeepsQueue s (execEyeScanResult s) :=
  s.mbxGet_keepsQueue
@[simp] theorem execEyeScanPoints_keepsQueue : KeepsQueue s (execEyeScanPoints s) :=
  s.mbxCommand_keepsQueue fun _ _ _ => by simp
@[simp] theorem execFaultRead_keepsQueue : KeepsQueue s (execFaultRead s) :=
  s.mbxCommand_keepsQueue fun _ _ _ => by simp
@[simp] theorem execLedgerRead_keepsQueue : KeepsQueue s (execLedgerRead s) :=
  s.mbxCommand_keepsQueue fun _ _ _ => by simp
@[simp] theorem execRetainedRead_keepsQueue : KeepsQueue s (execRetainedRead s) :=
  s.mbxCommand_keepsQueue fun _ _ _ => by simp
@[simp] theorem execRetainedWrite_keepsQueue : KeepsQueue s (execRetainedWrite s) :=
  s.mbxCommand_keepsQueue fun _ _ _ => by simp
@[simp] theorem execFullReset_keepsQueue : KeepsQueue s (execFullReset s) :=
  s.mbxCommand_keepsQueue fun _ _ _ => by simp
@[simp] theorem execFullResetTimeout_keepsQueue : KeepsQueue s (execFullResetTimeout s) := by
  unfold execFullResetTimeout; (repeat' split) <;> simp
@[simp] theorem execFwBegin_keepsQueue : KeepsQueue s (execFwBegin s) :=
  s.mbxCommand_keepsQueue fun _ _ _ => by simp
@[simp] theorem execFwWrite_keepsQueue : KeepsQueue s (execFwWrite s) :=
  s.mbxCommand_keepsQueue fun _ _ _ => by simp
@[simp] theorem execFwVerify_keepsQueue : KeepsQueue s (execFwVerify s) :=
  s.mbxCommand_keepsQueue fun _ _ _ => by simp
@[simp] theorem execFwVerifyDone_keepsQueue : KeepsQueue s (execFwVerifyDone s) := by
  simp only [execFwVerifyDone]; split <;> simp
@[simp] theorem execFwStatus_keepsQueue : KeepsQueue s (execFwStatus s) :=
  s.mbxGet_keepsQueue
@[simp] theorem execFwActivate_keepsQueue : KeepsQueue s (execFwActivate s) :=
  s.mbxCommand_keepsQueue fun _ _ _ => by simp

/-! ### Answers and reports -/

@[simp] theorem State.issuerAnswered_pending (d o a) : (s.issuerAnswered d o a).pending = s.pending := by
  unfold State.issuerAnswered; split <;> simp
@[simp] theorem State.issuerFailed_pending (o) : (s.issuerFailed o).pending = s.pending := by
  unfold State.issuerFailed; (repeat' split) <;> simp
@[simp] theorem State.cdResponse_pending (l seq payload) : (s.cdResponse l seq payload).pending = s.pending := by
  unfold State.cdResponse; split <;> simp
@[simp] theorem execResponseReceived_keepsQueue (l e seq payload) :
    KeepsQueue s (execResponseReceived l e seq payload s) := by
  unfold execResponseReceived; (repeat' split) <;> simp
@[simp] theorem execCommandRetryTimeout_keepsQueue (l seq) : KeepsQueue s (execCommandRetryTimeout l seq s) := by
  simp only [execCommandRetryTimeout]; (repeat' split) <;> simp
@[simp] theorem State.takeReport_pending (d p) : (s.takeReport d p).pending = s.pending := by
  simp only [State.takeReport]; split <;> simp
@[simp] theorem execFaultReportReceived_keepsQueue (d seq payload) :
    KeepsQueue s (execFaultReportReceived d seq payload s) := by
  unfold execFaultReportReceived; split <;> simp

/-! ### Resets, starts and blocks -/

@[simp] theorem execPor_keepsQueue (vinMv regulatorBad fuses cut) :
    KeepsQueue s (execPor vinMv regulatorBad fuses cut s) := by
  unfold execPor; split <;> simp
@[simp] theorem execBrownoutReset_keepsQueue (vinMv heldNs cut) :
    KeepsQueue s (execBrownoutReset vinMv heldNs cut s) := by
  unfold execBrownoutReset; split <;> simp
@[simp] theorem execRstNReset_keepsQueue (heldNs) : KeepsQueue s (execRstNReset heldNs s) := by
  unfold execRstNReset; (repeat' split) <;> simp
@[simp] theorem execRstNRelease_keepsQueue : KeepsQueue s (execRstNRelease s) := by
  unfold execRstNRelease; split <;> simp
@[simp] theorem execWatchdogExpiry_keepsQueue : KeepsQueue s (execWatchdogExpiry s) := by
  unfold execWatchdogExpiry; split <;> simp
@[simp] theorem execThermalTrip_keepsQueue (sensorsC heldNs) :
    KeepsQueue s (execThermalTrip sensorsC heldNs s) := by
  unfold execThermalTrip; split <;> simp
@[simp] theorem execThermalHoldRelease_keepsQueue (sensorsC) :
    KeepsQueue s (execThermalHoldRelease sensorsC s) := by
  unfold execThermalHoldRelease; split <;> simp
@[simp] theorem execFirmwareFaultReset_keepsQueue : KeepsQueue s (execFirmwareFaultReset s) := by
  unfold execFirmwareFaultReset; split <;> simp
@[simp] theorem execLastWordReturn_keepsQueue (vinMv heldNs) :
    KeepsQueue s (execLastWordReturn vinMv heldNs s) := by
  unfold execLastWordReturn; split <;> simp
@[simp] theorem State.fenceEnd_pending (d) : (s.fenceEnd d).pending = s.pending := by
  unfold State.fenceEnd; split <;> simp
@[simp] theorem State.fenceLane_pending (p) : (s.fenceLane p).pending = s.pending := by simp [State.fenceLane]
@[simp] theorem State.fenceBlock_pending (b cut) : (s.fenceBlock b cut).pending = s.pending := by
  unfold State.fenceBlock; split <;> simp
@[simp] theorem execBlockReset_keepsQueue (b cut) : KeepsQueue s (execBlockReset b cut s) := by
  unfold execBlockReset; split <;> simp
@[simp] theorem State.readyBlock_pending (b) : (s.readyBlock b).pending = s.pending := by
  unfold State.readyBlock; split <;> simp
@[simp] theorem execBlockReady_keepsQueue (b) : KeepsQueue s (execBlockReady b s) := by
  unfold execBlockReady; split <;> simp
@[simp] theorem execHvLinkLossReset_keepsQueue (d) : KeepsQueue s (execHvLinkLossReset d s) := by
  simp only [execHvLinkLossReset]; (repeat' split) <;> simp
@[simp] theorem State.senseFuses_pending : s.senseFuses.pending = s.pending := by
  unfold State.senseFuses
  split
  · exact (State.modCd_pending ..).trans (s.modAo_pending _)
  · rfl
@[simp] theorem State.releaseLogic_pending : s.releaseLogic.pending = s.pending := by simp [State.releaseLogic]
@[simp] theorem execIslandRelease_keepsQueue (clocksUp) : KeepsQueue s (execIslandRelease clocksUp s) := by
  unfold execIslandRelease; split <;> simp
@[simp] theorem execResetPendingRetry_keepsQueue (clocksUp) : KeepsQueue s (execResetPendingRetry clocksUp s) := by
  unfold execResetPendingRetry; split <;> simp
@[simp] theorem execHostPortResetComplete_keepsQueue : KeepsQueue s (execHostPortResetComplete s) := by
  simp [execHostPortResetComplete]
@[simp] theorem State.enterFrostNow_pending : s.enterFrostNow.pending = s.pending := by simp [State.enterFrostNow]
@[simp] theorem State.countStart_pending (count) : (s.countStart count).pending = s.pending := by
  unfold State.countStart; split <;> simp
@[simp] theorem execStartBegin_keepsQueue (badFw badFault badHost) :
    KeepsQueue s (execStartBegin badFw badFault badHost s) := by
  unfold execStartBegin; split <;> simp
@[simp] theorem State.noFirmware_pending : s.noFirmware.pending = s.pending := by simp [State.noFirmware]
@[simp] theorem execFirmwareSelect_keepsQueue : KeepsQueue s (execFirmwareSelect s) := by
  have hbank : s.chooseBank.1.pending = s.pending := by simp
  unfold execFirmwareSelect
  generalize s.chooseBank = choice at hbank ⊢
  obtain ⟨t, bank⟩ := choice
  replace hbank : t.pending = s.pending := hbank
  split
  · cases bank
    · simp [hbank]
    · dsimp only; split <;> simp [hbank]
  · simp
@[simp] theorem execDieAbsentTimeout_keepsQueue (d) : KeepsQueue s (execDieAbsentTimeout d s) := by
  unfold execDieAbsentTimeout; split <;> simp
@[simp] theorem execStartComplete_keepsQueue (programOk) : KeepsQueue s (execStartComplete programOk s) := by
  unfold execStartComplete; split <;> simp
@[simp] theorem execFrostSetEntry_keepsQueue (d) : KeepsQueue s (execFrostSetEntry d s) := by
  unfold execFrostSetEntry; split <;> simp

end

/-- No command changes the queue: each arm of `exec` is a meaning that keeps it. -/
theorem exec_keepsQueue (c : Instr) (s : State) : KeepsQueue s (exec c s) := by cases c <;> simp [exec]

/-! ### Steps -/

theorem step_of_front {c : Instr} {q : List Instr} {s : State} (h : s.pending = c :: q) :
    step s = exec c { s with pending := q } := by simp [step, h]

theorem step_of_empty {s : State} (h : s.pending = []) : step s = .next s.idle := by simp [step, h]

/-- A step on a queue leaves the queue's rest. -/
theorem step_pending {c : Instr} {q : List Instr} {s t : State} (h : s.pending = c :: q) (hstep : step s = .next t) :
    t.pending = q :=
  exec_keepsQueue c { s with pending := q } t (step_of_front h ▸ hstep)

/-- Settles O2: every command keeps the queue it is run with, and a step hands the front one the queue's rest. -/
theorem commandsLeaveTheQueueAlone : Obligations.CommandsLeaveTheQueueAlone :=
  ⟨fun c s => exec_keepsQueue c s, fun _ _ _ _ => step_pending⟩

/-! ### The idle step -/

section
variable (s : State)

@[simp] theorem State.modTx_now (p f) : (s.modTx p f).now = s.now := rfl
@[simp] theorem State.credFree_now (p b) : (s.credFree p b).now = s.now := by cases b <;> rfl
@[simp] theorem State.fillCodeword_now (p) : (s.fillCodeword p).now = s.now := by
  simp only [State.fillCodeword]; split <;> simp
@[simp] theorem State.sendCodeword_now (p) : (s.sendCodeword p).now = s.now := rfl
@[simp] theorem State.passCodeword_now (p) : (s.passCodeword p).now = s.now := by
  simp only [State.passCodeword]; (repeat' split) <;> simp
@[simp] theorem State.flush_now (p) : (s.flush p).now = s.now :=
  foldl_keeps State.now _ (fun t _ => t.passCodeword_now p) (List.range 4) s

/-- Codewords that leave take no time of their own. -/
@[simp] theorem State.flushAll_now : s.flushAll.now = s.now :=
  foldl_keeps State.now _ (fun t p => t.flush_now p) Port.all s

theorem State.idle_now : s.idle.now = s.now + 1000 := by simp [State.idle]

theorem State.idle_sameHv : SameHv s s.idle := by simp [SameHv]

theorem State.idle_sameLinks : SameLinks s s.idle := by simp [SameLinks]

end

/-- Settles O1: `step` runs the front command as it stands, and on the empty queue it is the idle step of 1 µs. -/
theorem stepRunsTheFrontCommand : Obligations.StepRunsTheFrontCommand := by
  refine ⟨fun c q s => step_of_front, fun s hempty => ⟨s.idle, step_of_empty hempty, s.idle_now, ?_⟩⟩
  have hpending : s.idle.pending = [] := by simp [hempty]
  exact ⟨hpending, by simp, by simp, s.idle_sameHv, s.idle_sameLinks⟩

end Sys2Proof.Machine
end

section
/-! Family 02, islands and isolated links. One end of a framed link: what is sent from it leaves the other ends alone
(`SameOtherEnds`), and the HEARTBEAT of R44. Then the logic-side crossings of R38 to R41. -/

namespace Sys2Proof.Machine

section
variable (s : State)

/-! ### Ends of framed links -/

theorem State.lend_of_ends {s t : State} (h : t.ends = s.ends) (l : FLink) (e : LEnd) : t.lend l e = s.lend l e := by
  simp [State.lend, h]

@[simp] theorem State.lend_modRef (f : Ref → Ref) (l : FLink) (e : LEnd) : (s.modRef f).lend l e = s.lend l e := rfl
@[simp] theorem State.lend_until (n : Nat) (l : FLink) (e : LEnd) : (s.until n).lend l e = s.lend l e := rfl

/-- Only one end is changed, whatever the change. -/
theorem State.modEnd_sameOtherEnds (l : FLink) (e : LEnd) (f : LinkEnd → LinkEnd) : SameOtherEnds l e s (s.modEnd l e f) :=
  fun _ _ h => s.lend_modEnd_ne h f

theorem State.putLink_sameOtherEnds (l : FLink) (e : LEnd) (q : Byte) (b : LinkBody) :
    SameOtherEnds l e s (s.putLink l e q b) :=
  fun _ _ h => s.lend_putLink_ne h q b

theorem State.sendLink_sameOtherEnds (l : FLink) (e : LEnd) (b : LinkBody) : SameOtherEnds l e s (s.sendLink l e b) :=
  fun _ _ h => s.lend_sendLink_ne h b

end

theorem SameOtherEnds.trans {l : FLink} {e : LEnd} {s t u : State} (h : SameOtherEnds l e s t)
    (k : SameOtherEnds l e t u) : SameOtherEnds l e s u :=
  fun m g hne => (k m g hne).trans (h m g hne)

theorem SameOtherEnds.of_ends {l : FLink} {e : LEnd} {s t : State} (h : t.ends = s.ends) : SameOtherEnds l e s t :=
  fun m g _ => State.lend_of_ends h m g

@[simp] theorem LinkEnd.transmit_rxerr (l : FLink) (n : Nat) (f : List Sym) (x : LinkEnd) :
    (LinkEnd.transmit l n f x).rxerr = x.rxerr := by rw [LinkEnd.transmit_keeps]

/-! ### HEARTBEAT (R44, R45) -/

/-- One HEARTBEAT goes out and the end's cycle of R50 begins again; the state before REF counts its cycle. -/
def State.sendHeartbeat (l : FLink) (e : LEnd) (s : State) : State :=
  (s.sendLink l e (.heartbeat (s.cycle16 (station l e)) (s.stateOf (station l e)) (s.lend l e).rxerr)).modEnd l e
    fun x => { x with hbRun := if x.hbSeen then x.hbRun else 0, hbSeen := false }

theorem station_ref_iff {e : LEnd} : station .cdRef e = .ref ↔ e = .second := by cases e <;> simp [station]

theorem exec_heartbeatSend {l : FLink} {e : LEnd} {s : State} (h : (s.lend l e).running = true) :
    exec (.heartbeatSend l e) s = .next
      (if l = .cdRef ∧ e = .second then (s.sendHeartbeat l e).modRef fun r => { r with cycle := r.cycle + 1 }
       else s.sendHeartbeat l e) := by
  by_cases hl : l = .cdRef
  · subst hl; simp [exec, execHeartbeatSend, State.sendHeartbeat, h, station_ref_iff]
  · simp [exec, execHeartbeatSend, State.sendHeartbeat, h, hl]

theorem State.sendHeartbeat_sameOtherEnds (l : FLink) (e : LEnd) (s : State) :
    SameOtherEnds l e s (s.sendHeartbeat l e) :=
  (s.sendLink_sameOtherEnds l e _).trans (State.modEnd_sameOtherEnds _ l e _)

/-- Settles O9: the HEARTBEAT is one frame with the next SEQ; REF alone then counts its cycle. -/
theorem heartbeatCarriesCycleStateAndErrors : Obligations.HeartbeatCarriesCycleStateAndErrors := by
  intro l e s hrun
  refine ⟨_, exec_heartbeatSend hrun, ?_⟩
  have hother := s.sendHeartbeat_sameOtherEnds l e
  split <;>
    refine ⟨rfl, ?_, ?_, ?_, ?_, fun m g h => hother m g h, rfl, rfl, ⟨rfl, rfl, rfl⟩, ⟨rfl, rfl⟩, rfl, rfl, rfl⟩ <;>
    simp [State.sendHeartbeat, State.lend_sendLink]

/-! ### Crossings (R38 to R41) -/

@[simp] theorem State.crossed_setCrossed (x : Crossing) (v : Crossed) (s : State) : (s.setCrossed x v).crossed x = v := by
  simp [State.crossed, State.setCrossed]

theorem State.crossed_setCrossed_ne {x y : Crossing} (h : y ≠ x) (v : Crossed) (s : State) :
    (s.setCrossed x v).crossed y = s.crossed y := by
  have hfind : (s.crossings.filter fun e => e.1 ≠ x).find? (fun e => e.1 = y) = s.crossings.find? fun e => e.1 = y := by
    rw [List.find?_filter]
    congr 1; funext e
    by_cases hy : e.1 = y <;> simp [hy, h]
  simp only [State.crossed, State.setCrossed]
  rw [List.find?_cons_of_neg (by simp [h.symm]), hfind]

/-- A crossing at rest with nothing waiting stays as it is at every edge of SCLK. -/
theorem Crossed.clocked_of_rest {v : Crossed} (hreq : v.req = false) (hwait : v.waiting = []) (n : Nat) :
    v.clocked n = v := by
  induction n with
  | zero => rfl
  | succ n ih =>
    have hedge : v.edge = v := by simp [Crossed.edge, hreq, hwait]
    rw [Crossed.clocked, hedge, ih]

/-- The transfer of one byte toward the host port, complete (R41). -/
def Crossed.hostByte (b : List Byte) (v : Crossed) : Crossed :=
  { v with req := false, ack := false, bundle := b, latched := b, waiting := [], edges := 0, transfers := v.transfers + 1 }

/-- R41: the first edge launches the byte that waits, the third latches it. -/
theorem Crossed.clocked_byte {v : Crossed} (hreq : v.req = false) (b : List Byte) (n : Nat) :
    ({ v with waiting := [b] } : Crossed).clocked n =
      match n with
      | 0 => { v with waiting := [b] }
      | 1 => { v with req := true, bundle := b, waiting := [], edges := 1 }
      | 2 => { v with req := true, bundle := b, waiting := [], edges := 2 }
      | _ + 3 => v.hostByte b := by
  match n with
  | 0 => rfl
  | 1 => simp [Crossed.clocked, Crossed.edge, hreq, Crossed.launch]
  | 2 => simp [Crossed.clocked, Crossed.edge, hreq, Crossed.launch]
  | n + 3 =>
    have hdone : ({ v with waiting := [b] } : Crossed).edge.edge.edge = v.hostByte b := by
      simp [Crossed.edge, hreq, Crossed.launch, Crossed.accept, Crossed.lower, Crossed.rest, Crossed.hostByte, isLaneCrossing]
    rw [Crossed.clocked, Crossed.clocked, Crossed.clocked, hdone]
    exact Crossed.clocked_of_rest rfl rfl n

section
variable {x : Crossing} {s : State} (hfence : s.crossingFenced x = false)
include hfence

theorem exec_crossingTransfer_running (hx : x ≠ .ctlToHost) (hrun : s.receiverRuns x = true) (data : List Byte) (n : Nat) :
    exec (.crossingTransfer x data n) s = .next (s.setCrossed x ((s.crossed x).transfer x data)) := by
  simp [exec, execCrossingTransfer, hfence, hx, hrun]

theorem exec_crossingTransfer_stopped (hx : x ≠ .ctlToHost) (hstop : s.receiverRuns x = false) (data : List Byte) (n : Nat) :
    exec (.crossingTransfer x data n) s = .next s := by
  simp [exec, execCrossingTransfer, hfence, hx, hstop]

theorem exec_crossingTransfer_host (hx : x = .ctlToHost) (hwait : (s.crossed x).waiting = []) (data : List Byte) (n : Nat) :
    exec (.crossingTransfer x data n) s =
      .next (s.setCrossed x (({ s.crossed x with waiting := [fit data 1] } : Crossed).clocked n)) := by
  subst hx; simp [exec, execCrossingTransfer, hfence, hwait, unitBytes]

end

/-- Settles O10: a running island takes the unit in four steps, a stopped one nothing, and the host port's SCLK edges carry
the waiting byte. -/
theorem crossingLatchesItsUnitOrWaits : Obligations.CrossingLatchesItsUnitOrWaits := by
  intro x data n s hfence
  refine ⟨fun hx hrun => ?_, fun hx hstop => ?_, fun hx hreq hwait => ?_⟩
  · refine ⟨_, exec_crossingTransfer_running hfence hx hrun data n, ?_⟩
    simp only [State.crossed_setCrossed]
    exact ⟨rfl, rfl, rfl, rfl, rfl, fun y hy => State.crossed_setCrossed_ne hy _ s, rfl⟩
  · exact ⟨s, exec_crossingTransfer_stopped hfence hx hstop data n, rfl⟩
  · refine ⟨_, exec_crossingTransfer_host hfence hx hwait data n, ?_⟩
    simp only [State.crossed_setCrossed]
    rw [Crossed.clocked_byte hreq]
    refine ⟨?_, ?_, ?_, fun y hy => State.crossed_setCrossed_ne hy _ s, rfl⟩
    · rintro rfl; exact ⟨rfl, rfl, rfl⟩
    · rintro (rfl | rfl) <;> exact ⟨rfl, rfl, rfl, rfl⟩
    · intro hn
      obtain ⟨m, rfl⟩ : ∃ m, n = m + 3 := ⟨n - 3, by omega⟩
      exact ⟨rfl, rfl, rfl, rfl⟩

end Sys2Proof.Machine
end

section
/-! Family 02, what the ends of the framed links have received. Raising a fault, an event of the engine or of REF, and the
configuration of a die send frames, and take no time: what every end has received, decided and raised stays
(`LinkEnds.receivers`), and so does the moment (`_now`). -/

namespace Sys2Proof.Machine

@[simp] theorem ite_now (c : Prop) [Decidable c] (a b : State) : (if c then a else b).now = if c then a.now else b.now :=
  apply_ite State.now c a b

section
variable (s : State)
@[simp] theorem State.setEvent_now (code) : (s.setEvent code).now = s.now := rfl
@[simp] theorem State.modBook_now (f) : (s.modBook f).now = s.now := rfl
@[simp] theorem State.writeRec_now (r) : (s.writeRec r).now = s.now := by simp [State.writeRec]
@[simp] theorem State.writeSummary_now (r) : (s.writeSummary r).now = s.now := by simp [State.writeSummary]
@[simp] theorem State.mergeEvent_now (r) : (s.mergeEvent r).now = s.now := by
  unfold State.mergeEvent; split
  · simp
  · split <;> simp
@[simp] theorem State.recordEvent_now (r) : (s.recordEvent r).now = s.now := by simp [State.recordEvent]
@[simp] theorem State.recordCond_now (r) : (s.recordCond r).now = s.now := by simp [State.recordCond]
@[simp] theorem State.cdRaiseFrom_now (src tt rep f subject data) :
    (s.cdRaiseFrom src tt rep f subject data).now = s.now := by simp [State.cdRaiseFrom]
@[simp] theorem State.cdRaise_now (f subject data) : (s.cdRaise f subject data).now = s.now := by simp [State.cdRaise]
@[simp] theorem State.cdClearFrom_now (src tt f subject) : (s.cdClearFrom src tt f subject).now = s.now := by
  simp only [State.cdClearFrom]; split <;> simp
@[simp] theorem State.cdClear_now (f subject) : (s.cdClear f subject).now = s.now := by simp [State.cdClear]
@[simp] theorem State.ldReport_now (event f subject data) : (s.ldReport event f subject data).now = s.now := by
  simp [State.ldReport]
@[simp] theorem State.sendReport_now (l r) : (s.sendReport l r).now = s.now := by simp [State.sendReport]
@[simp] theorem State.sendQueued_now (l seq q) : (s.sendQueued l seq q).now = s.now := by
  unfold State.sendQueued; split <;> simp
@[simp] theorem State.dieReport_now (d event f subject data) : (s.dieReport d event f subject data).now = s.now := by
  simp [State.dieReport]
@[simp] theorem State.refReport_now (event f subject data) : (s.refReport event f subject data).now = s.now := by
  simp [State.refReport]
@[simp] theorem State.raiseAt_now (st f subject data) : (s.raiseAt st f subject data).now = s.now := by
  cases st <;> simp [State.raiseAt, State.ldRaise, State.dieRaise, State.refRaise]
@[simp] theorem State.clearAt_now (st f subject) : (s.clearAt st f subject).now = s.now := by
  cases st <;> simp [State.clearAt, State.ldClear, State.dieClear, State.refClear]
@[simp] theorem State.findDieLost_now (d) : (s.findDieLost d).now = s.now := by
  simp [State.findDieLost, State.refRaise]
@[simp] theorem State.lossExtra_now (l e) : (s.lossExtra l e).now = s.now := by
  unfold State.lossExtra; split
  · simp
  · split <;> simp
@[simp] theorem State.lossRaise_now (l e) : (s.lossRaise l e).now = s.now := by simp [State.lossRaise]
end

/-! ### What the ends have received -/

/-- An end without what it sends: its line, its SEQ and the COMMANDs it has open. -/
def LinkEnd.receiver (x : LinkEnd) : LinkEnd :=
  { x with txSeq := 0, opened := [], txAt := 0, txPositive := false, tx := [] }

/-- What every end has received, decided and raised, whatever it sent. -/
def LinkEnds.receivers (v : LinkEnds) : FLink → LEnd → LinkEnd := fun l e => (v.get l e).receiver

theorem LinkEnds.receivers_set {v : LinkEnds} {l : FLink} {e : LEnd} {x : LinkEnd}
    (h : x.receiver = (v.get l e).receiver) : (v.set l e x).receivers = v.receivers := by
  funext m g
  by_cases hmg : (m, g) = (l, e)
  · obtain ⟨rfl, rfl⟩ := Prod.mk.inj hmg
    simp [LinkEnds.receivers, h]
  · simp [LinkEnds.receivers, LinkEnds.get_set_ne _ _ _ _ _ _ hmg]

@[simp] theorem ite_receivers (c : Prop) [Decidable c] (a b : LinkEnds) :
    (if c then a else b).receivers = if c then a.receivers else b.receivers := apply_ite LinkEnds.receivers c a b

@[simp] theorem LinkEnd.transmit_receiver (l : FLink) (n : Nat) (f : List Sym) (x : LinkEnd) :
    (LinkEnd.transmit l n f x).receiver = x.receiver := by rw [LinkEnd.transmit_keeps]; rfl

section
variable (s : State)
theorem State.modEnd_receivers {l : FLink} {e : LEnd} {f : LinkEnd → LinkEnd}
    (h : ∀ x, (f x).receiver = x.receiver) : (s.modEnd l e f).ends.receivers = s.ends.receivers :=
  LinkEnds.receivers_set (h _)
theorem State.putLink_receivers (l e q b) : (s.putLink l e q b).ends.receivers = s.ends.receivers :=
  LinkEnds.receivers_set (LinkEnd.transmit_receiver ..)
@[simp] theorem State.sendLink_receivers (l e b) : (s.sendLink l e b).ends.receivers = s.ends.receivers := by
  rw [State.sendLink, State.modEnd_receivers, State.putLink_receivers]; exact fun _ => rfl
@[simp] theorem State.sendCommand_receivers (l i b) : (s.sendCommand l i b).ends.receivers = s.ends.receivers := by
  rw [State.sendCommand, State.modEnd_receivers, State.sendLink_receivers]; exact fun _ => rfl

/-! ### Reports -/
@[simp] theorem State.sendReport_receivers (l r) : (s.sendReport l r).ends.receivers = s.ends.receivers := by
  simp [State.sendReport]
@[simp] theorem State.sendQueued_receivers (l seq q) : (s.sendQueued l seq q).ends.receivers = s.ends.receivers := by
  unfold State.sendQueued; split <;> simp
@[simp] theorem State.dieReport_receivers (d event f subject data) :
    (s.dieReport d event f subject data).ends.receivers = s.ends.receivers := by simp [State.dieReport]
@[simp] theorem State.refReport_receivers (event f subject data) :
    (s.refReport event f subject data).ends.receivers = s.ends.receivers := by simp [State.refReport]
@[simp] theorem State.refRaise_receivers (f subject data) :
    (s.refRaise f subject data).ends.receivers = s.ends.receivers := s.refReport_receivers ..
@[simp] theorem State.refClear_receivers (f subject) :
    (s.refClear f subject).ends.receivers = s.ends.receivers := s.refReport_receivers ..
@[simp] theorem State.raiseAt_receivers (st f subject data) :
    (s.raiseAt st f subject data).ends.receivers = s.ends.receivers := by
  cases st <;> simp [State.raiseAt, State.dieRaise]
@[simp] theorem State.clearAt_receivers (st f subject) :
    (s.clearAt st f subject).ends.receivers = s.ends.receivers := by
  cases st <;> simp [State.clearAt, State.dieClear]
@[simp] theorem State.resendDie_receivers (d) : (s.resendDie d).ends.receivers = s.ends.receivers := by
  simp only [State.resendDie]
  rw [foldl_keeps fun t => t.ends.receivers] <;> simp
@[simp] theorem State.resendRef_receivers : s.resendRef.ends.receivers = s.ends.receivers := by
  simp only [State.resendRef]
  rw [foldl_keeps fun t => t.ends.receivers] <;> simp

/-! ### The engine and the configuration -/
@[simp] theorem State.sendState_receivers (w ep) : (s.sendState w ep).ends.receivers = s.ends.receivers := by
  simp [State.sendState]
@[simp] theorem State.engineEvent_receivers : s.engineEvent.ends.receivers = s.ends.receivers := by
  simp [State.engineEvent, State.refreshLit, State.refreshState]
@[simp] theorem State.configNext_receivers (d) : (s.configNext d).ends.receivers = s.ends.receivers := by
  unfold State.configNext; split <;> simp
@[simp] theorem State.configureDie_receivers (d) : (s.configureDie d).ends.receivers = s.ends.receivers := by
  simp [State.configureDie]

/-! ### REF -/
@[simp] theorem State.noteSwitch_receivers (c src dst k n) :
    (s.noteSwitch c src dst k n).ends.receivers = s.ends.receivers := by simp [State.noteSwitch, State.switchReport]
@[simp] theorem State.grantTo_receivers (src y c k n) :
    (s.grantTo src y c k n).ends.receivers = s.ends.receivers := by
  simp only [State.grantTo]; split <;> simp
@[simp] theorem State.tryGrant_receivers : s.tryGrant.ends.receivers = s.ends.receivers := by
  simp only [State.tryGrant]; (repeat' split) <;> simp
@[simp] theorem State.dieIsClear_receivers : s.dieIsClear.ends.receivers = s.ends.receivers := by
  unfold State.dieIsClear; split <;> simp
@[simp] theorem State.killStuck_receivers (x) : (s.killStuck x).ends.receivers = s.ends.receivers := by
  simp [State.killStuck]
@[simp] theorem State.beginSwitch_receivers (x y c) : (s.beginSwitch x y c).ends.receivers = s.ends.receivers := by
  simp [State.beginSwitch]
@[simp] theorem State.hardSwitch_receivers (x c) : (s.hardSwitch x c).ends.receivers = s.ends.receivers := by
  simp [State.hardSwitch]
@[simp] theorem State.evaluateCauses_receivers : s.evaluateCauses.ends.receivers = s.ends.receivers := by
  unfold State.evaluateCauses; (repeat' split) <;> simp
@[simp] theorem State.refEvent_receivers : s.refEvent.ends.receivers = s.ends.receivers := by simp [State.refEvent]

/-! ### loss -/
@[simp] theorem State.findDieLost_receivers (d) : (s.findDieLost d).ends.receivers = s.ends.receivers := by
  simp [State.findDieLost]
@[simp] theorem State.lossExtra_receivers (l e) : (s.lossExtra l e).ends.receivers = s.ends.receivers := by
  unfold State.lossExtra; split
  · simp
  · split <;> simp
@[simp] theorem State.lossEffect_receivers (l e) : (s.lossEffect l e).ends.receivers = s.ends.receivers := by
  unfold State.lossEffect; split <;> simp
@[simp] theorem State.rxRise_receivers (l e n r) : (s.rxRise l e n r).ends.receivers = s.ends.receivers := by
  simp [State.rxRise]
@[simp] theorem State.seeState_receivers (l e was now_) : (s.seeState l e was now_).ends.receivers = s.ends.receivers := by
  unfold State.seeState; split <;> simp

end

end Sys2Proof.Machine
end

section
/-! Family 02, loss and restoration of a framed link (R50): each command as a change of the one end it names. -/

namespace Sys2Proof.Machine

theorem State.modEnd_modEnd (l : FLink) (e : LEnd) (f g : LinkEnd → LinkEnd) (s : State) :
    (s.modEnd l e f).modEnd l e g = s.modEnd l e fun x => g (f x) := by cases l <;> cases e <;> rfl

section
variable {s t : State}

theorem State.lend_receiver (h : t.ends.receivers = s.ends.receivers) (l : FLink) (e : LEnd) :
    (t.lend l e).receiver = (s.lend l e).receiver := congrFun (congrFun h l) e

theorem State.lost_of_receivers (h : t.ends.receivers = s.ends.receivers) (l : FLink) (e : LEnd) :
    (t.lend l e).lost = (s.lend l e).lost :=
  have hlost := congrArg LinkEnd.lost (State.lend_receiver h l e)
  hlost

/-- A change of an end that does not look at what the end sends makes the same of ends that received the same. -/
theorem State.modEnd_receivers_congr (h : t.ends.receivers = s.ends.receivers) (l : FLink) (e : LEnd)
    {f : LinkEnd → LinkEnd} (hf : ∀ x, (f x).receiver = f x.receiver) :
    (t.modEnd l e f).ends.receivers = (s.modEnd l e f).ends.receivers := by
  have hsame : (f (t.lend l e)).receiver = (f (s.lend l e)).receiver := by rw [hf, hf, State.lend_receiver h]
  funext m g
  by_cases hmg : (m, g) = (l, e)
  · obtain ⟨rfl, rfl⟩ := Prod.mk.inj hmg
    simpa [LinkEnds.receivers, State.lend] using hsame
  · have hother := State.lend_receiver h m g
    simpa [LinkEnds.receivers, State.lend, LinkEnds.get_set_ne _ _ _ _ _ _ hmg] using hother

end

section
variable (s : State)

theorem State.lossRaise_receivers (l : FLink) (e : LEnd) :
    (s.lossRaise l e).ends.receivers = (s.modEnd l e fun x => { x with raised := true }).ends.receivers :=
  State.modEnd_receivers_congr (by simp) l e fun _ => rfl

/-- A restored link's end is no longer lost, and no fault of its loss stands. -/
def LinkEnd.restored (x : LinkEnd) : LinkEnd := { x with lost := false, upSinceStart := true, raised := false }

theorem State.modEnd_receivers_of_fixed {l : FLink} {e : LEnd} {f : LinkEnd → LinkEnd} (h : f (s.lend l e) = s.lend l e) :
    (s.modEnd l e f).ends.receivers = s.ends.receivers :=
  LinkEnds.receivers_set (congrArg LinkEnd.receiver h)

theorem State.lossClear_receivers (l : FLink) (e : LEnd) :
    (s.lossClear l e).ends.receivers = (s.modEnd l e fun x => { x with raised := false }).ends.receivers := by
  unfold State.lossClear
  split
  next hraised =>
    have hquiet : (s.lend l e).raised = false := by simpa using hraised
    have hsame : ({ s.lend l e with raised := false } : LinkEnd) = s.lend l e := by rw [← hquiet]
    exact (s.modEnd_receivers_of_fixed hsame).symm
  next =>
    refine State.modEnd_receivers_congr ?_ l e fun _ => rfl
    split <;> simp

theorem State.restore_receivers (l : FLink) (e : LEnd) :
    (s.restore l e).ends.receivers = (s.modEnd l e LinkEnd.restored).ends.receivers := by
  have hclear : ((s.modEnd l e fun x => { x with lost := false, upSinceStart := true }).lossClear l e).ends.receivers =
      (s.modEnd l e LinkEnd.restored).ends.receivers := by
    rw [State.lossClear_receivers, State.modEnd_modEnd]; rfl
  rw [← hclear]
  unfold State.restore
  split <;> simp

theorem State.seeRxerr_receivers (l : FLink) (e : LEnd) (r : Byte) :
    (s.seeRxerr l e r).ends.receivers = (s.modEnd l e fun x => { x with peerRxerr := r }).ends.receivers := by
  simp only [State.seeRxerr]; split <;> simp
end

/-! ### Loss of a link (R50) -/

/-- An end that finds its link lost at a moment. -/
def LinkEnd.goLost (m : Nat) (x : LinkEnd) : LinkEnd := { x with lost := true, lostAt := m, hbRun := 0, hbSeen := false }

section
variable {l : FLink} {e : LEnd} {s : State} (hrun : (s.lend l e).running = true)
include hrun

theorem exec_linkLost (hup : (s.lend l e).lost = false) :
    exec (.linkLost l e) s = .next ((((s.until ((s.lend l e).lastValidAt + us 250)).modEnd l e
      (LinkEnd.goLost (max s.now ((s.lend l e).lastValidAt + us 250)))).lossRaise l e).lossEffect l e) := by
  simp [exec, execLinkLost, hrun, hup]
  rfl

theorem exec_linkStartTimeout (hdown : (s.lend l e).lost = true) (hnever : (s.lend l e).upSinceStart = false)
    (hfirst : (s.lend l e).startChecked = false) :
    exec (.linkStartTimeout l e) s = .next (((s.until ((s.lend l e).releasedAt + us 250)).modEnd l e
      fun x => { x with startChecked := true }).lossRaise l e) := by
  simp [exec, execLinkStartTimeout, hrun, hdown, hnever, hfirst]

theorem exec_heartbeatMissed (hup : (s.lend l e).lost = false) (hnone : (s.lend l e).hbSeen = false) :
    exec (.heartbeatMissed l e) s = .next ((s.modEnd l e fun x => { x with missed := x.missed + 1 }).raiseAt
      (station l e) fHbMissed l.subject []) := by
  simp [exec, execHeartbeatMissed, hrun, hup, hnone]

/-- R50: 250 µs after the last valid frame the end finds its link lost and raises it; the other ends decide for themselves. -/
theorem linkLost_receivers (hup : (s.lend l e).lost = false) :
    ∃ t, exec (.linkLost l e) s = .next t ∧ t.ends.receivers = (s.modEnd l e fun x =>
      { x.goLost (max s.now ((s.lend l e).lastValidAt + us 250)) with raised := true }).ends.receivers := by
  refine ⟨_, exec_linkLost hrun hup, ?_⟩
  rw [State.lossEffect_receivers, State.lossRaise_receivers, State.modEnd_modEnd]; rfl

/-- R50: a link not restored 250 µs after the release of its end is raised. -/
theorem linkStartTimeout_receivers (hdown : (s.lend l e).lost = true) (hnever : (s.lend l e).upSinceStart = false)
    (hfirst : (s.lend l e).startChecked = false) :
    ∃ t, exec (.linkStartTimeout l e) s = .next t ∧ t.now = max s.now ((s.lend l e).releasedAt + us 250) ∧
      t.ends.receivers = (s.modEnd l e fun x => { x with startChecked := true, raised := true }).ends.receivers := by
  refine ⟨_, exec_linkStartTimeout hrun hdown hnever hfirst, by simp, ?_⟩
  rw [State.lossRaise_receivers, State.modEnd_modEnd]; rfl

end

/-! ### HEARTBEAT_RECEIVED (R44, R50, R210) -/

/-- A HEARTBEAT as its receiver keeps it: the sender's cycle and RXERR, and its STATE where its MODE is known; `run` are the cycles
in a row that had one. -/
def LinkEnd.takeHeartbeat (now : Nat) (cycle : Half) (known : Bool) (st rxerr : Byte) (run : Nat) (x : LinkEnd) : LinkEnd :=
  { x with lastValidAt := now, cycle := cycle, hbRun := min 4 run, hbSeen := true,
           peerState := if known then st else x.peerState, peerRxerr := rxerr }

/-- The cycles in a row with a valid HEARTBEAT, with the one that just came (R50). -/
def LinkEnd.runWithHeartbeat (x : LinkEnd) : Nat := if x.hbSeen then x.hbRun else x.hbRun + 1

/-- The end has taken a HEARTBEAT, before its link is restored and its owner acts. -/
def State.takeHeartbeat (l : FLink) (e : LEnd) (cycle : Half) (st rxerr : Byte) (s : State) : State :=
  ((s.heard l e).modEnd l e fun x => { x with
    cycle := cycle, hbRun := min 4 (s.lend l e).runWithHeartbeat, hbSeen := true,
    peerState := if modeKnown (station l e.other) st then st else x.peerState }).seeRxerr l e rxerr

theorem State.takeHeartbeat_receivers (l : FLink) (e : LEnd) (cycle : Half) (st rxerr : Byte) (s : State) :
    (s.takeHeartbeat l e cycle st rxerr).ends.receivers = (s.modEnd l e (LinkEnd.takeHeartbeat s.now cycle
      (modeKnown (station l e.other) st) st rxerr (s.lend l e).runWithHeartbeat)).ends.receivers := by
  rw [State.takeHeartbeat, State.seeRxerr_receivers, State.heard, State.modEnd_modEnd, State.modEnd_modEnd]; rfl

section
variable {l : FLink} {e : LEnd} {s : State} (hrun : (s.lend l e).running = true) (hdown : (s.lend l e).lost = true)
include hrun hdown

theorem exec_heartbeatReceived_lost (cycle : Half) (st rxerr : Byte) :
    let taken := s.takeHeartbeat l e cycle st rxerr
    let up := if 4 ≤ (s.lend l e).runWithHeartbeat then taken.restore l e else taken
    exec (.heartbeatReceived l e cycle st rxerr) s = .next
      (if modeKnown (station l e.other) st then up.seeState l e (s.lend l e).peerState st else up) := by
  simp only [exec, execHeartbeatReceived, hrun, hdown, Bool.not_true, Bool.false_eq_true, if_false, Bool.true_and,
    decide_eq_true_eq]
  rfl

/-- R50: a lost link takes the HEARTBEAT, and the fourth cycle in a row that has one restores it. -/
theorem heartbeatReceived_receivers (cycle : Half) (st rxerr : Byte) :
    ∃ t, exec (.heartbeatReceived l e cycle st rxerr) s = .next t ∧
      t.ends.receivers = (s.modEnd l e fun x =>
        let y := x.takeHeartbeat s.now cycle (modeKnown (station l e.other) st) st rxerr (s.lend l e).runWithHeartbeat
        if 4 ≤ (s.lend l e).runWithHeartbeat then y.restored else y).ends.receivers := by
  have hsee (u : State) : (if modeKnown (station l e.other) st then u.seeState l e (s.lend l e).peerState st
      else u).ends.receivers = u.ends.receivers := by split <;> simp
  refine ⟨_, exec_heartbeatReceived_lost hrun hdown cycle st rxerr, (hsee _).trans ?_⟩
  have htaken := s.takeHeartbeat_receivers l e cycle st rxerr
  have hrestored := (State.restore_receivers _ l e).trans
    (State.modEnd_receivers_congr htaken l e (f := LinkEnd.restored) fun _ => rfl)
  rw [State.modEnd_modEnd] at hrestored
  split <;> assumption

end

end Sys2Proof.Machine
end

section
/-! Family 02, discarded frames, COMMANDs that change nothing, and O11. -/

namespace Sys2Proof.Machine

/-! ### Discarded frames (R43, R45, R174) -/

section
variable {l : FLink} {e : LEnd} {s : State} {positive : Bool} {codes : List (BitVec 10)}
  (hrun : (s.lend l e).running = true)
include hrun

theorem exec_linkFrameDiscarded_none (hnone : frameOfCodes l positive codes = none) :
    exec (.linkFrameDiscarded l e positive codes) s = .next (s.discardFrame l e) := by
  simp [exec, execLinkFrameDiscarded, hrun, hnone]

theorem exec_linkFrameDiscarded_opcode {f : LinkFrame} (he : e = .second) (hsome : frameOfCodes l positive codes = some f)
    (htype : f.type = 0x02) (hop : (opcodesOf l).contains (byteAt f.payload 0) = false) :
    exec (.linkFrameDiscarded l e positive codes) s = .next ((s.heard l .second).serveCommand l f.seq fun s =>
      (s, [byteAt f.payload 0, resUnknownOpcode])) := by
  subst he
  simp only [exec, execLinkFrameDiscarded, hrun, hsome, htype, hop]
  rfl

end

/-- R45: below 255 a discarded frame is counted, and has no other effect. -/
theorem State.discardFrame_of_lt {l : FLink} {e : LEnd} {s : State} (h : (s.lend l e).rxerr ≠ 0xFF) :
    s.discardFrame l e = s.modEnd l e fun x => { x with rxerr := satByte x.rxerr } :=
  if_neg h

/-- R395: at 255 the count stands, and the discard is a rise of the link's errors. -/
theorem State.discardFrame_of_full {l : FLink} {e : LEnd} {s : State} (h : (s.lend l e).rxerr = 0xFF) :
    s.discardFrame l e = s.rxRise l e.other 1 0xFF :=
  if_pos h

theorem satByte_of_ne {b : Byte} (h : b ≠ 0xFF) : satByte b = b + 1 := if_neg h

/-! ### COMMANDs answered (R46) -/

theorem State.heard_sameOtherEnds (l : FLink) (e : LEnd) (s : State) : SameOtherEnds l e s (s.heard l e) :=
  s.modEnd_sameOtherEnds l e _

/-- That a frame came does not change what the end answers to a SEQ. -/
@[simp] theorem State.answerTo_heard (l : FLink) (n : Nat) (seq : Byte) (s : State) :
    ((s.heard l .second).lend l .second).answerTo n seq = (s.lend l .second).answerTo n seq := by
  rw [State.heard, State.lend_modEnd]; rfl

/-- R46: a new COMMAND that changes nothing of the node is answered, and its answer kept. -/
theorem answered_of_noEffect {l : FLink} {seq : Byte} {s : State} (hnew : NewCommand l seq s) (a : List Byte) :
    Answered l seq a s ((s.heard l .second).serveCommand l seq fun s => (s, a)) := by
  have hnew' : ((s.heard l .second).lend l .second).answerTo (s.heard l .second).now seq = none :=
    (s.answerTo_heard l s.now seq).trans hnew
  rw [State.serveCommand_new _ hnew']
  refine ⟨rfl, ?_, ?_⟩
  · rw [State.lend_modEnd]; exact LinkEnd.answerTo_keepAnswer ..
  · exact ((s.heard_sameOtherEnds l .second).trans (State.putLink_sameOtherEnds _ l .second seq _)).trans
      (State.modEnd_sameOtherEnds _ l .second _)

/-- What a COMMAND that changes nothing leaves: everything but the ends of the links and what was sent. -/
theorem serveCommand_noEffect_eq {l : FLink} {seq : Byte} {s : State} (a : List Byte) :
    let t := (s.heard l .second).serveCommand l seq fun s => (s, a)
    t = { s with ends := t.ends, wire := t.wire } := by
  unfold State.serveCommand; split <;> rfl

/-! ### RXERR's fault (R395) -/

theorem exec_linkErrorsClear {l : FLink} {s : State} (h : (s.errs.get l).raised = true) :
    ∃ st, exec (.linkErrorsClear l) s = .next (((s.until ((s.errs.get l).lastRiseAt + 8192 * cycleNs)).modErr l
      fun x => { x with raised := false, rises := [] }).clearAt st fLinkErrors l.subject) :=
  ⟨_, by simp only [exec, execLinkErrorsClear, h]; rfl⟩

/-! ### O11 -/

/-- The end that changed and the others, read off the receivers. -/
theorem lend_of_receivers_modEnd {l : FLink} {e : LEnd} {f : LinkEnd → LinkEnd} {s t : State}
    (h : t.ends.receivers = (s.modEnd l e f).ends.receivers) :
    (t.lend l e).receiver = (f (s.lend l e)).receiver ∧
      ∀ m g, (m, g) ≠ (l, e) → (t.lend m g).lost = (s.lend m g).lost := by
  constructor
  · rw [State.lend_receiver h, State.lend_modEnd]
  · intro m g hne
    rw [State.lost_of_receivers h, State.lend_modEnd_ne _ hne]

/-- Settles O11: each clause from what its command makes of the ends' receivers. -/
theorem linksAreLostRestoredAndCounted : Obligations.LinksAreLostRestoredAndCounted := by
  refine ⟨fun l e s hrun => ⟨fun hup => ?_, fun hdown hnever hfirst => ?_, fun hup hnone => ?_⟩,
    fun l e cycle st rxerr s hrun hdown => ?_,
    fun l e positive codes s => ⟨fun hrun hnone hlt => ?_, fun hrun hnone hfull => ?_,
      fun f he hrun hsome htype hop hnew => ?_, fun hraised => ?_⟩⟩
  case refine_1 =>
    obtain ⟨t, hexec, hends⟩ := linkLost_receivers hrun hup
    obtain ⟨hself, hothers⟩ := lend_of_receivers_modEnd hends
    exact ⟨t, hexec, congrArg LinkEnd.lost hself, congrArg LinkEnd.lostAt hself, congrArg LinkEnd.raised hself, hothers⟩
  case refine_2 =>
    obtain ⟨t, hexec, hnow, hends⟩ := linkStartTimeout_receivers hrun hdown hnever hfirst
    obtain ⟨hself, hothers⟩ := lend_of_receivers_modEnd hends
    exact ⟨t, hexec, (congrArg LinkEnd.lost hself).trans hdown, congrArg LinkEnd.startChecked hself,
      congrArg LinkEnd.raised hself, hnow, hothers⟩
  case refine_3 =>
    have hends := (s.modEnd l e fun x => { x with missed := x.missed + 1 }).raiseAt_receivers (station l e) fHbMissed
      l.subject []
    obtain ⟨hself, hothers⟩ := lend_of_receivers_modEnd hends
    refine ⟨_, exec_heartbeatMissed hrun hup hnone, congrArg LinkEnd.missed hself, fun m g => ?_⟩
    by_cases hmg : (m, g) = (l, e)
    · obtain ⟨rfl, rfl⟩ := Prod.mk.inj hmg
      exact (congrArg LinkEnd.lost hself :)
    · exact hothers m g hmg
  case refine_4 =>
    obtain ⟨t, hexec, hends⟩ := heartbeatReceived_receivers hrun hdown cycle st rxerr
    obtain ⟨hself, hothers⟩ := lend_of_receivers_modEnd hends
    refine ⟨t, hexec, ?_⟩
    rw [← LinkEnd.runWithHeartbeat]
    by_cases hfour : 4 ≤ (s.lend l e).runWithHeartbeat <;>
      simp only [hfour, if_true, if_false, decide_true, decide_false, Bool.not_true, Bool.not_false] at hself ⊢
    · exact ⟨congrArg LinkEnd.lost hself, congrArg LinkEnd.cycle hself, congrArg LinkEnd.hbSeen hself,
        congrArg LinkEnd.lastValidAt hself, congrArg LinkEnd.peerRxerr hself, congrArg LinkEnd.peerState hself, hothers⟩
    · exact ⟨(congrArg LinkEnd.lost hself).trans hdown, congrArg LinkEnd.cycle hself, congrArg LinkEnd.hbSeen hself,
        congrArg LinkEnd.lastValidAt hself, congrArg LinkEnd.peerRxerr hself, congrArg LinkEnd.peerState hself, hothers⟩
  case refine_5 =>
    refine ⟨_, exec_linkFrameDiscarded_none hrun hnone, ?_⟩
    rw [State.discardFrame_of_lt hlt]
    refine ⟨?_, rfl, s.modEnd_sameOtherEnds l e _⟩
    rw [State.lend_modEnd, satByte_of_ne hlt]
  case refine_6 =>
    refine ⟨_, exec_linkFrameDiscarded_none hrun hnone, ?_⟩
    rw [State.discardFrame_of_full hfull]
    exact (congrArg LinkEnd.rxerr (State.lend_receiver (s.rxRise_receivers l e.other 1 0xFF) l e)).trans hfull
  case refine_7 =>
    exact ⟨_, exec_linkFrameDiscarded_opcode hrun he hsome htype hop, answered_of_noEffect hnew _,
      serveCommand_noEffect_eq _⟩
  case refine_8 =>
    obtain ⟨st, hexec⟩ := exec_linkErrorsClear hraised
    exact ⟨_, hexec, by simp, by simp [cycleNs]⟩

end Sys2Proof.Machine
end

section
/-! Family 02, COMMANDs and RESPONSEs of the CD links (R46, R48, R392). -/

namespace Sys2Proof.Machine

/-! ### COMMAND_RETRY_TIMEOUT (R46) -/

/-- What a repeat makes of the open COMMANDs of its SEQ: one more try, sent at the end of the repeat's EOF. -/
def OpenCommand.retried (seq : Byte) (eof : Nat) (y : OpenCommand) : OpenCommand :=
  if y.seq = seq then { y with tries := y.tries + 1, sentAt := eof } else y

@[simp] theorem OpenCommand.hasSeq_retried (seq : Byte) (eof : Nat) :
    OpenCommand.hasSeq seq ∘ OpenCommand.retried seq eof = OpenCommand.hasSeq seq := by
  funext y
  simp only [Function.comp, OpenCommand.hasSeq, OpenCommand.retried]
  split <;> rfl

theorem OpenCommand.find?_retried {seq : Byte} {q : List OpenCommand} {o : OpenCommand}
    (h : q.find? (OpenCommand.hasSeq seq) = some o) (eof : Nat) :
    (q.map (OpenCommand.retried seq eof)).find? (OpenCommand.hasSeq seq) =
      some { o with tries := o.tries + 1, sentAt := eof } := by
  have hseq : o.seq = seq := by simpa [OpenCommand.hasSeq] using List.find?_some h
  simp [List.find?_map, h, OpenCommand.retried, hseq]

/-- The COMMAND goes out again with its SEQ, 100 µs after its last copy. -/
def State.retryCommand (l : FLink) (seq : Byte) (o : OpenCommand) (s : State) : State :=
  ((s.until (o.sentAt + us 100)).putLink l .first seq (.command o.payload)).modEnd l .first fun x =>
    { x with opened := x.opened.map (OpenCommand.retried seq (x.eofAt l)) }

section
variable {l : FLink} {seq : Byte} {o : OpenCommand} {s : State} (hrun : (s.lend l .first).running = true)
  (hopen : (s.lend l .first).opened.find? (OpenCommand.hasSeq seq) = some o)
include hrun hopen

theorem exec_commandRetryTimeout_again (htries : o.tries < 3) :
    exec (.commandRetryTimeout l seq) s = .next (s.retryCommand l seq o) := by
  simp only [exec, execCommandRetryTimeout, hopen, hrun, htries]; rfl

/-- R46: after the third try a COMMAND whose issuer keeps nothing for it is closed, and nothing else happens. -/
theorem exec_commandRetryTimeout_last (htries : 3 ≤ o.tries) (hissuer : o.issuer = .commit ∨ o.issuer = .plain) :
    exec (.commandRetryTimeout l seq) s = .next ((s.until (o.sentAt + us 100)).closeCommand l seq) := by
  have hlast : ¬ o.tries < 3 := by omega
  have hfailed (t : State) : t.issuerFailed o = t := by
    rcases hissuer with h | h <;> simp [State.issuerFailed, h]
  simp [exec, execCommandRetryTimeout, hopen, hrun, hlast, hfailed]

end

theorem State.retryCommand_sameOtherEnds (l : FLink) (seq : Byte) (o : OpenCommand) (s : State) :
    SameOtherEnds l .first s (s.retryCommand l seq o) :=
  (State.putLink_sameOtherEnds (s.until (o.sentAt + us 100)) l .first seq (.command o.payload)).trans
    (State.modEnd_sameOtherEnds _ l .first _)

theorem State.opened_retryCommand (l : FLink) (seq : Byte) (o : OpenCommand) (s : State) :
    ((s.retryCommand l seq o).lend l .first).opened =
      (s.lend l .first).opened.map (OpenCommand.retried seq (((s.retryCommand l seq o).lend l .first).eofAt l)) := by
  simp only [State.retryCommand, State.lend_modEnd, State.lend_putLink, LinkEnd.transmit_opened, State.lend_until]
  rfl

/-! ### RESPONSE_RECEIVED (R46, R48, R392) -/

@[simp] theorem isCdLink_lamp (d : Die) : isCdLink d.cdLink = true := by cases d <;> rfl
@[simp] theorem isCdLink_hv (d : HvDie) : isCdLink d.cdLink = true := by cases d <;> rfl
@[simp] theorem station_cdLink (d : Die) : station d.cdLink .second = .lamp d := by cases d <;> rfl

@[simp] theorem State.opened_heard (l : FLink) (e : LEnd) (s : State) :
    ((s.heard l e).lend l e).opened = (s.lend l e).opened := by rw [State.heard, State.lend_modEnd]

@[simp] theorem State.die_heard (l : FLink) (e : LEnd) (d : Die) (s : State) : (s.heard l e).die d = s.die d := by
  cases d <;> rfl

/-- R46: the RESPONSE to a COMMAND whose issuer waits for nothing closes it. -/
theorem exec_responseReceived_plain {d : HvDie} {seq : Byte} {payload : List Byte} {o : OpenCommand} {s : State}
    (hrun : (s.lend d.cdLink .first).running = true)
    (hopen : (s.lend d.cdLink .first).opened.find? (OpenCommand.hasSeq seq) = some o) (hissuer : o.issuer = .plain)
    (hlen : 2 ≤ payload.length) :
    exec (.responseReceived d.cdLink .first seq payload) s =
      .next ((s.heard d.cdLink .first).closeCommand d.cdLink seq) := by
  have hshort : ¬ payload.length < 2 := by omega
  simp [exec, execResponseReceived, hrun, State.cdResponse, hopen, hshort, State.issuerAnswered, hissuer]

/-- A lamp die's RESPONSE: what it acknowledges leaves the die (R48, R392). -/
def LampDie.acknowledge (seq : Byte) (x : LampDie) : LampDie :=
  { x with
    unacked := match x.unacked with | some (r, q) => if q = seq then none else some (r, q) | none => none,
    reports := x.reports.filter fun r => r.linkSeq ≠ seq }

theorem exec_responseReceived_lamp {d : Die} {s : State} (hrun : (s.lend d.cdLink .second).running = true) (seq : Byte)
    (payload : List Byte) :
    exec (.responseReceived d.cdLink .second seq payload) s =
      .next ((s.heard d.cdLink .second).modDie d (LampDie.acknowledge seq)) := by
  simp only [exec, execResponseReceived, hrun, isCdLink_lamp, State.dieResponse, station_cdLink]; rfl

/-! ### Copies of a COMMAND (R46) -/

/-- The answer to a copy of a COMMAND, as its receiver sends it again. -/
def State.answerCopy (l : FLink) (seq : Byte) (a : List Byte) (s : State) : State :=
  (s.heard l .second).answerLink l .second seq a

theorem serveCommand_of_copy {l : FLink} {seq : Byte} {a : List Byte} {s : State}
    (h : (s.lend l .second).answerTo s.now seq = some a) (run : State → State × List Byte) :
    (s.heard l .second).serveCommand l seq run = s.answerCopy l seq a :=
  State.serveCommand_copy _ ((s.answerTo_heard l s.now seq).trans h) run

/-- The COMMANDs of a lamp die: each is served on its CD link, with an execution of its own. -/
theorem exec_lampCommand {d : Die} {seq : Byte} {i : Instr}
    (h : (∃ id, i = .lampIdentity d seq id) ∨ (∃ c f e, i = .mapWrite d seq c f e) ∨ (∃ c, i = .mapRead d seq c) ∨
      (∃ n k f l, i = .slotWrite d seq n k f l) ∨ (∃ n, i = .slotRead d seq n) ∨
      (∃ m f ep, i = .stateCmd d seq m f ep) ∨ (∃ b f, i = .scene d seq b f) ∨
      (∃ n c m, i = .lampBurst d seq n c m) ∨ i = .status d seq ∨
      (∃ k w, i = .regRead d.hv seq k w) ∨ (∃ k w l, i = .regWrite d.hv seq k w l)) (s : State) :
    ∃ run, exec i s = s.dieCommand d seq run := by
  cases d <;>
    rcases h with ⟨_, rfl⟩ | ⟨_, _, _, rfl⟩ | ⟨_, rfl⟩ | ⟨_, _, _, _, rfl⟩ | ⟨_, rfl⟩ | ⟨_, _, _, rfl⟩ | ⟨_, _, rfl⟩ |
      ⟨_, _, _, rfl⟩ | rfl | ⟨_, _, rfl⟩ | ⟨_, _, _, rfl⟩ <;>
    exact ⟨_, rfl⟩

/-- The COMMANDs of REF. -/
theorem exec_refCommand {seq : Byte} {i : Instr}
    (h : (∃ b, i = .refConfig seq b) ∨ i = .refStatus seq ∨ (∃ b, i = .switch seq b) ∨ (∃ b, i = .refKillRelease seq b) ∨
      (∃ b, i = .refKillTest seq b) ∨ (∃ b m, i = .refPathClear seq b m) ∨ (∃ k w, i = .regRead .ref seq k w) ∨
      (∃ k w l, i = .regWrite .ref seq k w l)) (s : State) :
    ∃ run, exec i s = s.refCommand seq run := by
  rcases h with ⟨_, rfl⟩ | rfl | ⟨_, rfl⟩ | ⟨_, rfl⟩ | ⟨_, rfl⟩ | ⟨_, _, rfl⟩ | ⟨_, _, rfl⟩ | ⟨_, _, _, rfl⟩ <;>
    exact ⟨_, rfl⟩

theorem State.lend_answerCopy (l : FLink) (seq : Byte) (a : List Byte) (s : State) :
    let x := (s.answerCopy l seq a).lend l .second
    x = { s.lend l .second with lastValidAt := s.now, tx := x.tx, txAt := x.txAt, txPositive := x.txPositive } := by
  simp only [State.answerCopy, State.answerLink, State.lend_putLink, State.heard, State.lend_modEnd]
  rw [LinkEnd.transmit_keeps]

theorem State.answerCopy_sameOtherEnds (l : FLink) (seq : Byte) (a : List Byte) (s : State) :
    SameOtherEnds l .second s (s.answerCopy l seq a) :=
  (s.heard_sameOtherEnds l .second).trans (State.putLink_sameOtherEnds _ l .second seq _)

/-- Settles O12: the repeat and the end of a COMMAND, the RESPONSE at either end, and the copies, which run no COMMAND. -/
theorem commandsAreRepeatedAndAnsweredOnce : Obligations.CommandsAreRepeatedAndAnsweredOnce := by
  refine ⟨fun l seq o s hrun hopen => ⟨fun htries => ?_, fun htries hissuer => ?_⟩,
    ⟨fun d seq payload o s hrun hopen hissuer hlen => ?_, fun d seq q payload r s hrun hwaits => ?_⟩,
    fun d seq a s hpow hcopy i hi => ?_, fun seq a s hrun hcopy i hi => ?_⟩
  case refine_1 =>
    refine ⟨_, exec_commandRetryTimeout_again hrun hopen htries, rfl, ?_, rfl, ?_, s.retryCommand_sameOtherEnds l seq o,
      ⟨rfl, rfl, rfl⟩, ⟨rfl, rfl, rfl⟩, ⟨rfl, rfl⟩, rfl, rfl⟩
    · rw [State.opened_retryCommand]; exact OpenCommand.find?_retried hopen _
    · rw [State.opened_retryCommand, List.length_map]
  case refine_2 =>
    refine ⟨_, exec_commandRetryTimeout_last hrun hopen htries hissuer, rfl, ?_,
      (SameOtherEnds.of_ends rfl).trans (State.modEnd_sameOtherEnds _ l .first _), ⟨rfl, rfl, rfl⟩, ⟨rfl, rfl, rfl⟩⟩
    rw [State.closeCommand, State.lend_modEnd, State.lend_until]
  case refine_3 =>
    refine ⟨_, exec_responseReceived_plain hrun hopen hissuer hlen, ?_, ?_, rfl,
      (s.heard_sameOtherEnds d.cdLink .first).trans (State.modEnd_sameOtherEnds _ d.cdLink .first _), ⟨rfl, rfl, rfl⟩,
      ⟨rfl, rfl, rfl⟩⟩ <;>
      simp [State.closeCommand, State.heard]
  case refine_4 =>
    refine ⟨_, exec_responseReceived_lamp hrun seq payload, ?_, ?_, by simp, by simp, by simp [SameLogic]⟩
    · simp [LampDie.acknowledge, hwaits]
    · simp [LampDie.acknowledge]
  case refine_5 =>
    obtain ⟨run, hexec⟩ := exec_lampCommand hi s
    refine ⟨s.answerCopy d.cdLink seq a, ?_, rfl, s.lend_answerCopy d.cdLink seq a,
      s.answerCopy_sameOtherEnds d.cdLink seq a, ⟨rfl, rfl, rfl⟩, ⟨rfl, rfl, rfl⟩, ⟨rfl, rfl⟩, rfl⟩
    rw [hexec, State.dieCommand, if_pos hpow, serveCommand_of_copy hcopy]
  case refine_6 =>
    obtain ⟨run, hexec⟩ := exec_refCommand hi s
    refine ⟨s.answerCopy .cdRef seq a, ?_, rfl, s.lend_answerCopy .cdRef seq a,
      s.answerCopy_sameOtherEnds .cdRef seq a, ⟨rfl, rfl, rfl⟩, ⟨rfl, rfl, rfl⟩, ⟨rfl, rfl⟩, rfl⟩
    rw [hexec, State.refCommand, if_pos hrun, serveCommand_of_copy hcopy]

end Sys2Proof.Machine
end

section
/-! Family 02, level links (R49, Table 2.6). REF's events change what REF sends, and nothing that a level link's receiver
has taken (`LevelLinks.receivers`); a report of a die leaves what grants and kills decide of it (`LampDie.gating`). -/

namespace Sys2Proof.Machine

/-! ### Receivers of level links -/

/-- A level link without what its source sends. -/
def LevelLink.receiver (x : LevelLink) : LevelLink := { x with sent := none }

/-- What the receiver of every level link holds, whatever its source sends. -/
def LevelLinks.receivers (v : LevelLinks) : LLink → LevelLink := fun l => (v.get l).receiver

theorem LevelLinks.receivers_set {v : LevelLinks} {l : LLink} {x : LevelLink}
    (h : x.receiver = (v.get l).receiver) : (v.set l x).receivers = v.receivers := by
  funext m
  by_cases hm : m = l
  · subst hm; simp [LevelLinks.receivers, h]
  · simp [LevelLinks.receivers, LevelLinks.get_set_ne _ _ _ _ hm]

section
variable (s : State)

/-! A source that changes what it sends (R49) leaves the receivers; so does every event of REF, which changes GRANT and KILL
only. -/

@[simp] theorem State.drive_levelReceivers (l v) : (s.drive l v).level.receivers = s.level.receivers :=
  LevelLinks.receivers_set rfl
@[simp] theorem State.grantTo_levelReceivers (src y c k n) :
    (s.grantTo src y c k n).level.receivers = s.level.receivers := by
  rw [← State.drive_levelReceivers s y.grantLink (some true), State.grantTo]
  split <;> simp
@[simp] theorem State.tryGrant_levelReceivers : s.tryGrant.level.receivers = s.level.receivers := by
  simp only [State.tryGrant]; (repeat' split) <;> simp only [State.grantTo_levelReceivers]
@[simp] theorem State.dieIsClear_levelReceivers : s.dieIsClear.level.receivers = s.level.receivers := by
  unfold State.dieIsClear; split <;> simp
@[simp] theorem State.killStuck_levelReceivers (x) : (s.killStuck x).level.receivers = s.level.receivers := by
  rw [← State.drive_levelReceivers s x.killLink (some true), State.killStuck]
  simp
@[simp] theorem State.releaseKill_levelReceivers (x) : (s.releaseKill x).level.receivers = s.level.receivers :=
  State.drive_levelReceivers ..
@[simp] theorem State.beginSwitch_levelReceivers (x y c) : (s.beginSwitch x y c).level.receivers = s.level.receivers := by
  rw [← State.drive_levelReceivers s x.grantLink (some false)]
  simp only [State.beginSwitch]; (repeat' split) <;> simp
@[simp] theorem State.lastResortRelease_levelReceivers (y) :
    (s.lastResortRelease y).level.receivers = s.level.receivers := by
  unfold State.lastResortRelease; split
  · exact s.releaseKill_levelReceivers y
  · rfl
@[simp] theorem State.hardSwitch_levelReceivers (x c) : (s.hardSwitch x c).level.receivers = s.level.receivers := by
  unfold State.hardSwitch; split <;> simp
@[simp] theorem State.evaluateCauses_levelReceivers : s.evaluateCauses.level.receivers = s.level.receivers := by
  unfold State.evaluateCauses; (repeat' split) <;> simp
@[simp] theorem State.refEvent_levelReceivers : s.refEvent.level.receivers = s.level.receivers := by
  unfold State.refEvent; split <;> simp

end

/-! ### What grants, kills and starts decide of a lamp die (R208 to R210, R218) -/

/-- Supply, start, kill, grant, gates and gap of a lamp die. -/
structure Gating where
  powered : Bool
  bootDone : Bool
  failed : Bool
  shutdown : Bool
  killed : Bool
  gateSupply : Bool
  grant : Bool
  gate : Bool
  gapBlank : Bool

def LampDie.gating (x : LampDie) : Gating :=
  ⟨x.powered, x.bootDone, x.failed, x.shutdown, x.killed, x.gateSupply, x.grant, x.gate, x.gapBlank⟩

def State.gatings (s : State) : Die → Gating := fun d => (s.die d).gating

theorem State.die_of_same {s t : State} (ha : t.la = s.la) (hb : t.lb = s.lb) (d : Die) : t.die d = s.die d := by
  cases d
  · exact ha
  · exact hb

theorem State.gatings_of_same {s t : State} (ha : t.la = s.la) (hb : t.lb = s.lb) : t.gatings = s.gatings :=
  funext fun d => congrArg LampDie.gating (State.die_of_same ha hb d)

theorem Die.eq_or_other (d e : Die) : e = d ∨ e = d.other := by cases d <;> cases e <;> simp [Die.other]

section
variable (s : State)

theorem State.modDie_gatings {f : LampDie → LampDie} (h : ∀ x, (f x).gating = x.gating) (d : Die) :
    (s.modDie d f).gatings = s.gatings := by
  funext e
  obtain rfl | rfl := Die.eq_or_other d e
  · exact (congrArg LampDie.gating (s.die_modDie e f)).trans (h _)
  · exact congrArg LampDie.gating (s.die_modDie_other d f)

/-! ### Reports -/

@[simp] theorem State.sendQueued_gatings (l seq q) : (s.sendQueued l seq q).gatings = s.gatings :=
  State.gatings_of_same (by simp) (by simp)
@[simp] theorem State.dieReport_gatings (d event f subject data) :
    (s.dieReport d event f subject data).gatings = s.gatings := by
  simp only [State.dieReport]
  rw [State.sendQueued_gatings, State.modDie_gatings]
  exact fun _ => rfl
@[simp] theorem State.raiseAt_gatings (st f subject data) : (s.raiseAt st f subject data).gatings = s.gatings := by
  cases st
  case lamp d => exact s.dieReport_gatings ..
  all_goals exact State.gatings_of_same (by simp [State.raiseAt]) (by simp [State.raiseAt])
@[simp] theorem State.clearAt_gatings (st f subject) : (s.clearAt st f subject).gatings = s.gatings := by
  cases st
  case lamp d => exact s.dieReport_gatings ..
  all_goals exact State.gatings_of_same (by simp [State.clearAt]) (by simp [State.clearAt])

end

/-! ### LEVEL_LINK_SILENT (R49, Table 2.6) -/

/-- The receiver finds its link silent: what it does then is its silence's fault and effect. -/
def State.foundSilent (l : LLink) (s : State) : State :=
  ((s.until ((s.lv l).wordAt + 1500)).modLevel l fun x =>
    { x with silent := true, silentAt := max s.now ((s.lv l).wordAt + 1500), raised := true, last := none }).raiseAt
    (levelEnd l) fLevelSilent l.subject []

theorem exec_levelLinkSilent {l : LLink} {s : State} (h : (s.lv l).silent = false) :
    exec (.levelLinkSilent l) s = .next ((s.foundSilent l).silenceEffect l) := by
  simp only [exec, execLevelLinkSilent, h]; rfl

theorem State.lv_of_level {s t : State} (h : t.level = s.level) (l : LLink) : t.lv l = s.lv l := by simp [State.lv, h]

theorem State.raiseAt_lv (st : Station) (f : FaultDef) (subject : Byte) (data : List Byte) (l : LLink) (s : State) :
    (s.raiseAt st f subject data).lv l = s.lv l := State.lv_of_level (by simp) l

theorem State.foundSilent_lv (l : LLink) (s : State) :
    (s.foundSilent l).lv l = { s.lv l with
      silent := true, silentAt := max s.now ((s.lv l).wordAt + 1500), raised := true, last := none } := by
  rw [State.foundSilent, State.raiseAt_lv, State.lv_modLevel]; rfl

theorem State.foundSilent_gatings (l : LLink) (s : State) : (s.foundSilent l).gatings = s.gatings := by
  rw [State.foundSilent, State.raiseAt_gatings]; rfl

theorem State.silenceEffect_grant (d : Die) (s : State) : s.silenceEffect d.grantLink = s := by cases d <;> rfl

theorem State.silenceEffect_kill (d : Die) (s : State) : s.silenceEffect d.killLink =
    if (s.die d).killed then (s.modLevel d.killLink fun x => { x with taken := false }).endKill d else s := by
  cases d <;> rfl

theorem State.endKill_lv (d : Die) (l : LLink) (s : State) : (s.endKill d).lv l = s.lv l := State.lv_of_level (by simp) l

theorem State.die_endKill (d : Die) (s : State) : (s.endKill d).die d =
    { s.die d with killed := false, gateSupply := (s.die d).powered, grant := false, settling := true } :=
  State.die_modDie ..

theorem State.silenceEffect_drive (d : Die) (s : State) : s.silenceEffect d.driveLink = (s.findDieLost d).refEvent := by
  cases d <;> rfl

/-- Every level link is the GRANT, the DRIVE or the KILL link of a die. -/
theorem LLink.eq_link (l : LLink) : ∃ d : Die, l = d.grantLink ∨ l = d.driveLink ∨ l = d.killLink := by
  cases l
  case grantA => exact ⟨.la, .inl rfl⟩
  case grantB => exact ⟨.lb, .inl rfl⟩
  case driveA => exact ⟨.la, .inr (.inl rfl)⟩
  case driveB => exact ⟨.lb, .inr (.inl rfl)⟩
  case killA => exact ⟨.la, .inr (.inr rfl)⟩
  case killB => exact ⟨.lb, .inr (.inr rfl)⟩

/-- What a silence has its receiver do does not end the silence. -/
theorem State.silenceEffect_silent (l : LLink) (s : State) :
    ((s.silenceEffect l).lv l).silent = (s.lv l).silent ∧ ((s.silenceEffect l).lv l).silentAt = (s.lv l).silentAt := by
  obtain ⟨d, rfl | rfl | rfl⟩ := LLink.eq_link l
  · rw [State.silenceEffect_grant]; exact ⟨rfl, rfl⟩
  · rw [State.silenceEffect_drive]
    have hends : (s.findDieLost d).refEvent.level.receivers = s.level.receivers := by simp
    have hlink := congrFun hends d.driveLink
    exact ⟨(congrArg LevelLink.silent hlink :), (congrArg LevelLink.silentAt hlink :)⟩
  · rw [State.silenceEffect_kill]
    split <;> simp [State.endKill_lv]

theorem State.grant_of_gatings {s t : State} (h : t.gatings = s.gatings) (d : Die) : (t.die d).grant = (s.die d).grant :=
  have hgrant := congrArg Gating.grant (congrFun h d)
  hgrant

theorem State.killed_of_gatings {s t : State} (h : t.gatings = s.gatings) (d : Die) : (t.die d).killed = (s.die d).killed :=
  have hkilled := congrArg Gating.killed (congrFun h d)
  hkilled

theorem State.powered_of_gatings {s t : State} (h : t.gatings = s.gatings) (d : Die) :
    (t.die d).powered = (s.die d).powered :=
  have hpowered := congrArg Gating.powered (congrFun h d)
  hpowered

/-- Settles O13: the silence itself decides a DRIVE link, a GRANT link's silence has no effect, and a KILL link's ends the
kill. -/
theorem silentLevelLinkReadsAsTableSays : Obligations.SilentLevelLinkReadsAsTableSays := by
  intro l s hheard
  have hfound := s.foundSilent_lv l
  have hgating := s.foundSilent_gatings l
  obtain ⟨hkept, hkeptAt⟩ := State.silenceEffect_silent l (s.foundSilent l)
  have hsilent : (((s.foundSilent l).silenceEffect l).lv l).silent = true := by rw [hkept, hfound]
  refine ⟨_, exec_levelLinkSilent hheard, hsilent, by rw [hkeptAt, hfound], fun hl => ?_, ?_, ?_⟩
  · have hnone : (s.foundSilent l).silenceEffect l = s.foundSilent l := by rcases hl with rfl | rfl <;> rfl
    rw [hnone, hfound]
    exact ⟨rfl, State.grant_of_gatings hgating⟩
  · rintro d rfl
    simp [State.refDriving, hsilent]
  · rintro d rfl
    rw [State.silenceEffect_kill, State.killed_of_gatings hgating]
    split
    next hkilled =>
      rw [State.die_endKill]
      exact ⟨rfl, fun _ => State.powered_of_gatings hgating d⟩
    next hfree =>
      rw [State.killed_of_gatings hgating]
      exact ⟨by simpa using hfree, fun hkilled => absurd hkilled hfree⟩

end Sys2Proof.Machine
end

section
/-! Family 02, what leaves alone what grants, kills and starts decide of a lamp die (`SameGating`): its reports, the
cycle it shows, and what it takes over (R225). -/

namespace Sys2Proof.Machine

/-- Of the dies at most lamp die `d` changed, and not in what grants, kills and starts decide of it. -/
def SameGating (d : Die) (s t : State) : Prop :=
  t.gatings = s.gatings ∧ t.die d.other = s.die d.other ∧ t.ref = s.ref ∧ SameLogic s t

/-! ### Rules: what keeps `SameGating` -/

namespace SameGating

variable {d : Die} {s t u : State}

theorem refl (d : Die) (s : State) : SameGating d s s := ⟨rfl, rfl, rfl, rfl, rfl, rfl⟩

theorem trans (h : SameGating d s t) (k : SameGating d t u) : SameGating d s u := by
  obtain ⟨hgat, hother, href, hao, hcd, hld⟩ := h
  obtain ⟨kgat, kother, kref, kao, kcd, kld⟩ := k
  exact ⟨kgat.trans hgat, kother.trans hother, kref.trans href, kao.trans hao, kcd.trans hcd, kld.trans hld⟩

theorem ite {c : Prop} [Decidable c] (h : SameGating d s t) (k : SameGating d s u) :
    SameGating d s (if c then t else u) := by
  split <;> assumption

theorem foldl {α : Type} {f : State → α → State} (hf : ∀ t x, SameGating d t (f t x)) (l : List α)
    (h : SameGating d s t) : SameGating d s (l.foldl f t) := by
  induction l generalizing t with
  | nil => exact h
  | cons x l ih => exact ih (h.trans (hf t x))

theorem modDie {f : LampDie → LampDie} (h : SameGating d s t) (hf : ∀ x, (f x).gating = x.gating) :
    SameGating d s (t.modDie d f) :=
  h.trans ⟨t.modDie_gatings hf d, t.die_modDie_other d f, by simp, by simp [SameLogic]⟩

theorem modChan {c : Chan} {f : Channel → Channel} (h : SameGating d s t) : SameGating d s (t.modChan d c f) :=
  h.modDie fun _ => rfl

theorem modEnd {l : FLink} {e : LEnd} {f : LinkEnd → LinkEnd} (h : SameGating d s t) : SameGating d s (t.modEnd l e f) :=
  h.trans ⟨rfl, by cases d <;> rfl, rfl, rfl, rfl, rfl⟩

theorem emit {x : Emission} (h : SameGating d s t) : SameGating d s (t.emit x) :=
  h.trans ⟨rfl, by cases d <;> rfl, rfl, rfl, rfl, rfl⟩

theorem modLevel {l : LLink} {f : LevelLink → LevelLink} (h : SameGating d s t) : SameGating d s (t.modLevel l f) :=
  h.trans ⟨rfl, by cases d <;> rfl, rfl, rfl, rfl, rfl⟩

theorem sendQueued {l : FLink} {seq : Byte} {q : List DieReport} (h : SameGating d s t) :
    SameGating d s (t.sendQueued l seq q) :=
  h.trans ⟨t.sendQueued_gatings l seq q, State.die_of_same (by simp) (by simp) _, by simp, by simp [SameLogic]⟩

theorem dieReport {event : BitVec 2} {f : FaultDef} {subject : Byte} {data : List Byte} (h : SameGating d s t) :
    SameGating d s (t.dieReport d event f subject data) :=
  .sendQueued (.modDie h fun _ => rfl)

theorem dieRaise {f : FaultDef} {subject : Byte} {data : List Byte} (h : SameGating d s t) :
    SameGating d s (t.dieRaise d f subject data) := h.dieReport

theorem dieClear {f : FaultDef} {subject : Byte} (h : SameGating d s t) : SameGating d s (t.dieClear d f subject) :=
  h.dieReport

theorem dieCond {f : FaultDef} {subject : Byte} {data : List Byte} {holds : Bool} (h : SameGating d s t) :
    SameGating d s (t.dieCond d f subject data holds) :=
  .ite (.dieRaise (.modDie h fun _ => rfl)) (.ite (.dieClear (.modDie h fun _ => rfl)) h)

/-! ### Showing a cycle -/

theorem updatePl (h : SameGating d s t) : SameGating d s (t.updatePl d) := h.modDie fun _ => rfl

theorem spendView {c : Chan} (h : SameGating d s t) : SameGating d s (t.modDie d (LampDie.spendView c)) :=
  h.modDie fun _ => rfl

theorem insertAlarm {seq : Byte} {r : AlarmRecord} (h : SameGating d s t) : SameGating d s (t.insertAlarm d seq r) :=
  .modDie (.modEnd h.emit) fun _ => rfl

theorem buildAlarm {c : Chan} {kind : BitVec 4} {noReq : Bool} (h : SameGating d s t) :
    SameGating d s (t.buildAlarm d c kind noReq) :=
  .modEnd (.insertAlarm (.modDie h fun _ => rfl))

theorem declareDark {c : Chan} {k : DarkKind} (h : SameGating d s t) : SameGating d s (t.declareDark d c k) :=
  .updatePl (.dieRaise (.buildAlarm (.modChan h.spendView)))

theorem clearDark {c : Chan} {p : Proof} {noReq : Bool} (h : SameGating d s t) :
    SameGating d s (t.clearDark d c p noReq) :=
  .dieClear (.buildAlarm h.modChan)

theorem qualify {c : Chan} (h : SameGating d s t) : SameGating d s (t.qualify d c) := .ite h.modChan h.declareDark

theorem dutyStep {c : Chan} (h : SameGating d s t) : SameGating d s (t.dutyStep d c) :=
  .ite (.ite h.qualify h) (.ite h.clearDark (.modChan h.spendView))

end SameGating

theorem LampDie.gating_narrowBurst (x : LampDie) : x.narrowBurst.gating = x.gating := by
  unfold LampDie.narrowBurst; split <;> rfl

theorem LampDie.gating_showAll (x : LampDie) : x.showAll.gating = x.gating := x.gating_narrowBurst

/-- To show its cycle a die changes nothing that grants, kills and starts decide. -/
theorem SameGating.showCycle {d : Die} {s t : State} (h : SameGating d s t) : SameGating d s (t.showCycle d) :=
  have hshown : SameGating d s (t.modDie d LampDie.showAll) := h.modDie LampDie.gating_showAll
  .updatePl (.foldl (fun u _ => (SameGating.refl d u).dieCond) _
    (.ite (.foldl (fun u _ => (SameGating.refl d u).dutyStep) _ hshown) hshown))

/-! ### Taking over (R225) -/

theorem LampDie.gating_dropWaiting (x : LampDie) : x.dropWaiting.gating = x.gating := by
  unfold LampDie.dropWaiting
  split
  · split <;> rfl
  · rfl

theorem LampDie.gating_clock (x : LampDie) (c : DieClock) : ({ x with clock := c } : LampDie).gating = x.gating := rfl

theorem LampDie.gating_takeFallback (x : LampDie) : x.takeFallback.gating = x.gating := x.gating_dropWaiting

namespace SameGating

variable {d : Die} {s t : State} (h : SameGating d s t)
include h

theorem takeCycle {m : MirrorP} : SameGating d s (t.takeCycle d m) :=
  .ite (h.modDie fun x => x.gating_clock _) h

theorem takeBurstOver {m : MirrorP} : SameGating d s (t.takeBurstOver d m) :=
  .ite (.ite (h.modDie fun _ => rfl) (.ite (h.modDie fun _ => rfl) (.dieRaise (h.modDie fun _ => rfl)))) h

theorem takeHold {m : MirrorP} : SameGating d s (t.takeHold d m) :=
  .ite (h.modDie fun x => x.gating_takeFallback) (.ite (h.modDie fun _ => rfl) h)

theorem takeProof {m : MirrorP} : SameGating d s (t.modDie d fun x => { x.takeProof m with alarmSeq := m.alarmSeq + 16 }) :=
  h.modDie fun _ => rfl

theorem takeover : SameGating d s (t.takeover d) := by
  unfold State.takeover
  extract_lets x u
  have hu : SameGating d s u := h.modDie fun _ => rfl
  have hlater : SameGating d s (u.modDie d fun x => { x with alarmSeq := x.alarmSeq + 16 }) := hu.modDie fun _ => rfl
  generalize x.mirror.complete = frame
  cases frame with
  | none => exact .ite hlater.dieRaise hlater
  | some m => exact hu.takeCycle.takeProof.takeBurstOver.takeHold

end SameGating

/-! ### Words taken at a lamp die (R49) -/

@[simp] theorem levelEnd_grantLink (d : Die) : levelEnd d.grantLink = .lamp d := by cases d <;> rfl
@[simp] theorem levelEnd_killLink (d : Die) : levelEnd d.killLink = .lamp d := by cases d <;> rfl

theorem State.hearWords_at_lamp {l : LLink} {d : Die} (h : levelEnd l = .lamp d) (words : List (BitVec 12)) (s : State) :
    SameGating d s (s.hearWords l words) ∧ (s.hearWords l words).die d =
      { s.die d with invalidWords := ((s.hearWords l words).die d).invalidWords } := by
  simp only [State.hearWords, State.countInvalid, h]
  refine ⟨.modLevel (.modDie (.refl d s) fun _ => rfl), ?_⟩
  cases d <;> rfl

theorem State.takeLevel_sameGating {l : LLink} {d : Die} (h : levelEnd l = .lamp d) (v : Bool) (words : List (BitVec 12))
    (s : State) : SameGating d s (s.takeLevel l v words) := by
  obtain ⟨hheard, -⟩ := State.hearWords_at_lamp h words s
  simp only [State.takeLevel, h]
  exact .modLevel (.modLevel (.ite hheard.dieClear hheard))

theorem State.takeLevel_lv (l : LLink) (v : Bool) (words : List (BitVec 12)) (s : State) :
    ((s.takeLevel l v words).lv l).taken = v ∧ ((s.takeLevel l v words).lv l).silent = false := by
  simp [State.takeLevel, State.take]

end Sys2Proof.Machine
end

section
/-! Family 02, GRANT and KILL at a lamp die (R208, R209, R218, R220), and O31. -/

namespace Sys2Proof.Machine

section
variable (d e : Die) (s : State)

@[simp] theorem State.die_modLevel (l : LLink) (f : LevelLink → LevelLink) : (s.modLevel l f).die e = s.die e := by
  cases e <;> rfl

@[simp] theorem State.die_drive (l : LLink) (v : Option Bool) : (s.drive l v).die e = s.die e := s.die_modLevel ..

theorem grantLink_ne_driveLink : d.grantLink ≠ d.driveLink := by cases d <;> simp [Die.grantLink, Die.driveLink]

/-! ### The gap of a switch-over (R193, R220) -/

theorem State.die_beginGap : s.beginGap.die e = { s.die e with gapBlank := true } := by cases e <;> rfl

theorem State.gating_endGap : (s.endGap.die e).gating = { (s.die e).gating with gapBlank := false } := by cases e <;> rfl

theorem State.lv_endGap (l : LLink) : s.endGap.lv l = s.lv l := rfl

/-! ### Gates and DRIVE (R209) -/

def Gating.canGate (g : Gating) : Bool := g.powered && g.gateSupply && g.bootDone && !g.failed && !g.shutdown

theorem LampDie.canGate_eq (x : LampDie) : x.canGate = x.gating.canGate := rfl

theorem State.openGates_of_canGate (h : (s.die d).canGate = true) :
    s.openGates d = ((s.modDie d fun x => { x with gate := true }).drive d.driveLink (some true)).endGap := if_pos h

theorem State.openGates_of_not (h : (s.die d).canGate = false) : s.openGates d = s := if_neg (by simp [h])

theorem State.gating_openGates (h : (s.die d).canGate = true) :
    ((s.openGates d).die d).gating = { (s.die d).gating with gate := true, gapBlank := false } := by
  rw [State.openGates_of_canGate d s h, State.gating_endGap, State.die_drive, State.die_modDie]; rfl

theorem State.gating_openGates_other (h : (s.die d).canGate = true) :
    ((s.openGates d).die d.other).gating = { (s.die d.other).gating with gapBlank := false } := by
  rw [State.openGates_of_canGate d s h, State.gating_endGap, State.die_drive, State.die_modDie_other]

theorem State.sent_openGates (h : (s.die d).canGate = true) : ((s.openGates d).lv d.driveLink).sent = some true := by
  rw [State.openGates_of_canGate d s h, State.lv_endGap, State.drive, State.lv_modLevel]

theorem State.lv_openGates_ne {l : LLink} (hl : l ≠ d.driveLink) : (s.openGates d).lv l = s.lv l := by
  cases h : (s.die d).canGate
  · rw [State.openGates_of_not d s h]
  · rw [State.openGates_of_canGate d s h, State.lv_endGap, State.drive, State.lv_modLevel_ne _ hl]
    exact State.lv_of_level (by simp) l

theorem State.die_closeGates : (s.closeGates d).die d =
    { (s.die d).mapChans fun _ h => { h with wheel := false } with gate := false } := by
  rw [State.closeGates, State.die_drive, State.die_modDie]

theorem State.die_closeGates_other : (s.closeGates d).die d.other = s.die d.other := by
  rw [State.closeGates, State.die_drive, State.die_modDie_other]

theorem State.sent_closeGates : ((s.closeGates d).lv d.driveLink).sent = some false := by
  rw [State.closeGates, State.drive, State.lv_modLevel]

/-! ### A die that starts to drive (R209, R220) -/

/-- A die starts to drive by opening its gates: what comes before and after changes nothing that grants and kills decide. -/
theorem State.startDriving_opens :
    ∃ t, SameGating d s t ∧ t.level = s.level ∧ SameGating d (t.openGates d) (s.startDriving d) ∧
      (s.startDriving d).level = (t.openGates d).level :=
  ⟨(s.takeover d).modDie d fun x => { x with store := x.store.lastNow x.clock.boundaryAt },
    (SameGating.refl d s).takeover.modDie fun _ => rfl, by simp, (SameGating.refl d _).showCycle, by simp [State.startDriving]⟩

theorem State.startDriving_of_canGate (h : (s.die d).canGate = true) :
    ((s.startDriving d).die d).gating = { (s.die d).gating with gate := true, gapBlank := false } ∧
      ((s.startDriving d).die d.other).gating = { (s.die d.other).gating with gapBlank := false } ∧
      ((s.startDriving d).lv d.driveLink).sent = some true := by
  obtain ⟨t, ⟨hbefore, -⟩, -, ⟨hafter, -⟩, hlevel⟩ := s.startDriving_opens d
  have hown : (t.die d).gating = (s.die d).gating := congrFun hbefore d
  have hother : (t.die d.other).gating = (s.die d.other).gating := congrFun hbefore d.other
  have hcan : (t.die d).canGate = true := by rw [LampDie.canGate_eq, hown, ← LampDie.canGate_eq, h]
  refine ⟨(congrFun hafter d).trans ?_, (congrFun hafter d.other).trans ?_, ?_⟩
  · rw [State.gatings, State.gating_openGates d t hcan, hown]
  · rw [State.gatings, State.gating_openGates_other d t hcan, hother]
  · rw [State.lv_of_level hlevel, State.sent_openGates d t hcan]

theorem State.startDriving_of_not (h : (s.die d).canGate = false) : (s.startDriving d).gatings = s.gatings := by
  obtain ⟨t, ⟨hbefore, -⟩, -, ⟨hafter, -⟩, -⟩ := s.startDriving_opens d
  have hown : (t.die d).gating = (s.die d).gating := congrFun hbefore d
  have hcan : (t.die d).canGate = false := by rw [LampDie.canGate_eq, hown, ← LampDie.canGate_eq, h]
  rw [hafter, State.openGates_of_not d t hcan, hbefore]

/-- To start to drive changes no die's grant, nor the other die's gate. -/
theorem State.startDriving_keeps :
    ((s.startDriving d).die d).grant = (s.die d).grant ∧ ((s.startDriving d).die d.other).grant = (s.die d.other).grant ∧
      ((s.startDriving d).die d.other).gate = (s.die d.other).gate := by
  cases h : (s.die d).canGate
  · have hsame := s.startDriving_of_not d h
    exact ⟨State.grant_of_gatings hsame d, State.grant_of_gatings hsame d.other,
      (congrArg Gating.gate (congrFun hsame d.other) :)⟩
  · obtain ⟨hown, hother, -⟩ := s.startDriving_of_canGate d h
    exact ⟨(congrArg Gating.grant hown :), (congrArg Gating.grant hother :), (congrArg Gating.gate hother :)⟩

theorem State.startDriving_lv_ne {l : LLink} (hl : l ≠ d.driveLink) : (s.startDriving d).lv l = s.lv l := by
  obtain ⟨t, -, hbefore, -, hafter⟩ := s.startDriving_opens d
  rw [State.lv_of_level hafter, State.lv_openGates_ne d t hl, State.lv_of_level hbefore]

end

/-! ### GRANT_TAKEN (R208, R209) -/

section
variable {d : Die} {words : List (BitVec 12)} {s : State}

/-- Granted is latched: what it starts comes after. -/
def State.latchGrant (d : Die) (words : List (BitVec 12)) (s : State) : State :=
  (s.takeLevel d.grantLink true words).modDie d fun x => { x with grant := true, orphan := false }

theorem State.latchGrant_gating (d : Die) (words : List (BitVec 12)) (s : State) :
    ((s.latchGrant d words).die d).gating = { (s.die d).gating with grant := true } ∧
      (s.latchGrant d words).die d.other = s.die d.other := by
  obtain ⟨hgat, hother, -⟩ := State.takeLevel_sameGating (levelEnd_grantLink d) true words s
  have hown : ((s.takeLevel d.grantLink true words).die d).gating = (s.die d).gating := congrFun hgat d
  rw [State.latchGrant, State.die_modDie, State.die_modDie_other, hother, ← hown]
  exact ⟨rfl, rfl⟩

theorem State.latchGrant_lv (d : Die) (words : List (BitVec 12)) (s : State) (l : LLink) :
    (s.latchGrant d words).lv l = (s.takeLevel d.grantLink true words).lv l := State.lv_of_level (by simp [State.latchGrant]) l

theorem State.latchGrant_frame (d : Die) (words : List (BitVec 12)) (s : State) :
    (s.latchGrant d words).ref = s.ref ∧ SameLogic s (s.latchGrant d words) := by
  obtain ⟨-, -, href, hlogic⟩ := State.takeLevel_sameGating (levelEnd_grantLink d) true words s
  simpa [State.latchGrant, SameLogic] using And.intro href hlogic

theorem exec_grantTaken_new (hp : (s.die d).powered = true) (hw : s.levelTaken d.grantLink true words = true)
    (hg : (s.die d).grant = false) :
    exec (.grantTaken d words) s = .next ((s.latchGrant d words).startDriving d) := by
  simp [exec, execGrantTaken, hp, hw, hg, State.latchGrant]

theorem exec_grantTaken_same (hp : (s.die d).powered = true) (hw : s.levelTaken d.grantLink true words = false) :
    exec (.grantTaken d words) s = .next (s.hearWords d.grantLink words) := by
  simp [exec, execGrantTaken, hp, hw]

end

/-! ### WITHDRAWN_TAKEN (R180, R208, R220) -/

/-- Die `d` drove and its grant is withdrawn: its gates and its loop are shut, and the gap has begun on both dies. -/
def Withdrew (d : Die) (s t : State) : Prop :=
  (t.die d).grant = false ∧ (t.die d).gate = false ∧ (t.lv d.driveLink).sent = some false ∧ (t.die d).plClosed = false ∧
    (t.die d).burst = none ∧ (t.die d).store.eCommit = 0 ∧ (t.die d).gapBlank = true ∧
    t.die d.other = { s.die d.other with gapBlank := true } ∧ t.ref = s.ref ∧ SameLogic s t

/-- A withdrawn driver stands down. -/
def State.latchWithdrawn (d : Die) (words : List (BitVec 12)) (s : State) : State :=
  (((s.takeLevel d.grantLink false words).modDie d fun x => { x.standDown with
    grant := false, burst := none, store := { x.store with eCommit := 0 } }).closeGates d).beginGap

theorem State.latchWithdrawn_withdrew (d : Die) (words : List (BitVec 12)) (s : State) :
    Withdrew d s (s.latchWithdrawn d words) := by
  obtain ⟨-, hother, href, hlogic⟩ := State.takeLevel_sameGating (levelEnd_grantLink d) false words s
  have hsent : ((s.latchWithdrawn d words).lv d.driveLink).sent = some false := State.sent_closeGates d _
  unfold Withdrew
  simp only [State.latchWithdrawn] at hsent ⊢
  simp only [State.die_beginGap, State.die_closeGates, State.die_closeGates_other, State.die_modDie, State.die_modDie_other,
    hother]
  exact ⟨rfl, trivial, hsent, rfl, rfl, rfl, trivial, trivial, by simpa using href, by simpa [SameLogic] using hlogic⟩

/-- A withdrawn driver whose store is spent shuts down at once (R249), which undoes nothing of the withdrawal. -/
theorem Withdrew.beginShutdown {d : Die} {s t : State} (h : Withdrew d s t) : Withdrew d s (t.beginShutdown d) := by
  obtain ⟨hgrant, -, -, -, hburst, hcommit, hgap, hother, href, hlogic⟩ := h
  have hsent : ((t.beginShutdown d).lv d.driveLink).sent = some false := State.sent_closeGates d _
  unfold Withdrew
  simp only [State.beginShutdown] at hsent ⊢
  simp only [State.die_closeGates, State.die_closeGates_other, State.die_modDie, State.die_modDie_other]
  exact ⟨hgrant, trivial, hsent, rfl, hburst, hcommit, hgap, hother, by simpa using href, by simpa [SameLogic] using hlogic⟩

section
variable {d : Die} {words : List (BitVec 12)} {s : State}

theorem exec_withdrawnTaken_new (hp : (s.die d).powered = true) (hw : s.levelTaken d.grantLink false words = true)
    (hg : (s.die d).grant = true) :
    ∃ t, exec (.withdrawnTaken d words) s = .next t ∧ Withdrew d s t := by
  have hexec : exec (.withdrawnTaken d words) s =
      .next (if (s.die d).store.phase = .finish && !(s.die d).shutdown then (s.latchWithdrawn d words).beginShutdown d
        else s.latchWithdrawn d words) := by
    simp only [exec, execWithdrawnTaken, hp, hw, hg, Bool.not_true, Bool.true_and, Bool.true_or, if_true, Bool.false_eq_true, if_false]
    rfl
  have hdown := s.latchWithdrawn_withdrew d words
  refine ⟨_, hexec, ?_⟩
  split
  · exact hdown.beginShutdown
  · exact hdown

end

/-! ### KILL_ASSERTED_TAKEN and KILL_RELEASED_TAKEN (R218) -/

/-- The kill is in force at die `d`: it has no gate-drive supply, and its gates and its loop are shut. -/
def KillInForce (d : Die) (s t : State) : Prop :=
  (t.die d).killed = true ∧ (t.die d).gateSupply = false ∧ (t.die d).gate = false ∧
    (t.lv d.driveLink).sent = some false ∧ (t.die d).plClosed = false ∧ t.ref = s.ref ∧ SameLogic s t

/-- A killed die stands down. -/
def State.latchKill (d : Die) (words : List (BitVec 12)) (s : State) : State :=
  ((s.takeLevel d.killLink true words).modDie d fun x => { x.standDown with killed := true, gateSupply := false }).closeGates d

theorem State.latchKill_inForce (d : Die) (words : List (BitVec 12)) (s : State) : KillInForce d s (s.latchKill d words) := by
  obtain ⟨-, -, href, hlogic⟩ := State.takeLevel_sameGating (levelEnd_killLink d) true words s
  have hsent : ((s.latchKill d words).lv d.driveLink).sent = some false := State.sent_closeGates d _
  unfold KillInForce
  simp only [State.latchKill] at hsent ⊢
  simp only [State.die_closeGates, State.die_modDie]
  exact ⟨rfl, rfl, trivial, hsent, rfl, by simpa using href, by simpa [SameLogic] using hlogic⟩

theorem State.latchKill_other (d : Die) (words : List (BitVec 12)) (s : State) :
    (s.latchKill d words).die d.other = s.die d.other := by
  obtain ⟨-, hother, -⟩ := State.takeLevel_sameGating (levelEnd_killLink d) true words s
  rw [State.latchKill, State.die_closeGates_other, State.die_modDie_other, hother]

theorem KillInForce.beginGap {d : Die} {s t : State} (h : KillInForce d s t) : KillInForce d s t.beginGap := by
  obtain ⟨hkilled, hsupply, hgate, hsent, hloop, href, hlogic⟩ := h
  unfold KillInForce
  rw [State.die_beginGap]
  exact ⟨hkilled, hsupply, hgate, hsent, hloop, by simpa using href, by simpa [SameLogic] using hlogic⟩

theorem State.dieMode_of_killed {d : Die} {s : State} (h : (s.die d).killed = true) : s.dieMode d = 6 := if_pos h

/-- A die that is settling shows at the release of its kill that it still boots or stands by, not that it is ready. -/
theorem State.dieMode_of_settling {d : Die} {s : State} (hkilled : (s.die d).killed = false)
    (hfailed : (s.die d).failed = false) (hshut : (s.die d).shutdown = false) (hgrant : (s.die d).grant = false)
    (hsettling : (s.die d).settling = true) : s.dieMode d = 0 ∨ s.dieMode d = 2 := by
  have hready : s.dieReady d = false := by simp [State.dieReady, hsettling]
  cases hboot : (s.die d).bootDone
  · left; simp [State.dieMode, hkilled, hboot]
  · right; simp [State.dieMode, hkilled, hboot, hfailed, hshut, hgrant, hready]

section
variable {d : Die} {words : List (BitVec 12)} {s : State}

theorem exec_killAssertedTaken_new (hp : (s.die d).powered = true) (hw : s.levelTaken d.killLink true words = true)
    (hk : (s.die d).killed = false) :
    ∃ t, exec (.killAssertedTaken d words) s = .next t ∧ KillInForce d s t ∧
      t.die d.other = { s.die d.other with gapBlank := (s.die d.other).gapBlank || (s.die d).drives } := by
  have hexec : exec (.killAssertedTaken d words) s =
      .next (if (s.die d).drives then (s.latchKill d words).beginGap else s.latchKill d words) := by
    simp only [exec, execKillAssertedTaken, hp, hw, hk, Bool.not_true, Bool.not_false, Bool.true_and, Bool.true_or, if_true,
      Bool.false_eq_true, if_false]
    rfl
  have hforce := s.latchKill_inForce d words
  have hother := s.latchKill_other d words
  refine ⟨_, hexec, ?_⟩
  cases (s.die d).drives
  · exact ⟨hforce, by rw [Bool.or_false]; exact hother⟩
  · exact ⟨hforce.beginGap, by rw [Bool.or_true, if_pos rfl, State.die_beginGap, hother]⟩

/-- The words that release a kill are taken: the kill ends. -/
def State.latchRelease (d : Die) (words : List (BitVec 12)) (s : State) : State :=
  (s.takeLevel d.killLink false words).endKill d

theorem exec_killReleasedTaken_new (hw : s.levelTaken d.killLink false words = true) (hk : (s.die d).killed = true) :
    exec (.killReleasedTaken d words) s = .next (s.latchRelease d words) := by
  simp [exec, execKillReleasedTaken, hw, hk, State.latchRelease]

/-- The released die: its supply is back, its latched grant is Withdrawn, and it is settling. -/
theorem State.latchRelease_die (d : Die) (words : List (BitVec 12)) (s : State) :
    let x := (s.latchRelease d words).die d
    x.killed = false ∧ x.gateSupply = (s.die d).powered ∧ x.grant = false ∧ x.settling = true ∧
      x.failed = (s.die d).failed ∧ x.shutdown = (s.die d).shutdown := by
  obtain ⟨hgating, -⟩ := State.takeLevel_sameGating (levelEnd_killLink d) false words s
  have htaken : ((s.takeLevel d.killLink false words).die d).gating = (s.die d).gating := congrFun hgating d
  simp only [State.latchRelease, State.die_endKill]
  exact ⟨trivial, (congrArg Gating.powered htaken :), trivial, trivial, (congrArg Gating.failed htaken :),
    (congrArg Gating.shutdown htaken :)⟩

theorem State.latchRelease_frame (d : Die) (words : List (BitVec 12)) (s : State) :
    (s.latchRelease d words).die d.other = s.die d.other ∧ (s.latchRelease d words).ref = s.ref ∧
      SameLogic s (s.latchRelease d words) := by
  obtain ⟨-, hother, href, hlogic⟩ := State.takeLevel_sameGating (levelEnd_killLink d) false words s
  exact ⟨(State.die_modDie_other ..).trans hother, by simpa [State.latchRelease] using href,
    by simpa [State.latchRelease, SameLogic] using hlogic⟩

end

/-! ### The obligation -/

/-- Settles O31: a grant is latched and then opens the gates that can open, a withdrawal and a kill shut them, and a
release leaves a settling standby. -/
theorem grantsAndKillsTakeEffectAtTheDie : Obligations.GrantsAndKillsTakeEffectAtTheDie := by
  refine ⟨fun d words s hp => ⟨fun hw hg => ?_, exec_withdrawnTaken_new hp, fun hw => ?_⟩,
    fun d words s => ⟨fun hp hw hk => ?_, fun hw hk => ?_⟩⟩
  · obtain ⟨howngating, hother⟩ := State.latchGrant_gating d words s
    obtain ⟨href, hlogic⟩ := State.latchGrant_frame d words s
    obtain ⟨hgrant, hgrantOther, hgateOther⟩ := (s.latchGrant d words).startDriving_keeps d
    obtain ⟨htaken, hsilent⟩ := s.takeLevel_lv d.grantLink true words
    have hlv := ((s.latchGrant d words).startDriving_lv_ne d (grantLink_ne_driveLink d)).trans (s.latchGrant_lv d words _)
    refine ⟨_, exec_grantTaken_new hp hw hg, hgrant.trans (congrArg Gating.grant howngating :), by rw [hlv, htaken],
      by rw [hlv, hsilent], fun hcan => ?_, by simpa using href, by simpa [SameLogic] using hlogic,
      by rw [hgrantOther, hother], by rw [hgateOther, hother]⟩
    have hcan' : ((s.latchGrant d words).die d).canGate = true := by
      rw [LampDie.canGate_eq, howngating]; exact hcan
    obtain ⟨hown, hgap, hdrive⟩ := State.startDriving_of_canGate d _ hcan'
    exact ⟨(congrArg Gating.gate hown :), hdrive, (congrArg Gating.gapBlank hown :), (congrArg Gating.gapBlank hgap :)⟩
  · obtain ⟨⟨-, hother, href, hlogic⟩, hown⟩ := State.hearWords_at_lamp (levelEnd_grantLink d) words s
    exact ⟨_, exec_grantTaken_same hp hw, hown, hother, href, hlogic⟩
  · obtain ⟨t, hexec, ⟨hkilled, hsupply, hgate, hsent, hloop, href, hlogic⟩, hother⟩ := exec_killAssertedTaken_new hp hw hk
    exact ⟨t, hexec, hkilled, hsupply, hgate, hsent, State.dieMode_of_killed hkilled, hloop, hother, href, hlogic⟩
  · obtain ⟨hkilled, hsupply, hgrant, hsettling, hfailed, hshut⟩ := State.latchRelease_die d words s
    exact ⟨_, exec_killReleasedTaken_new hw hk, hkilled, hsupply, hgrant,
      fun hfree hup _ => State.dieMode_of_settling hkilled (hfailed.trans hfree) (hshut.trans hup) hgrant hsettling,
      s.latchRelease_frame d words⟩

end Sys2Proof.Machine
end

section
/-! Family 03, line lanes. What a port's stream and the engine leave as it was: the moment, the lanes, the losses the engine has
been told of and the high-voltage dies (`OffStream`); the engine leaves the ports too. -/

namespace Sys2Proof.Machine

/-! ### A family changed at one place -/

/-- The family that has a value at one place, and is as it was at every other. -/
def setAt {α β : Type} [DecidableEq α] (a : α) (x : β) (f : α → β) : α → β := fun b => if b = a then x else f b

section
variable {α β : Type} [DecidableEq α] (a : α) (x y : β) (f : α → β)

@[simp] theorem setAt_self : setAt a x f a = x := if_pos rfl
theorem setAt_of_ne {a b : α} (h : b ≠ a) : setAt a x f b = f b := if_neg h
@[simp] theorem setAt_setAt : setAt a y (setAt a x f) = setAt a y f := by
  funext b
  by_cases h : b = a
  · rw [h, setAt_self, setAt_self]
  · rw [setAt_of_ne _ _ h, setAt_of_ne _ _ h, setAt_of_ne _ _ h]
@[simp] theorem setAt_eq_self : setAt a (f a) f = f := by
  funext b
  by_cases h : b = a
  · rw [h, setAt_self]
  · exact setAt_of_ne _ _ h
end

/-! ### Off the stream -/

/-- All that the streams of the ports leave as it was. -/
structure OffStream where
  now : Nat
  lane : Port → Lane
  lost : VEnd → Option LaneLoss
  la : LampDie
  lb : LampDie
  ref : Ref

def State.offStream (s : State) : OffStream := ⟨s.now, s.lane, fun e => (s.vend e).lost, s.la, s.lb, s.ref⟩

@[simp] theorem ite_offStream (c : Prop) [Decidable c] (a b : State) :
    (if c then a else b).offStream = if c then a.offStream else b.offStream := apply_ite State.offStream c a b

section
variable (s : State)

@[simp] theorem State.emit_offStream (x) : (s.emit x).offStream = s.offStream := rfl
@[simp] theorem State.drawFree_offStream : s.drawFree.offStream = s.offStream := rfl
@[simp] theorem State.modPort_offStream (p f) : (s.modPort p f).offStream = s.offStream := by cases p <;> rfl
@[simp] theorem State.modTx_offStream (p f) : (s.modTx p f).offStream = s.offStream := s.modPort_offStream ..
@[simp] theorem State.modRx_offStream (p f) : (s.modRx p f).offStream = s.offStream := s.modPort_offStream ..
@[simp] theorem State.modCounters_offStream (p f) : (s.modCounters p f).offStream = s.offStream := s.modPort_offStream ..
@[simp] theorem State.credFree_offStream (p b) : (s.credFree p b).offStream = s.offStream := by
  cases b <;> simp [State.credFree, State.modPool]
@[simp] theorem State.fillCodeword_offStream (p) : (s.fillCodeword p).offStream = s.offStream := by
  simp only [State.fillCodeword]; split <;> simp
@[simp] theorem State.sendCodeword_offStream (p) : (s.sendCodeword p).offStream = s.offStream := by
  simp [State.sendCodeword]
@[simp] theorem State.passCodeword_offStream (p) : (s.passCodeword p).offStream = s.offStream := by
  simp [State.passCodeword]
@[simp] theorem State.flush_offStream (p) : (s.flush p).offStream = s.offStream := by
  rw [State.flush, State.modTx_offStream]
  exact foldl_keeps State.offStream _ (fun t _ => t.passCodeword_offStream p) (List.range 4) s
/-- A frame is ended as stomped by a change of its stream, if one is being sent. -/
theorem State.endStomped_cases (q k) : s.endStomped q k = s ∨
    ∃ (f : TxLine → TxLine) (n : Nat), s.endStomped q k = { (s.emit (.stomp q)).modTx q f with freeCount := n } := by
  by_cases h : (s.port q).tx.rest.isEmpty
  · exact .inl (if_pos h)
  · exact .inr ⟨_, _, if_neg h⟩
@[simp] theorem State.endStomped_offStream (q k) : (s.endStomped q k).offStream = s.offStream := by
  obtain h | ⟨f, n, h⟩ := s.endStomped_cases q k
  · rw [h]
  · rw [h]; exact (s.emit (.stomp q)).modTx_offStream q f
theorem State.forPorts_offStream {f : Port → State → State} (h : ∀ q t, (f q t).offStream = t.offStream) (ps) :
    (s.forPorts ps f).offStream = s.offStream := foldl_keeps State.offStream _ (fun t q => h q t) ps s
@[simp] theorem State.stompFrom_offStream (p) : (s.stompFrom p).offStream = s.offStream :=
  s.forPorts_offStream (fun q t => by simp) Port.all
@[simp] theorem State.dropUnready_offStream (p) : (s.dropUnready p).offStream = s.offStream :=
  s.forPorts_offStream (fun q t => by
    rw [State.modPort_offStream]
    exact foldl_keeps State.offStream _ (fun t g => by simp) _ t) Port.all
@[simp] theorem State.dropIngress_offStream (p) : (s.dropIngress p).offStream = s.offStream := by
  simp only [State.dropIngress, State.modRx_offStream]; split <;> simp
@[simp] theorem State.loseIngress_offStream (p) : (s.loseIngress p).offStream = s.offStream := by
  simp [State.loseIngress]
@[simp] theorem State.stopStream_offStream (p) : (s.stopStream p).offStream = s.offStream := by
  simp [State.stopStream]
@[simp] theorem State.startStream_offStream (p) : (s.startStream p).offStream = s.offStream := s.modTx_offStream ..
@[simp] theorem State.resyncCredits_offStream (p) : (s.resyncCredits p).offStream = s.offStream := by
  simp [State.resyncCredits, State.nextSeq]
@[simp] theorem State.setProbeAt_offStream (e n) : (s.modLd (LineDie.setProbeAt e n)).offStream = s.offStream := by
  cases e <;> rfl
@[simp] theorem State.abortScan_offStream (p) : (s.abortScan p).offStream = s.offStream := by
  simp only [State.abortScan]; split <;> rfl
@[simp] theorem State.leaveUp_offStream (p) : (s.leaveUp p).offStream = s.offStream := by simp [State.leaveUp]
end

/-! ### The engine and the books of faults -/

/-- What the engine and the books of faults leave: all that is off the stream, and the ports. -/
def State.line (s : State) : OffStream × (Port → PortState) := (s.offStream, s.port)

@[simp] theorem ite_line (c : Prop) [Decidable c] (a b : State) :
    (if c then a else b).line = if c then a.line else b.line := apply_ite State.line c a b

section
variable (s : State)

theorem State.line_of_ld {t : State} (hnow : t.now = s.now) (hld : t.ld = s.ld) (hhv : SameHv s t) : t.line = s.line := by
  obtain ⟨hla, hlb, href⟩ := hhv
  have hlane : t.lane = s.lane := by funext q; simp [State.lane, hld]
  have hport : t.port = s.port := by funext q; simp [State.port, hld]
  have hvend : t.vend = s.vend := by funext e; simp [State.vend, hld]
  simp [State.line, State.offStream, *]

theorem State.modVend_line (e) {f : EndState → EndState} (h : ∀ v, (f v).lost = v.lost) :
    (s.modVend e f).line = s.line := by
  have hlost : (fun g => ((s.modVend e f).vend g).lost) = fun g => (s.vend g).lost := by
    funext g
    cases e with
    | fore => cases g with
      | fore => exact h _
      | aft => rfl
    | aft => cases g with
      | fore => rfl
      | aft => exact h _
  exact congrArg (fun lost => (OffStream.mk s.now s.lane lost s.la s.lb s.ref, s.port)) hlost

@[simp] theorem State.ldReport_line (event f subject data) : (s.ldReport event f subject data).line = s.line := by
  unfold State.ldReport
  split
  next => split <;> exact s.line_of_ld (by simp) (by simp) (by simp [SameHv])
  next => rfl
@[simp] theorem State.ldRaise_line (f subject data) : (s.ldRaise f subject data).line = s.line := s.ldReport_line ..
@[simp] theorem State.ldClear_line (f subject) : (s.ldClear f subject).line = s.line := s.ldReport_line ..
@[simp] theorem State.cabInside_line (e) : (s.cabInside e).line = s.line := by
  cases e <;> simp only [State.cabInside, ite_line, State.ldRaise_line] <;> exact ite_self _
@[simp] theorem State.probeRests_line (e) : (s.probeRests e).line = s.line := by
  simp only [State.probeRests]; split
  · rfl
  · cases e <;> rfl
@[simp] theorem State.evalEnd_line (e) : (s.evalEnd e).line = s.line := by
  simp [State.evalEnd, State.modVend_line]
@[simp] theorem State.unnumberedStandings_line : s.unnumberedStandings.line = s.line := by
  simp [State.unnumberedStandings, State.modVend_line]
@[simp] theorem State.sendState_line (w ep) : (s.sendState w ep).line = s.line :=
  s.line_of_ld (by simp [State.sendState]) (by simp) (by simp [SameHv])
@[simp] theorem State.refreshLit_line : s.refreshLit.line = s.line := by simp [State.refreshLit, State.refreshState]
@[simp] theorem State.engineEvent_line : s.engineEvent.line = s.line := by simp [State.engineEvent]

@[simp] theorem State.ldRaise_offStream (f subject data) : (s.ldRaise f subject data).offStream = s.offStream :=
  congrArg Prod.fst (s.ldRaise_line f subject data)
@[simp] theorem State.ldClear_offStream (f subject) : (s.ldClear f subject).offStream = s.offStream :=
  congrArg Prod.fst (s.ldClear_line f subject)
@[simp] theorem State.engineEvent_offStream : s.engineEvent.offStream = s.offStream :=
  congrArg Prod.fst s.engineEvent_line
@[simp] theorem State.engineEvent_port : s.engineEvent.port = s.port := congrArg Prod.snd s.engineEvent_line
end

end Sys2Proof.Machine
end

section
/-! Family 03, line lanes. What each operation of bring-up and of loss makes of the moment, of the lane it is for and of the
losses the engine is told of (R62 to R77): each is a change of one lane (`OnlyLane`). -/

namespace Sys2Proof.Machine

/-! ### Changes of what is off the stream -/

namespace OffStream

/-- One lane takes a value, at a moment. -/
def put (p : Port) (n : Nat) (x : Lane) (o : OffStream) : OffStream :=
  { o with now := n, lane := setAt p x o.lane }

def setNow (n : Nat) (o : OffStream) : OffStream := { o with now := n }

def setLost (e : VEnd) (x : Option LaneLoss) (o : OffStream) : OffStream := { o with lost := setAt e x o.lost }

variable (p : Port) (n : Nat) (x : Lane) (o : OffStream)

@[simp] theorem put_now : (o.put p n x).now = n := rfl
@[simp] theorem put_lane : (o.put p n x).lane p = x := setAt_self ..
@[simp] theorem put_put (m : Nat) (y : Lane) : (o.put p n x).put p m y = o.put p m y := by simp [put]
@[simp] theorem setNow_now : (o.setNow n).now = n := rfl
@[simp] theorem setNow_lane : (o.setNow n).lane = o.lane := rfl
@[simp] theorem setNow_put (m : Nat) : (o.setNow m).put p n x = o.put p n x := rfl
@[simp] theorem put_setNow (m : Nat) : (o.put p n x).setNow m = o.put p m x := rfl
@[simp] theorem setLost_now (e v) : (o.setLost e v).now = o.now := rfl
@[simp] theorem setLost_lane (e v) : (o.setLost e v).lane = o.lane := rfl
@[simp] theorem setLost_put (e v) : (o.put p n x).setLost e v = (o.setLost e v).put p n x := rfl

end OffStream

section
variable (s : State)

@[simp] theorem State.offStream_now : s.offStream.now = s.now := rfl
@[simp] theorem State.offStream_lane : s.offStream.lane = s.lane := rfl

/-- A lane that takes the value it has, now, changes nothing. -/
theorem State.offStream_put_self (p) : s.offStream.put p s.now (s.lane p) = s.offStream :=
  congrArg (fun lane => { s.offStream with lane := lane }) (setAt_eq_self p s.lane)

@[simp] theorem State.until_offStream (n) : (s.until n).offStream = s.offStream.setNow (max s.offStream.now n) := rfl
@[simp] theorem State.tick_offStream (n) : (s.tick n).offStream = s.offStream.setNow (s.offStream.now + n) := rfl

@[simp] theorem State.modLane_offStream (p) (f : Lane → Lane) :
    (s.modLane p f).offStream = s.offStream.put p s.offStream.now (f (s.offStream.lane p)) := by
  have hlane : (s.modLane p f).lane = setAt p (f (s.lane p)) s.lane := by
    funext q
    by_cases h : q = p
    · rw [h, s.lane_modLane, setAt_self]
    · rw [s.lane_modLane_ne h, setAt_of_ne _ _ h]
  cases p <;> exact congrArg (fun lane => OffStream.mk s.now lane _ s.la s.lb s.ref) hlane

@[simp] theorem State.reportLoss_offStream (p) : (s.reportLoss p).offStream = s.offStream.setLost p.vend
    (some ⟨p, if (s.offStream.lane p).st = .blink then (s.offStream.lane p).blinkAt else s.offStream.now,
      s.offStream.now⟩) := by
  have hlost (e : VEnd) (x : Option LaneLoss) : (fun g => ((s.modVend e fun v => { v with lost := x }).vend g).lost) =
      setAt e x fun g => (s.vend g).lost := by
    funext g; cases e <;> cases g <;> rfl
  exact congrArg (fun lost => OffStream.mk s.now s.lane lost s.la s.lb s.ref) (hlost ..)

end

/-! ### Only one lane -/

/-- Only the lane of one port is changed, and nothing on the high-voltage side. -/
def OnlyLane (p : Port) (s t : State) : Prop := (∀ q, q ≠ p → t.lane q = s.lane q) ∧ SameHv s t

theorem OnlyLane.trans {p : Port} {s t u : State} (h : OnlyLane p s t) (k : OnlyLane p t u) : OnlyLane p s u := by
  obtain ⟨hlane, hla, hlb, href⟩ := h
  obtain ⟨klane, kla, klb, kref⟩ := k
  exact ⟨fun q hq => (klane q hq).trans (hlane q hq), kla.trans hla, klb.trans hlb, kref.trans href⟩

/-- What a lane took, when it took it, and what else is as it was. -/
theorem State.reads_of_put {p : Port} {n : Nat} {x : Lane} {s t : State} (h : t.offStream = s.offStream.put p n x) :
    t.now = n ∧ t.lane p = x ∧ OnlyLane p s t := by
  have hlane : t.lane = setAt p x s.lane := congrArg OffStream.lane h
  exact ⟨congrArg OffStream.now h, by rw [hlane, setAt_self], fun q hq => by rw [hlane, setAt_of_ne _ _ hq],
    congrArg OffStream.la h, congrArg OffStream.lb h, congrArg OffStream.ref h⟩

theorem State.reads_of_lost {p : Port} {n : Nat} {x : Lane} {e : VEnd} {v : Option LaneLoss} {s t : State}
    (h : t.offStream = (s.offStream.setLost e v).put p n x) :
    t.now = n ∧ t.lane p = x ∧ (t.vend e).lost = v ∧ OnlyLane p s t := by
  have hlane : t.lane = setAt p x s.lane := congrArg OffStream.lane h
  have hlost : (t.vend e).lost = setAt e v (fun g => (s.vend g).lost) e :=
    congrFun (congrArg OffStream.lost h) e
  exact ⟨congrArg OffStream.now h, by rw [hlane, setAt_self], hlost.trans (setAt_self ..),
    fun q hq => by rw [hlane, setAt_of_ne _ _ hq],
    congrArg OffStream.la h, congrArg OffStream.lb h, congrArg OffStream.ref h⟩

theorem State.modLane_onlyLane (p : Port) (f : Lane → Lane) (s : State) : OnlyLane p s (s.modLane p f) :=
  (State.reads_of_put (s.modLane_offStream p f)).2.2

/-! ### Training frames (R63) -/

/-- The lane's pattern goes on with the frame it sends. -/
def Lane.trained (p : Port) (l : Lane) : Lane :=
  { l with prbs := if l.st.trains then (trainingUi (l.controlOf p) l.statusOf l.prbs).2 else l.prbs }

section
variable (s : State)

@[simp] theorem State.train_offStream (p) :
    (s.train p).offStream = s.offStream.put p s.offStream.now ((s.offStream.lane p).trained p) := by
  simp only [State.train]
  split
  next htrains => simp [Lane.trained, htrains]
  next hquiet =>
    have hsame : (s.lane p).trained p = s.lane p := by simp [Lane.trained, hquiet]
    rw [State.offStream_lane, hsame]; exact (s.offStream_put_self p).symm

/-- The sixteen frames of Table 3.9 take 2,330 ns and change nothing of a lane but its pattern. -/
theorem State.train16_offStream (p) :
    ∃ g, (s.train16 p).offStream = s.offStream.put p (s.now + 2330) { s.lane p with prbs := g } := by
  have hfold (n : Nat) : ∃ g, ((List.range n).foldl (fun t _ => t.train p) s).offStream =
      s.offStream.put p s.now { s.lane p with prbs := g } := by
    induction n with
    | zero => exact ⟨(s.lane p).prbs, (s.offStream_put_self p).symm⟩
    | succ n ih =>
      obtain ⟨g, hg⟩ := ih
      exact ⟨_, by simp only [List.range_succ, List.foldl_append, List.foldl, State.train_offStream, hg, OffStream.put_now,
        OffStream.put_lane, OffStream.put_put, Lane.trained]; rfl⟩
  obtain ⟨g, hg⟩ := hfold 16
  exact ⟨g, by simp [State.train16, hg]⟩

end

/-! ### Bring-up (R66 to R72) -/

/-- A lane in TRAIN, from its first moment. -/
def Lane.training (now : Nat) (nrz : Bool) (l : Lane) : Lane :=
  { l with
    st := .train, enteredAt := now, nrz := nrz, taps := presetTaps, answer := 0, request := 0, rxReady := false,
    farRxReady := false, trialOk := false, farConf := false, farOk := false }

/-- A lane in FAILED, from its first moment (R71). -/
def Lane.failing (now : Nat) (l : Lane) : Lane :=
  { l with st := .failed, enteredAt := now, failures := l.failures + 1, taps := presetTaps, answer := 0, request := 0 }

/-- A failed attempt; the eighth in a row is one that is raised (R71). -/
def Lane.failed (p : Port) (now : Nat) (l : Lane) : Lane :=
  let x := (l.failing now).trained p
  if x.failures = 8 && !x.failRaised then { x with failRaised := true } else x

@[simp] theorem Lane.failed_st (p : Port) (now : Nat) (l : Lane) : (l.failed p now).st = .failed := by
  simp only [Lane.failed]; split <;> rfl
@[simp] theorem Lane.failed_failures (p : Port) (now : Nat) (l : Lane) : (l.failed p now).failures = l.failures + 1 := by
  simp only [Lane.failed]; split <;> rfl

/-- A lane that has just come UP (R72). -/
def Lane.comingUp (now : Nat) (l : Lane) : Lane :=
  { l with
    st := .up, enteredAt := now, failures := 0, failRaised := false, beaconSeen := false, markers := 0,
    badCodewords := 0, aligned := true, paramsAt := now, storedTaps := l.taps }

/-- The lane after a limit of TRAIN or VERDICT (Table 3.9). -/
def Lane.slowed (p : Port) (now : Nat) (l : Lane) : Lane :=
  if l.nrz then l.failed p now else (l.training now true).trained p

section
variable (s : State)

@[simp] theorem State.toDetect_offStream (p) : (s.toDetect p).offStream =
    s.offStream.put p s.offStream.now (((s.offStream.lane p).detecting s.offStream.now).trained p) := by
  simp [State.toDetect]

@[simp] theorem State.toTrain_offStream (p nrz) : (s.toTrain p nrz).offStream =
    s.offStream.put p s.offStream.now (((s.offStream.lane p).training s.offStream.now nrz).trained p) := by
  simp [State.toTrain, Lane.training]

/-- A draining node raises no fault for a lane (R262); raised or not, what is off the stream stays. -/
theorem State.ldRaise_unless_draining (f subject data) :
    (if s.ld.power = .draining then s else s.ldRaise f subject data).offStream = s.offStream := by
  rw [ite_offStream, State.ldRaise_offStream, ite_self]

/-- The attempt has ended, before its failure is raised. -/
def State.endAttempt (p : Port) (s : State) : State := (s.modLane p (Lane.failing s.now)).train p

theorem State.endAttempt_offStream (p) : (s.endAttempt p).offStream =
    s.offStream.put p s.now (((s.lane p).failing s.now).trained p) := by simp [State.endAttempt]

theorem State.failLane_eq (p) : s.failLane p =
    if (s.lane p).failures + 1 = 8 && !((s.endAttempt p).lane p).failRaised then
      let raised := (s.endAttempt p).modLane p fun l => { l with failRaised := true }
      if raised.ld.power = .draining then raised else raised.ldRaise fLaneBringUp p.code []
    else s.endAttempt p := rfl

@[simp] theorem State.failLane_offStream (p) : (s.failLane p).offStream =
    s.offStream.put p s.offStream.now ((s.offStream.lane p).failed p s.offStream.now) := by
  have hended := s.endAttempt_offStream p
  obtain ⟨-, hlane, -⟩ := State.reads_of_put hended
  rw [State.failLane_eq, hlane]
  split
  next hraise =>
    rw [State.ldRaise_unless_draining, State.modLane_offStream, hended, OffStream.put_put, OffStream.put_lane]
    exact congrArg (s.offStream.put p s.now ·) (if_pos hraise).symm
  next hquiet => exact hended.trans (congrArg (s.offStream.put p s.now ·) (if_neg hquiet).symm)

@[simp] theorem State.slower_offStream (p) : (s.slower p).offStream =
    s.offStream.put p s.offStream.now ((s.offStream.lane p).slowed p s.offStream.now) := by
  simp only [State.slower, Lane.slowed, ite_offStream, State.failLane_offStream, State.toTrain_offStream]
  split <;> simp [*]

@[simp] theorem State.laneComesUp_offStream (p) : (s.laneComesUp p).offStream =
    s.offStream.put p s.offStream.now ((s.offStream.lane p).comingUp s.offStream.now) := by
  simp [State.laneComesUp, Lane.comingUp]

end

end Sys2Proof.Machine
end

section
/-! Family 03, line lanes. The rows of Table 3.9 (R69 to R72), and O14. -/

namespace Sys2Proof.Machine

/-! ### Commands that change one lane -/

/-- The command completes at a moment and gives one lane a value; what else is off the streams of the ports stays. -/
def LaneBecomes (c : Instr) (p : Port) (s : State) (n : Nat) (x : Lane) : Prop :=
  ∃ t, exec c s = .next t ∧ t.offStream = s.offStream.put p n x

theorem LaneBecomes.reads {c : Instr} {p : Port} {s : State} {n : Nat} {x : Lane} (h : LaneBecomes c p s n x) :
    ∃ t, exec c s = .next t ∧ t.now = n ∧ t.lane p = x ∧ OnlyLane p s t := by
  obtain ⟨t, hexec, hput⟩ := h
  exact ⟨t, hexec, State.reads_of_put hput⟩

section
variable {p : Port} {s : State}

theorem detectComplete_becomes (hst : (s.lane p).st = .detect) (hpresent : (s.lane p).present = true) :
    let n := max s.now (max (s.lane p).presentAt (s.lane p).enteredAt + ms 1)
    LaneBecomes (.detectComplete p) p s n
      (Lane.trained p { s.lane p with st := .acquire, enteredAt := n, miswired := false }) :=
  ⟨_, if_pos (by simp [hst, hpresent]), by simp⟩

theorem acquireTimeout_becomes (hst : (s.lane p).st = .acquire) :
    let n := max s.now ((s.lane p).enteredAt + ms 4)
    LaneBecomes (.acquireTimeout p) p s n ((s.lane p).failed p n) :=
  ⟨_, if_pos hst, by simp⟩

theorem trainTimeout_becomes (hst : (s.lane p).st = .train) :
    let n := max s.now ((s.lane p).enteredAt + ms 24)
    LaneBecomes (.trainTimeout p) p s n ((s.lane p).slowed p n) :=
  ⟨_, if_pos hst, by simp⟩

theorem verdictTimeout_becomes (hst : (s.lane p).st = .verdict) :
    let n := max s.now ((s.lane p).enteredAt + ms 1)
    LaneBecomes (.verdictTimeout p) p s n ((s.lane p).slowed p n) :=
  ⟨_, if_pos hst, by simp⟩

theorem backoffEnd_becomes (hst : (s.lane p).st = .failed) :
    let n := max s.now ((s.lane p).enteredAt + (s.lane p).backoff)
    LaneBecomes (.backoffEnd p) p s n (((s.lane p).detecting n).trained p) :=
  ⟨_, if_pos hst, by simp⟩

/-- A lane whose TRIAL has ended, with what its codewords have shown (R69). -/
def Lane.judged (n : Nat) (l : Lane) : Lane :=
  { l with
    st := .verdict, enteredAt := n, trialOk := trialPasses l.nrz l.aligned l.trialBad l.trialCorrected, lockRun := 0,
    missRun := 0, frameLock := false, ctlRun := 0, staRun := 0, farConf := false, farOk := false, answer := 0, request := 0 }

theorem trialEnd_becomes (hst : (s.lane p).st = .trial) :
    let n := max s.now ((s.lane p).enteredAt + us 1200)
    LaneBecomes (.trialEnd p) p s n (((s.lane p).judged n).trained p) :=
  ⟨_, if_pos hst, by simp [Lane.judged]⟩

/-- A lane that begins TRIAL (R69). -/
def Lane.onTrial (n : Nat) (l : Lane) : Lane :=
  { l with st := .trial, enteredAt := n, alignRun := 0, aligned := false, trialBad := 0, trialCorrected := 0 }

theorem trainComplete_becomes (hst : (s.lane p).st = .train) (hrx : (s.lane p).rxReady = true)
    (hfar : (s.lane p).farRxReady = true) :
    ∃ g, LaneBecomes (.trainComplete p) p s (s.now + 2330) (Lane.onTrial (s.now + 2330) { s.lane p with prbs := g }) := by
  obtain ⟨g, hframes⟩ := s.train16_offStream p
  obtain ⟨hnow, -, -⟩ := State.reads_of_put hframes
  exact ⟨g, _, if_pos (by simp [hst, hrx, hfar]), by simp [hframes, hnow, Lane.onTrial]⟩

theorem exec_verdictComplete (hst : (s.lane p).st = .verdict) (hok : (s.lane p).trialOk = true)
    (hconf : (s.lane p).farConf = true) (hfar : (s.lane p).farOk = true) :
    exec (.verdictComplete p) s = .next ((s.train16 p).laneComesUp p) :=
  if_pos (by simp [hst, hok, hconf, hfar])

theorem exec_codewordReceived_trial (symbols) (hst : (s.lane p).st = .trial) :
    exec (.codewordReceived p symbols) s = .next ((s.modRx p fun r =>
      { r with dscr := descramblerAfter r.dscr symbols }).modLane p (Lane.tryCodeword s.now symbols)) := by
  simp [exec, execCodewordReceived, hst]

/-- Credits that are resynchronized wait for the far CREDIT (R101). -/
@[simp] theorem State.resyncCredits_creditSeen (p) (s : State) : ((s.resyncCredits p).port p).creditSeen = false := by
  simp [State.resyncCredits, State.nextSeq]

/-- The lane comes UP, and its port waits for CREDIT (R72, R101). -/
theorem verdictComplete_up (hst : (s.lane p).st = .verdict) (hok : (s.lane p).trialOk = true)
    (hconf : (s.lane p).farConf = true) (hfar : (s.lane p).farOk = true) :
    ∃ t, exec (.verdictComplete p) s = .next t ∧ (t.lane p).st = .up ∧ (t.lane p).failures = 0 ∧
      (t.port p).creditSeen = false ∧ OnlyLane p s t := by
  obtain ⟨g, hframes⟩ := s.train16_offStream p
  have hput : ((s.train16 p).laneComesUp p).offStream =
      s.offStream.put p (s.now + 2330) (Lane.comingUp (s.now + 2330) { s.lane p with prbs := g }) := by simp [hframes]
  obtain ⟨-, hlane, honly⟩ := State.reads_of_put hput
  exact ⟨_, exec_verdictComplete hst hok hconf hfar, by rw [hlane]; rfl, by rw [hlane]; rfl,
    by simp [State.laneComesUp], honly⟩

/-! ### Codewords in TRIAL (R69, R85) -/

theorem Lane.tryCodeword_st (n : Nat) (symbols) (l : Lane) : (l.tryCodeword n symbols).st = l.st := by
  unfold Lane.tryCodeword
  split
  · rfl
  · split <;> rfl

/-- The fourth codeword in a row that aligns gives alignment. -/
theorem Lane.aligning_aligned (symbols) (l : Lane) :
    (l.aligning symbols).aligned = (l.aligned || alignsOn symbols && decide (3 ≤ l.alignRun)) := by
  have hfourth : 4 ≤ min 4 (l.alignRun + 1) ↔ 3 ≤ l.alignRun := by omega
  cases halign : alignsOn symbols <;> simp [Lane.aligning, halign, hfourth]

theorem Lane.tryCodeword_of_early {n : Nat} {l : Lane} (h : n < l.enteredAt + us 200) (symbols) :
    l.tryCodeword n symbols = l.aligning symbols := if_pos h

theorem Lane.tryCodeword_of_none {n : Nat} {symbols} {l : Lane} (h : l.enteredAt + us 200 ≤ n)
    (hbad : rsDecode symbols = none) : l.tryCodeword n symbols = { l with trialBad := l.trialBad + 1 } := by
  simp [Lane.tryCodeword, Nat.not_lt.mpr h, hbad]

theorem Lane.tryCodeword_of_some {n k : Nat} {symbols c} {l : Lane} (h : l.enteredAt + us 200 ≤ n)
    (hgood : rsDecode symbols = some (c, k)) :
    l.tryCodeword n symbols = { l with trialCorrected := l.trialCorrected + k } := by
  simp [Lane.tryCodeword, Nat.not_lt.mpr h, hgood]

theorem Lane.tryCodeword_aligned_of_late {n : Nat} {l : Lane} (h : l.enteredAt + us 200 ≤ n) (symbols) :
    (l.tryCodeword n symbols).aligned = l.aligned := by
  rcases hdecode : rsDecode symbols with _ | ⟨c, k⟩
  · rw [Lane.tryCodeword_of_none h hdecode]
  · rw [Lane.tryCodeword_of_some h hdecode]

theorem codewordReceived_trial (symbols) (hst : (s.lane p).st = .trial) :
    ∃ t, exec (.codewordReceived p symbols) s = .next t ∧ t.lane p = (s.lane p).tryCodeword s.now symbols ∧
      t.now = s.now ∧ t.cd = s.cd ∧ OnlyLane p s t := by
  refine ⟨_, exec_codewordReceived_trial symbols hst, ?_⟩
  have hput : ((s.modRx p fun r => { r with dscr := descramblerAfter r.dscr symbols }).modLane p
      (Lane.tryCodeword s.now symbols)).offStream = s.offStream.put p s.now ((s.lane p).tryCodeword s.now symbols) := by simp
  obtain ⟨hnow, hlane, honly⟩ := State.reads_of_put hput
  exact ⟨hlane, hnow, rfl, honly⟩

end

/-! ### O14 -/

theorem Lane.slowed_st (p : Port) (n : Nat) (l : Lane) : (l.slowed p n).st = if l.nrz then .failed else .train := by
  unfold Lane.slowed; split
  · exact l.failed_st p n
  · rfl

/-- Settles O14: each row of the table is a change of its one lane, read off the value that the lane takes. -/
theorem laneBringUpFollowsItsTable : Obligations.LaneBringUpFollowsItsTable := by
  intro p s
  refine ⟨fun hst hpresent => ?_, fun hst => ?_, fun hst hrx hfar => ?_, fun hst => ?_, fun symbols hst => ?_,
    fun hst => ?_, fun hst => ?_, fun hst hok hconf hfar => verdictComplete_up hst hok hconf hfar, fun hst => ?_⟩
  · obtain ⟨t, hexec, hnow, hlane, honly⟩ := (detectComplete_becomes hst hpresent).reads
    exact ⟨t, hexec, by rw [hlane]; rfl, hnow, honly⟩
  · obtain ⟨t, hexec, hnow, hlane, honly⟩ := (acquireTimeout_becomes hst).reads
    exact ⟨t, hexec, by simp [hlane], by simp [hlane], hnow, honly⟩
  · obtain ⟨g, hbecomes⟩ := trainComplete_becomes hst hrx hfar
    obtain ⟨t, hexec, hnow, hlane, honly⟩ := hbecomes.reads
    exact ⟨t, hexec, by rw [hlane]; rfl, by rw [hlane]; rfl, by rw [hlane]; rfl, by rw [hlane]; rfl, hnow, honly⟩
  · obtain ⟨t, hexec, hnow, hlane, honly⟩ := (trainTimeout_becomes hst).reads
    refine ⟨t, hexec, hnow, fun hpam4 => ?_, fun hnrz => ?_, honly⟩
    · simp [hlane, Lane.slowed, hpam4, Lane.trained, Lane.training, presetTaps]
    · simp [hlane, Lane.slowed, hnrz]
  · obtain ⟨t, hexec, hlane, hnow, hcd, hothers, hhv⟩ := codewordReceived_trial symbols hst
    refine ⟨t, hexec, by rw [hlane, Lane.tryCodeword_st, hst], fun hearly => ?_, fun hlate => ?_, hothers, hhv, hcd, hnow⟩
    · rw [hlane, Lane.tryCodeword_of_early hearly]
      exact ⟨Lane.aligning_aligned .., rfl, rfl⟩
    · refine ⟨by rw [hlane, Lane.tryCodeword_aligned_of_late hlate], fun hbad => ?_, fun c n hgood => ?_⟩
      · rw [hlane, Lane.tryCodeword_of_none hlate hbad]; exact ⟨rfl, rfl⟩
      · rw [hlane, Lane.tryCodeword_of_some hlate hgood]; exact ⟨rfl, rfl⟩
  · obtain ⟨t, hexec, hnow, hlane, honly⟩ := (trialEnd_becomes hst).reads
    exact ⟨t, hexec, by rw [hlane]; rfl, by rw [hlane]; rfl, hnow, honly⟩
  · obtain ⟨t, hexec, hnow, hlane, honly⟩ := (verdictTimeout_becomes hst).reads
    exact ⟨t, hexec, hnow, by rw [hlane, Lane.slowed_st], honly⟩
  · obtain ⟨t, hexec, hnow, hlane, honly⟩ := (backoffEnd_becomes hst).reads
    refine ⟨t, hexec, by rw [hlane]; rfl, by rw [hlane]; rfl, ?_, honly⟩
    rw [hnow, Lane.backoff]; rfl

end Sys2Proof.Machine
end

section
/-! Family 03, line lanes. Interruptions and losses of a lane in UP (R73 to R77), and what becomes of the frames that were being
cut through from its port (R95, R102). -/

namespace Sys2Proof.Machine

/-! ### Losses (R74, R77) -/

/-- A lane is lost: the engine learns since when it was interrupted, and full bring-up begins. -/
def OffStream.lose (p : Port) (o : OffStream) : OffStream :=
  (o.setLost p.vend (some ⟨p, if (o.lane p).st = .blink then (o.lane p).blinkAt else o.now, o.now⟩)).put p o.now
    (((o.lane p).detecting o.now).trained p)

section
variable (s : State)

@[simp] theorem State.loseLane_offStream (p) : (s.loseLane p).offStream = s.offStream.lose p := by
  simp [State.loseLane, OffStream.lose] <;> rfl

/-! ### Interruptions (R73, R76, R102) -/

/-- A lane that is interrupted at a moment. -/
def Lane.interrupted (now : Nat) (l : Lane) : Lane :=
  { l with
    st := .blink, enteredAt := now, blinkAt := now, absentAt := now, absentNs := 0, returned := false,
    begins := now :: l.begins.filter fun t => now ≤ t + ms 1000, badCodewords := 0, alignRun := 0, aligned := false }

/-- The frames in progress on the port of an interrupted lane end. -/
def State.breakOff (p : Port) (s : State) : State :=
  ((((s.flush p).loseIngress p).endStomped p false).leaveUp p).modPort p fun x => { x with cutThrough := none }

theorem State.breakOff_offStream (p) : (s.breakOff p).offStream = s.offStream := by simp [State.breakOff]

/-- The interruption has begun. -/
def State.interrupt (p : Port) (s : State) : State := (s.breakOff p).modLane p fun l =>
  { l with
    st := .blink, enteredAt := (s.breakOff p).now, blinkAt := (s.breakOff p).now, absentAt := (s.breakOff p).now,
    absentNs := 0, returned := false, begins := ((s.lane p).interrupted s.now).begins, badCodewords := 0, alignRun := 0,
    aligned := false }

theorem State.interrupt_offStream (p) : (s.interrupt p).offStream = s.offStream.put p s.now ((s.lane p).interrupted s.now) := by
  have hnow : (s.breakOff p).now = s.now := congrArg OffStream.now (s.breakOff_offStream p)
  simp [State.interrupt, hnow, s.breakOff_offStream p, Lane.interrupted]

theorem State.enterBlink_eq {p} (hup : s.laneUp p = true) :
    s.enterBlink p = if 16 ≤ ((s.lane p).interrupted s.now).begins.length then
        (if (s.interrupt p).ld.power = .draining then s.interrupt p
          else (s.interrupt p).ldRaise fLaneFlapping p.code []).loseLane p
      else s.interrupt p :=
  if_neg (by simp [hup])

theorem Lane.interrupted_begins_length (l : Lane) (now : Nat) :
    (l.interrupted now).begins.length = (l.begins.filter fun t => now ≤ t + ms 1000).length + 1 := rfl

/-- R73, R76: the lane is interrupted, or, flapping, lost at once. -/
theorem State.enterBlink_reads {p} (hup : s.laneUp p = true) :
    ((s.enterBlink p).lane p).st =
        (if 15 ≤ ((s.lane p).begins.filter fun t => s.now ≤ t + ms 1000).length then .detect else .blink) ∧
      ((s.enterBlink p).lane p).blinkAt = s.now ∧ ((s.enterBlink p).lane p).present = (s.lane p).present ∧
      ((s.enterBlink p).lane p).los = (s.lane p).los ∧ OnlyLane p s (s.enterBlink p) := by
  rw [s.enterBlink_eq hup, Lane.interrupted_begins_length]
  simp only [Nat.reduceLeDiff]
  split
  next hflaps =>
    have hlost := (State.loseLane_offStream _ p).trans
      (congrArg (OffStream.lose p) ((State.ldRaise_unless_draining _ fLaneFlapping p.code []).trans (s.interrupt_offStream p)))
    rw [OffStream.lose, OffStream.setLost_put, OffStream.put_put, OffStream.put_lane] at hlost
    obtain ⟨-, hlane, -, honly⟩ := State.reads_of_lost hlost
    exact ⟨by rw [hlane]; rfl, by rw [hlane]; rfl, by rw [hlane]; rfl, by rw [hlane]; rfl, honly⟩
  next hsteady =>
    obtain ⟨-, hlane, honly⟩ := State.reads_of_put (s.interrupt_offStream p)
    exact ⟨by rw [hlane]; rfl, by rw [hlane]; rfl, by rw [hlane]; rfl, by rw [hlane]; rfl, honly⟩

/-- R74, R77: a lane that is lost begins anew, and the engine learns of it. -/
theorem State.loseLane_reads (p) :
    (s.loseLane p).now = s.now ∧ ((s.loseLane p).lane p).st = .detect ∧
      ((s.loseLane p).vend p.vend).lost =
        some ⟨p, if (s.lane p).st = .blink then (s.lane p).blinkAt else s.now, s.now⟩ ∧ OnlyLane p s (s.loseLane p) := by
  obtain ⟨hnow, hlane, hlost, honly⟩ := State.reads_of_lost (s.loseLane_offStream p)
  exact ⟨hnow, by rw [hlane]; rfl, hlost, honly⟩

end

/-! ### Frames cut through from a port (R95) -/

/-- The port from which the frame in progress on each port is being cut through. -/
def State.cuts (s : State) : Port → Option Port := fun q => (s.port q).cutThrough

@[simp] theorem ite_cuts (c : Prop) [Decidable c] (a b : State) : (if c then a else b).cuts = if c then a.cuts else b.cuts :=
  apply_ite State.cuts c a b

section
variable (s : State)

theorem State.cuts_of_port {s t : State} (h : t.port = s.port) : t.cuts = s.cuts :=
  funext fun q => congrArg PortState.cutThrough (congrFun h q)

theorem State.cuts_modPort (p) (f : PortState → PortState) :
    (s.modPort p f).cuts = setAt p (f (s.port p)).cutThrough s.cuts := by
  funext q
  by_cases h : q = p
  · rw [h, setAt_self]; exact congrArg PortState.cutThrough (s.port_modPort p f)
  · rw [setAt_of_ne _ _ h]; exact congrArg PortState.cutThrough (s.port_modPort_ne h f)

theorem State.modPort_cuts {f : PortState → PortState} (p) (h : ∀ x, (f x).cutThrough = x.cutThrough) :
    (s.modPort p f).cuts = s.cuts := by
  rw [s.cuts_modPort, h]; exact setAt_eq_self p s.cuts

@[simp] theorem State.modTx_cuts (p f) : (s.modTx p f).cuts = s.cuts := s.modPort_cuts p fun _ => rfl
@[simp] theorem State.modRx_cuts (p f) : (s.modRx p f).cuts = s.cuts := s.modPort_cuts p fun _ => rfl
@[simp] theorem State.credFree_cuts (p b) : (s.credFree p b).cuts = s.cuts := by
  cases b <;> simp [State.credFree, State.modPool, State.modPort_cuts]
@[simp] theorem State.endStomped_cuts (q k) : (s.endStomped q k).cuts = s.cuts := by
  obtain h | ⟨f, n, h⟩ := s.endStomped_cases q k
  · rw [h]
  · rw [h]; exact (s.emit (.stomp q)).modTx_cuts q f
@[simp] theorem State.leaveUp_cuts (p) : (s.leaveUp p).cuts = s.cuts := by
  rw [State.leaveUp, State.modPort_cuts]
  · simp only [State.abortScan]; split <;> rfl
  · exact fun _ => rfl

/-- On one port, the frame that was being cut through from a port is ended as stomped. -/
def State.stompAt (p q : Port) (t : State) : State :=
  if (t.port q).cutThrough = some p then (t.endStomped q true).modPort q fun x => { x with cutThrough := none } else t

theorem State.stompAt_cuts (p q) : (s.stompAt p q).cuts q ≠ some p := by
  unfold State.stompAt; split
  · rw [State.cuts_modPort, setAt_self]; exact nofun
  · assumption

theorem State.stompAt_cuts_ne {p q r : Port} (h : r ≠ q) : (s.stompAt p q).cuts r = s.cuts r := by
  unfold State.stompAt; split
  · rw [State.cuts_modPort, setAt_of_ne _ _ h, State.endStomped_cuts]
  · rfl

/-- No frame is being cut through from a port. -/
def State.NoCut (p : Port) (s : State) : Prop := ∀ q, s.cuts q ≠ some p

theorem State.NoCut.of_cuts {p : Port} {s t : State} (h : s.NoCut p) (hcuts : t.cuts = s.cuts) : t.NoCut p :=
  fun q => by rw [hcuts]; exact h q

theorem State.NoCut.modPort {p : Port} {s : State} (h : s.NoCut p) (q) {f : PortState → PortState}
    (hf : ∀ x, (f x).cutThrough = none) : (s.modPort q f).NoCut p := by
  intro r
  rw [s.cuts_modPort, hf]
  by_cases hr : r = q
  · rw [hr, setAt_self]; exact nofun
  · rw [setAt_of_ne _ _ hr]; exact h r

theorem State.forPorts_stompAt_noCut (p : Port) (ps : List Port) (h : ∀ q, q ∈ ps ∨ s.cuts q ≠ some p) :
    (s.forPorts ps (State.stompAt p)).NoCut p := by
  induction ps generalizing s with
  | nil => exact fun q => (h q).resolve_left (List.not_mem_nil)
  | cons r ps ih =>
    refine ih (s.stompAt p r) fun q => ?_
    by_cases hq : q = r
    · exact .inr (hq ▸ s.stompAt_cuts p r)
    · rw [s.stompAt_cuts_ne hq]
      exact (h q).imp_left fun hmem => (List.mem_cons.mp hmem).resolve_left hq

theorem State.stompFrom_noCut (p) : (s.stompFrom p).NoCut p :=
  s.forPorts_stompAt_noCut p Port.all fun q => .inl (by cases q <;> decide)

theorem State.forPorts_cuts {f : Port → State → State} (h : ∀ q t, (f q t).cuts = t.cuts) (ps) :
    (s.forPorts ps f).cuts = s.cuts := foldl_keeps State.cuts _ (fun t q => h q t) ps s

@[simp] theorem State.dropUnready_cuts (p) : (s.dropUnready p).cuts = s.cuts :=
  s.forPorts_cuts (fun q t => by
    rw [State.modPort_cuts]
    · exact foldl_keeps State.cuts _ (fun t g => by simp) _ t
    · exact fun _ => rfl) Port.all

theorem State.loseIngress_noCut (p) : (s.loseIngress p).NoCut p := by
  refine (s.stompFrom_noCut p).of_cuts ?_
  simp only [State.loseIngress, State.dropIngress, State.modRx_cuts]
  split <;> simp

theorem State.stopStream_noCut (p) : (s.stopStream p).NoCut p := (s.loseIngress_noCut p).modPort p fun _ => rfl

@[simp] theorem State.modLane_cuts (p f) : (s.modLane p f).cuts = s.cuts := by funext q; simp [State.cuts]

theorem State.train_cuts (p) : (s.train p).cuts = s.cuts := by
  simp only [State.train, ite_cuts, State.modLane_cuts]; split <;> rfl

/-- R95, R102: nothing is cut through any more from the port of a lane that is lost. -/
theorem State.loseLane_noCut (p) : (s.loseLane p).NoCut p := by
  refine (((s.leaveUp p).reportLoss p).stopStream_noCut p).of_cuts ?_
  rw [State.loseLane, State.cuts_of_port (State.engineEvent_port _), State.toDetect, State.train_cuts, State.modLane_cuts]

theorem State.interrupt_noCut (p) : (s.interrupt p).NoCut p := by
  have hlost := (s.flush p).loseIngress_noCut p
  have hleft : ((((s.flush p).loseIngress p).endStomped p false).leaveUp p).NoCut p := hlost.of_cuts (by simp)
  exact (hleft.modPort p fun _ => rfl).of_cuts (State.modLane_cuts ..)

theorem State.enterBlink_noCut {p} (hup : s.laneUp p = true) : (s.enterBlink p).NoCut p := by
  rw [s.enterBlink_eq hup]
  split
  · exact State.loseLane_noCut _ p
  · exact s.interrupt_noCut p

end

/-! ### Rows of R73 to R76 -/

section
variable {p : Port} {s : State}

theorem cdrLockLost_interrupts (hup : s.laneUp p = true) :
    ∃ t, exec (.cdrLockLost p) s = .next t ∧
      (t.lane p).st = (if 15 ≤ ((s.lane p).begins.filter fun b => s.now ≤ b + ms 1000).length then .detect else .blink) ∧
      (t.lane p).blinkAt = s.now ∧ t.NoCut p ∧ OnlyLane p s t := by
  obtain ⟨hst, hblink, -, -, honly⟩ := s.enterBlink_reads hup
  exact ⟨_, rfl, hst, hblink, s.enterBlink_noCut hup, honly⟩

/-- A lane whose signal is lost (R55). -/
def Lane.silenced (l : Lane) : Lane := { l with los := true, detector := false, present := false }

theorem exec_laneSignalChange_lost (hst : (s.lane p).st = .up) (hpresent : (s.lane p).present = true) :
    exec (.laneSignalChange p true false) s = .next ((s.modLane p Lane.silenced).enterBlink p) := by
  simp [exec, execLaneSignalChange, hst, hpresent] <;> rfl

theorem laneSignalChange_interrupts (hst : (s.lane p).st = .up) (hpresent : (s.lane p).present = true) :
    ∃ t, exec (.laneSignalChange p true false) s = .next t ∧ (t.lane p).present = false ∧ (t.lane p).los = true ∧
      ((s.lane p).begins = [] → (t.lane p).st = .blink ∧ (t.lane p).blinkAt = s.now) ∧ OnlyLane p s t := by
  have hsilenced : (s.modLane p Lane.silenced).offStream = s.offStream.put p s.now (s.lane p).silenced := by simp
  obtain ⟨-, hlane, honly⟩ := State.reads_of_put hsilenced
  have hup : (s.modLane p Lane.silenced).laneUp p = true := by simp [State.laneUp, Lane.silenced, hst]
  obtain ⟨hst', hblink, hpres, hlos, honly'⟩ := State.enterBlink_reads _ hup
  refine ⟨_, exec_laneSignalChange_lost hst hpresent, by rw [hpres, hlane]; rfl, by rw [hlos, hlane]; rfl,
    fun hnone => ⟨?_, hblink⟩, honly.trans honly'⟩
  simp [hst', Lane.silenced, hnone]

theorem blinkTimeout_loses (hst : (s.lane p).st = .blink) :
    ∃ t, exec (.blinkTimeout p) s = .next t ∧ (t.lane p).st = .detect ∧ t.now = max s.now (s.lane p).blinkEnd ∧
      (t.vend p.vend).lost = some ⟨p, (s.lane p).blinkAt, t.now⟩ ∧ OnlyLane p s t := by
  obtain ⟨hnow, hdetect, hlost, honly⟩ := (s.until (s.lane p).blinkEnd).loseLane_reads p
  refine ⟨_, if_pos hst, hdetect, hnow, ?_, honly⟩
  rw [hlost, hnow]
  exact congrArg (fun began => some (LaneLoss.mk p began _)) (if_pos hst)

end

end Sys2Proof.Machine
end

section
/-! Family 03, line lanes. Fast relock (R74), the training frames a lane receives (R64, R65, R75), and O15. -/

namespace Sys2Proof.Machine

/-! ### Fast relock (R74, R101) -/

section
variable {p : Port} {s : State}

@[simp] theorem State.resyncCredits_counters (p) (s : State) :
    ((s.resyncCredits p).port p).counters = (s.port p).counters := by simp [State.resyncCredits, State.nextSeq]

theorem State.resyncCredits_port_ne {p q : Port} (h : q ≠ p) (s : State) : (s.resyncCredits p).port q = s.port q := by
  simp [State.resyncCredits, State.nextSeq, State.port_modPort_ne _ h]

/-- A lane that is UP again with what was stored of it (R74). -/
def Lane.relocked (now : Nat) (l : Lane) : Lane :=
  { l with st := .up, enteredAt := now, markers := 0, badCodewords := 0, taps := l.storedTaps }

/-- The interruption is counted, and the longest kept (R73). -/
def PortCounters.blinked (n : Nat) (c : PortCounters) : PortCounters :=
  { c with blinks := satAdd c.blinks 1, longestBlink := BitVec.ofNat 32 (max c.longestBlink.toNat n) }

theorem exec_fastRelock (hst : (s.lane p).st = .blink) (hpresent : (s.lane p).present = true)
    (haligned : (s.lane p).aligned = true) (hsoon : s.now < (s.lane p).blinkAt + ms 2) (hend : s.now ≤ (s.lane p).blinkEnd) :
    exec (.fastRelock p) s = .next (((s.modCounters p (PortCounters.blinked (blinkUs (s.now - (s.lane p).blinkAt)))).modLane p
      (Lane.relocked s.now)).resyncCredits p) :=
  if_pos (by simp [hst, hpresent, haligned, hsoon, hend])

theorem fastRelock_relocks (hst : (s.lane p).st = .blink) (hpresent : (s.lane p).present = true)
    (haligned : (s.lane p).aligned = true) (hsoon : s.now < (s.lane p).blinkAt + ms 2) (hend : s.now ≤ (s.lane p).blinkEnd) :
    ∃ t, exec (.fastRelock p) s = .next t ∧ (t.lane p).st = .up ∧
      (t.port p).counters.blinks = satAdd (s.port p).counters.blinks 1 ∧ (t.port p).creditSeen = false ∧
      (∀ q, q ≠ p → t.lane q = s.lane q ∧ t.port q = s.port q) ∧ SameHv s t ∧ t.cd = s.cd ∧ t.now = s.now := by
  refine ⟨_, exec_fastRelock hst hpresent haligned hsoon hend, ?_⟩
  have hput : (((s.modCounters p (PortCounters.blinked (blinkUs (s.now - (s.lane p).blinkAt)))).modLane p
      (Lane.relocked s.now)).resyncCredits p).offStream = s.offStream.put p s.now ((s.lane p).relocked s.now) := by simp
  obtain ⟨hnow, hlane, hothers, hhv⟩ := State.reads_of_put hput
  refine ⟨by rw [hlane]; rfl, ?_, State.resyncCredits_creditSeen .., fun q hq => ⟨hothers q hq, ?_⟩, hhv, by simp, hnow⟩
  · simp [State.modCounters, PortCounters.blinked]
  · rw [State.resyncCredits_port_ne hq, State.port_modLane, State.modCounters, State.port_modPort_ne _ hq]

end

/-! ### Taps (Table 3.5, R65) -/

theorem presetTaps_ok : presetTaps.ok = true := by decide

/-- A step of a tap that leaves the ranges of Table 3.5 is not made. -/
theorem Taps.ok_of_moved {t u : Taps} {tap : BitVec 3} {inc : Bool} (h : t.moved tap inc = some u) : u.ok = true := by
  simp only [Taps.moved] at h
  split at h
  next x _ =>
    split at h
    next hok => cases h; exact hok
    next => cases h
  next => cases h

/-- Whatever the far node asks for, a lane in TRAIN stays there, with the words it has accepted and its taps in range. -/
def Lane.StaysInTrain (l x : Lane) : Prop :=
  x.st = .train ∧ x.ctlSeen = l.ctlSeen ∧ x.farControl = l.farControl ∧ (l.taps.ok = true → x.taps.ok = true)

/-- The responder's side changes the taps, within their ranges, and the answer. -/
theorem Lane.respond_cases (l : Lane) :
    ∃ taps answer, l.respond = { l with taps := taps, answer := answer } ∧ (l.taps.ok = true → taps.ok = true) := by
  simp only [Lane.respond]
  split
  · split
    · exact ⟨presetTaps, 1, rfl, fun _ => presetTaps_ok⟩
    · exact ⟨l.taps, l.answer, rfl, id⟩
  · split
    · exact ⟨l.taps, 0, rfl, id⟩
    · split
      · split
        next t hmoved => exact ⟨t, _, rfl, fun _ => Taps.ok_of_moved hmoved⟩
        next => exact ⟨l.taps, _, rfl, id⟩
      · exact ⟨l.taps, l.answer, rfl, id⟩

section
variable {p : Port} {s : State}

/-- The requester's side changes what the lane says of its receiver and what it asks for. -/
theorem State.askTap_offStream (p adapted) (s : State) :
    ∃ r, (s.askTap p adapted).offStream = s.offStream.put p s.now { s.lane p with rxReady := adapted, request := r } := by
  simp only [State.askTap]
  split
  · split
    · exact ⟨0, by simp⟩
    · exact ⟨(s.lane p).request, by simp⟩
  · split
    · exact ⟨(s.lane p).request, by simp⟩
    · exact ⟨requestFrom (Config.tapRequest s.freeCount), by simp⟩

/-- R64, R65: in TRAIN the accepted words begin TRAIN again at NRZ, or move a tap. -/
theorem State.actOnTraining_train (adapted) (hst : (s.lane p).st = .train) :
    ∃ x, (s.actOnTraining p adapted).offStream = s.offStream.put p s.now x ∧ (s.lane p).StaysInTrain x ∧
      (s.actOnTraining p adapted).cd = s.cd := by
  simp only [State.actOnTraining, hst]
  split
  · exact ⟨s.lane p, (s.offStream_put_self p).symm, ⟨hst, rfl, rfl, id⟩, rfl⟩
  · split
    · exact ⟨_, s.toTrain_offStream p true, ⟨rfl, rfl, rfl, fun _ => presetTaps_ok⟩, by simp⟩
    · obtain ⟨taps, answer, hrespond, hok⟩ := (s.lane p).respond_cases
      obtain ⟨r, hask⟩ := (s.modLane p Lane.respond).askTap_offStream p adapted
      rw [s.lane_modLane, hrespond] at hask
      exact ⟨{ s.lane p with taps := taps, answer := answer, rxReady := adapted, request := r }, by simpa using hask,
        ⟨hst, rfl, rfl, hok⟩, by simp⟩

/-! ### Training frames received (R64, R75) -/

/-- R64: a CONTROL value acts after three in a row. -/
theorem Lane.sawWords_farControl (control status : Half) (l : Lane) :
    (l.sawWords control status).farControl =
      if l.ctlSeen = control ∧ 2 ≤ l.ctlRun then control else l.farControl := by
  simp only [Lane.sawWords]
  by_cases hsame : l.ctlSeen = control
  · have hthird : min 3 (l.ctlRun + 1) = 3 ↔ 2 ≤ l.ctlRun := by omega
    simp [hsame, hthird]
  · simp [hsame]

theorem Lane.sawMarker_of_found {m : MarkerSeen} (h : m ≠ .missed) (l : Lane) : l.sawMarker m =
    { l with lockRun := min 3 (l.lockRun + 1), missRun := 0, frameLock := l.frameLock || 3 ≤ l.lockRun + 1,
             inverted := m = .inverse } := if_neg h

@[simp] theorem Lane.sawMarker_st (m : MarkerSeen) (l : Lane) : (l.sawMarker m).st = l.st := by
  unfold Lane.sawMarker; split <;> rfl

theorem exec_trainingFrameReceived_train (ui adapted) (hst : (s.lane p).st = .train) :
    exec (.trainingFrameReceived p ui adapted) s = .next (((s.modLane p (Lane.sawMarker (markerSeen ui))).takeWords p
      (if markerSeen ui = .missed then none else wordsOf (upright ui)) adapted).train p) := by
  simp only [exec, execTrainingFrameReceived, hst]

theorem State.takeWords_of_locked {control status : Half} (adapted) (hlock : (s.lane p).frameLock = true)
    (hok : ctlOk control = true) :
    s.takeWords p (some (control, status)) adapted =
      (s.modLane p (Lane.sawWords control status)).actOnTraining p adapted :=
  if_pos (by simp [hlock, hok])

/-- R64, R65: the words of a frame with MARKER act on a lane in TRAIN that has frame lock. -/
theorem trainingFrameReceived_acts {ui : List Bool} {control status : Half} (adapted) (hst : (s.lane p).st = .train)
    (hlock : (s.lane p).frameLock = true) (hfound : markerSeen ui ≠ .missed)
    (hwords : wordsOf (upright ui) = some (control, status)) (hok : ctlOk control = true) :
    ∃ t x, exec (.trainingFrameReceived p ui adapted) s = .next t ∧ t.lane p = x.trained p ∧
      (((s.lane p).sawMarker (markerSeen ui)).sawWords control status).StaysInTrain x ∧ OnlyLane p s t ∧ t.cd = s.cd := by
  let u := (s.modLane p (Lane.sawMarker (markerSeen ui))).modLane p (Lane.sawWords control status)
  have hu : u.offStream = s.offStream.put p s.now (((s.lane p).sawMarker (markerSeen ui)).sawWords control status) := by
    simp [u]
  obtain ⟨hnow, hlane, -⟩ := State.reads_of_put hu
  have hutrain : (u.lane p).st = .train := by rw [hlane]; exact (Lane.sawMarker_st ..).trans hst
  obtain ⟨x, hact, hstays, hcd⟩ := State.actOnTraining_train adapted hutrain
  have hlocked : ((s.modLane p (Lane.sawMarker (markerSeen ui))).lane p).frameLock = true := by
    simp [Lane.sawMarker_of_found hfound, hlock]
  have hexec : exec (.trainingFrameReceived p ui adapted) s = .next ((u.actOnTraining p adapted).train p) := by
    rw [exec_trainingFrameReceived_train ui adapted hst, if_neg hfound, hwords, State.takeWords_of_locked adapted hlocked hok]
  have hput : ((u.actOnTraining p adapted).train p).offStream = s.offStream.put p s.now (x.trained p) := by
    simp [hact, hu, hnow]
  obtain ⟨-, hx, honly⟩ := State.reads_of_put hput
  rw [hlane] at hstays
  exact ⟨_, x, hexec, hx, hstays, honly, by simp [hcd, u]⟩

/-- R64: a frame without MARKER breaks the runs of equal values in TRAIN. -/
theorem trainingFrameReceived_missed {ui : List Bool} (adapted) (hst : (s.lane p).st = .train)
    (hmissed : markerSeen ui = .missed) :
    ∃ t, exec (.trainingFrameReceived p ui adapted) s = .next t ∧ t.lane p = ((s.lane p).sawMarker .missed).trained p ∧
      OnlyLane p s t := by
  refine ⟨_, exec_trainingFrameReceived_train ui adapted hst, ?_⟩
  rw [if_pos hmissed, hmissed]
  have hput : ((s.modLane p (Lane.sawMarker .missed)).train p).offStream =
      s.offStream.put p s.now (((s.lane p).sawMarker .missed).trained p) := by simp
  exact (State.reads_of_put hput).2

/-- R75: a marker received in UP or BLINK is counted, and one that is missed ends the count. -/
theorem exec_trainingFrameReceived_data (ui adapted) (hst : (s.lane p).st = .up ∨ (s.lane p).st = .blink) :
    exec (.trainingFrameReceived p ui adapted) s =
      let n := if markerSeen ui = .missed then 0 else (s.lane p).markers + 1
      let t := s.modLane p fun l => { l with markers := n }
      .next (if 8 ≤ n then t.loseLane p else t) := by
  obtain hst | hst := hst <;> simp only [exec, execTrainingFrameReceived, hst]

end

/-! ### O15 -/

/-- Settles O15: interruption, relock and loss are changes of the one lane, and the words of a training frame act on it through
the handshake, which keeps the taps in range. -/
theorem interruptedLanesAndTrainingMarkers : Obligations.InterruptedLanesAndTrainingMarkers := by
  refine ⟨fun p s => ⟨fun hup => cdrLockLost_interrupts hup, fun _ hst hpresent => laneSignalChange_interrupts hst hpresent,
    fun hst hpresent haligned hsoon hend => fastRelock_relocks hst hpresent haligned hsoon hend,
    fun hst => blinkTimeout_loses hst⟩, fun p ui adapted s => ⟨fun control status hst hlock hfound hwords hok => ?_,
    fun hst hmissed => ?_, fun hst hfound => ?_, fun hst hmissed => ?_⟩⟩
  · obtain ⟨t, x, hexec, hlane, ⟨hxst, hxseen, hxfar, hxtaps⟩, ⟨hothers, hhv⟩, hcd⟩ :=
      trainingFrameReceived_acts adapted hst hlock hfound hwords hok
    rw [Lane.sawMarker_of_found hfound] at hxseen hxfar hxtaps
    rw [Lane.sawWords_farControl] at hxfar
    exact ⟨t, hexec, by rw [hlane]; exact hxst, by rw [hlane]; exact hxseen, by rw [hlane]; exact hxfar,
      by rw [hlane]; exact hxtaps, hothers, hhv, hcd⟩
  · obtain ⟨t, hexec, hlane, honly⟩ := trainingFrameReceived_missed adapted hst hmissed
    exact ⟨t, hexec, by rw [hlane]; exact hst, by rw [hlane]; rfl, by rw [hlane]; rfl, by rw [hlane]; rfl, honly⟩
  · refine ⟨_, exec_trainingFrameReceived_data ui adapted hst, ?_⟩
    simp only [if_neg hfound, Nat.reduceLeDiff]
    split
    next heighth =>
      obtain ⟨-, hdetect, -, honly⟩ :=
        (s.modLane p fun l => { l with markers := (s.lane p).markers + 1 }).loseLane_reads p
      exact ⟨fun hfew => absurd hfew (by omega), fun _ => hdetect, (s.modLane_onlyLane p _).trans honly⟩
    next hfew =>
      exact ⟨fun _ => by simp, fun heighth => absurd heighth hfew, s.modLane_onlyLane p _⟩
  · refine ⟨_, exec_trainingFrameReceived_data ui adapted hst, ?_⟩
    simp only [if_pos hmissed, Nat.reduceLeDiff, if_false]
    exact ⟨by simp, by simp, s.modLane_onlyLane p _⟩

end Sys2Proof.Machine
end

section
/-! Family 05, inauguration. What an event of R125 makes of the engine: the end it is for takes the verdict of its row, the other
end and the vehicle inputs stay (Table 5.2, R123, R126). -/

namespace Sys2Proof.Machine

/-! ### Ends of the engine -/

@[simp] theorem Engine.vend_setVend (e : VEnd) (x : EndState) (g : Engine) : (g.setVend e x).vend e = x := by
  cases e <;> rfl

theorem Engine.vend_setVend_ne {e d : VEnd} (h : d ≠ e) (x : EndState) (g : Engine) :
    (g.setVend e x).vend d = g.vend d := by
  cases e <;> cases d <;> revert h <;> simp [Engine.vend, Engine.setVend]

@[simp] theorem Engine.setVend_setVend (e : VEnd) (x y : EndState) (g : Engine) :
    (g.setVend e x).setVend e y = g.setVend e y := by cases e <;> rfl

@[simp] theorem Engine.setVend_inputs (e x) (g : Engine) : (g.setVend e x).inputs = g.inputs := by cases e <;> rfl
@[simp] theorem Engine.setVend_inputsAt (e x) (g : Engine) : (g.setVend e x).inputsAt = g.inputsAt := by cases e <;> rfl
@[simp] theorem Engine.setVend_inputsStale (e x) (g : Engine) : (g.setVend e x).inputsStale = g.inputsStale := by
  cases e <;> rfl
@[simp] theorem Engine.setVend_commit (e x) (g : Engine) : (g.setVend e x).commit = g.commit := by cases e <;> rfl

section
variable (s : State)

@[simp] theorem State.vend_modVend (e : VEnd) (f : EndState → EndState) : (s.modVend e f).vend e = f (s.vend e) :=
  Engine.vend_setVend ..

theorem State.engine_modVend (e : VEnd) (f : EndState → EndState) :
    (s.modVend e f).ld.engine = s.ld.engine.setVend e (f (s.vend e)) := rfl

/-! ### What faults, probes and commands leave of the engine -/

@[simp] theorem State.ldReport_engine (event f subject data) :
    (s.ldReport event f subject data).ld.engine = s.ld.engine := by
  unfold State.ldReport
  split
  next => split <;> simp
  next => rfl

@[simp] theorem State.ldRaise_engine (f subject data) : (s.ldRaise f subject data).ld.engine = s.ld.engine :=
  s.ldReport_engine ..

@[simp] theorem State.ldClear_engine (f subject) : (s.ldClear f subject).ld.engine = s.ld.engine :=
  s.ldReport_engine ..

@[simp] theorem State.probeRests_engine (e) : (s.probeRests e).ld.engine = s.ld.engine := by
  unfold State.probeRests
  split
  · rfl
  · cases e <;> rfl

/-! ### One end evaluated (R125, R126) -/

/-- An evaluation changes its end, and nothing else of the engine. -/
theorem State.evalEnd_engine (e : VEnd) :
    (s.evalEnd e).ld.engine = s.ld.engine.setVend e ((s.evalEnd e).vend e) := by
  have hset : ∃ x, (s.evalEnd e).ld.engine = s.ld.engine.setVend e x := by
    simp only [State.evalEnd, apply_ite State.ld, apply_ite LineDie.engine, State.ldClear_engine, State.probeRests_engine,
      ite_self, State.engine_modVend]
    split
    · exact ⟨_, Engine.setVend_setVend ..⟩
    · exact ⟨_, rfl⟩
  obtain ⟨x, hx⟩ := hset
  rw [State.vend, hx, Engine.vend_setVend]

theorem State.evalEnd_vend_ne {e d : VEnd} (h : d ≠ e) : (s.evalEnd e).vend d = s.vend d := by
  rw [State.vend, State.evalEnd_engine, Engine.vend_setVend_ne h, State.vend]

@[simp] theorem State.evalEnd_input (e n) : (s.evalEnd e).input n = s.input n := by
  simp [State.input, State.evalEnd_engine, State.lend]

end

section
variable {s t : State} {e d : VEnd}

/-- What the row of an end is read from: the lanes and ports, the contact, the numbering, and three marks of the end. -/
theorem State.verdictRow_congr (hline : (t.lane, t.port) = (s.lane, s.port)) (hcontact : t.contact e = s.contact e)
    (hcommit : t.commit? = s.commit?) (hcut : (t.vend e).cut = (s.vend e).cut)
    (hfenced : (t.vend e).fencedLong = (s.vend e).fencedLong) (hheld : (t.vend e).committed = (s.vend e).committed) :
    t.verdictRow e = s.verdictRow e := by
  obtain ⟨hlane, hport⟩ := Prod.mk.inj hline
  have hcommitted : t.committedVerdict e = s.committedVerdict e := by
    rw [State.committedVerdict, hcommit, hheld, State.committedVerdict]
  have hnear : t.nearLinked e = s.nearLinked e := by rw [State.nearLinked, hlane, State.nearLinked]
  have hskip : t.skipUsable e = s.skipUsable e := by
    rw [State.skipUsable, State.shut, hlane, hport, State.skipUsable, State.shut]
  rw [State.verdictRow, hcut, hfenced, hcommitted, hcontact, hnear, hskip, State.verdictRow]

theorem State.contact_congr (hinput : ∀ n, t.input n = s.input n) (e : VEnd) : t.contact e = s.contact e := by
  cases e <;> exact hinput _

theorem State.lane_port_of_line (h : t.line = s.line) : (t.lane, t.port) = (s.lane, s.port) :=
  congrArg (fun x => (x.1.lane, x.2)) h

/-- The row of an end does not depend on the evaluation of the other. -/
theorem State.verdictRow_evalEnd_ne (h : d ≠ e) : (s.evalEnd e).verdictRow d = s.verdictRow d := by
  have hvend := s.evalEnd_vend_ne h
  exact State.verdictRow_congr (State.lane_port_of_line (s.evalEnd_line e)) (State.contact_congr (s.evalEnd_input e) d)
    (by simp [State.commit?, State.evalEnd_engine]) (by rw [hvend]) (by rw [hvend]) (by rw [hvend])

/-- Nor does it depend on what else the end holds. -/
theorem State.verdictRow_modVend {f : EndState → EndState} (hcut : ∀ v, (f v).cut = v.cut)
    (hfenced : ∀ v, (f v).fencedLong = v.fencedLong) (hheld : ∀ v, (f v).committed = v.committed) :
    (s.modVend e f).verdictRow e = s.verdictRow e := by
  have hinput (n : InputName) : (s.modVend e f).input n = s.input n := by
    simp [State.input, State.lend, State.modVend]
  refine State.verdictRow_congr (by cases e <;> rfl) (State.contact_congr hinput e) (by cases e <;> rfl) ?_ ?_ ?_ <;>
    rw [State.vend_modVend]
  · exact hcut _
  · exact hfenced _
  · exact hheld _

@[simp] theorem State.vend_ldRaise (s : State) (e f subject data) : (s.ldRaise f subject data).vend e = s.vend e := by
  rw [State.vend, State.ldRaise_engine, State.vend]

@[simp] theorem State.verdictRow_ldRaise (s : State) (e f subject data) :
    (s.ldRaise f subject data).verdictRow e = s.verdictRow e := by
  have hinput (n : InputName) : (s.ldRaise f subject data).input n = s.input n := by simp [State.input, State.lend]
  exact State.verdictRow_congr (State.lane_port_of_line (s.ldRaise_line ..)) (State.contact_congr hinput e)
    (by simp [State.commit?]) (by rw [State.vend_ldRaise]) (by rw [State.vend_ldRaise]) (by rw [State.vend_ldRaise])

/-- A cut that stands makes the first row of Table 5.2 match. -/
theorem State.uncut_of_verdictRow (h : s.verdictRow e ≠ 1) : (s.vend e).cut = false :=
  Bool.eq_false_iff.mpr fun hcut => h (if_pos hcut)

/-- A lane lost restarts only the timers of rows 8 and 9. -/
theorem EndState.lostSince_of_other {row : Nat} (v : EndState) (h8 : row ≠ 8) (h9 : row ≠ 9) : v.lostSince row = none := by
  unfold EndState.lostSince; split <;> simp [h8, h9]

end

/-- What an evaluation that finds a row makes of an end: the row's verdict, by a timer that runs on where the row stays. -/
structure Judged (row : Nat) (v w : EndState) : Prop where
  verdict : w.verdict = rowVerdict row w.rowExpired
  fencedLong : w.fencedLong = v.fencedLong
  rowExpired : row = v.row → v.lostSince row = none → w.rowExpired = v.rowExpired

section
variable {s : State} {e : VEnd}

/-- An end that no cut stands at is judged by the row that matches it. -/
theorem State.evalEnd_judges (hcut : (s.vend e).cut = false) :
    Judged (s.verdictRow e) (s.vend e) ((s.evalEnd e).vend e) := by
  change Judged _ _ ((s.evalEnd e).ld.engine.vend e)
  simp only [State.evalEnd, hcut, Bool.false_and, Bool.false_eq_true, if_false, apply_ite State.ld,
    apply_ite LineDie.engine, State.ldClear_engine, State.probeRests_engine, ite_self, State.engine_modVend,
    Engine.vend_setVend]
  refine ⟨rfl, rfl, fun hrow hlost => ?_⟩
  rw [hlost, ite_self]
  simp [hrow]

/-! ### What follows from the verdicts -/

/-- The engine without what follows from the verdicts: standings, and the cabs inside the train that it has raised. -/
def Engine.lessStandings (g : Engine) : Engine :=
  { g with
    fore := { g.fore with standing := .free }, aft := { g.aft with standing := .free }, cabRaisedFore := false,
    cabRaisedAft := false }

theorem State.unnumberedStandings_lessStandings (s : State) :
    s.unnumberedStandings.ld.engine.lessStandings = s.ld.engine.lessStandings := by
  unfold State.unnumberedStandings; split <;> rfl

theorem State.cabInside_lessStandings (e : VEnd) (s : State) :
    (s.cabInside e).ld.engine.lessStandings = s.ld.engine.lessStandings := by
  cases e <;>
    simp only [State.cabInside, apply_ite State.ld, apply_ite LineDie.engine, State.ldRaise_engine,
      apply_ite Engine.lessStandings] <;>
    exact ite_self _

theorem State.engineEvent_lessStandings (s : State) :
    s.engineEvent.ld.engine.lessStandings = ((s.evalEnd .fore).evalEnd .aft).ld.engine.lessStandings := by
  simp only [State.engineEvent, (State.refreshLit_frame _).2.1]
  rw [State.cabInside_lessStandings, State.cabInside_lessStandings, State.unnumberedStandings_lessStandings]

/-- An event of R125 judges each end that no cut stands at by the row that matches it. -/
theorem State.engineEvent_judges (hcut : (s.vend e).cut = false) :
    Judged (s.verdictRow e) (s.vend e) (s.engineEvent.vend e) := by
  have hjudged : Judged (s.verdictRow e) (s.vend e) (((s.evalEnd .fore).evalEnd .aft).vend e) := by
    cases e with
    | fore =>
      rw [State.evalEnd_vend_ne _ (by decide)]
      exact State.evalEnd_judges hcut
    | aft =>
      have hvend := s.evalEnd_vend_ne (e := .fore) (d := .aft) (by decide)
      rw [← hvend, ← State.verdictRow_evalEnd_ne (s := s) (e := .fore) (by decide)]
      exact State.evalEnd_judges (by rw [hvend]; exact hcut)
  have hless : { s.engineEvent.vend e with standing := .free } =
      { ((s.evalEnd .fore).evalEnd .aft).vend e with standing := .free } := by
    cases e with
    | fore => exact congrArg Engine.fore s.engineEvent_lessStandings
    | aft => exact congrArg Engine.aft s.engineEvent_lessStandings
  have hverdict := congrArg EndState.verdict hless
  have hfenced := congrArg EndState.fencedLong hless
  have hexpired := congrArg EndState.rowExpired hless
  dsimp only at hverdict hfenced hexpired
  exact ⟨by rw [hverdict, hexpired, hjudged.verdict], by rw [hfenced, hjudged.fencedLong],
    fun hrow hlost => by rw [hexpired, hjudged.rowExpired hrow hlost]⟩

/-- An end whose row still matches it, and that has lost no lane since, takes the verdict of that row. -/
theorem State.engineEvent_settles (hrow : s.verdictRow e = (s.vend e).row) (hne : (s.vend e).row ≠ 1)
    (hlost : (s.vend e).lostSince (s.vend e).row = none) :
    (s.engineEvent.vend e).rowExpired = (s.vend e).rowExpired ∧
      (s.engineEvent.vend e).verdict = rowVerdict (s.vend e).row (s.vend e).rowExpired := by
  obtain ⟨hverdict, -, hexpired⟩ := State.engineEvent_judges (State.uncut_of_verdictRow (hrow ▸ hne))
  have hexpired := hexpired hrow (hrow ▸ hlost)
  exact ⟨hexpired, by rw [hverdict, hrow, hexpired]⟩

/-- An event of R125 leaves the high-voltage side and takes no time. -/
theorem State.engineEvent_keeps (s : State) : s.engineEvent.now = s.now ∧ SameHv s s.engineEvent :=
  have hoff := s.engineEvent_offStream
  ⟨congrArg OffStream.now hoff, congrArg OffStream.la hoff, congrArg OffStream.lb hoff, congrArg OffStream.ref hoff⟩

/-- The last VINPUT, the moment it came and whether it is stale, which no event of R125 changes. -/
def Engine.vinput (g : Engine) : List Byte × Nat × Bool := (g.inputs, g.inputsAt, g.inputsStale)

theorem State.engineEvent_vinput (s : State) : s.engineEvent.ld.engine.vinput = s.ld.engine.vinput := by
  have hless : s.engineEvent.ld.engine.vinput = ((s.evalEnd .fore).evalEnd .aft).ld.engine.vinput :=
    (congrArg Engine.vinput s.engineEvent_lessStandings :)
  rw [hless, State.evalEnd_engine, State.evalEnd_engine]
  simp [Engine.vinput]

end
end Sys2Proof.Machine
end

section
/-! Family 05, inauguration. Vehicle inputs: the filter of R121, the samples and the VINPUT of REF (R121, R122), and what the engine
keeps of them (R123). -/

namespace Sys2Proof.Machine

/-! ### The filter (R121) -/

section
variable {c : InputClass} {f : InputFilter}

/-- A sample that ends a run begins another, and 2,000 samples without a steady run leave no state. -/
theorem InputFilter.sample_of_change (h : f.cls ≠ c) :
    f.sample c = ⟨if 2000 ≤ f.sinceSteady + 1 then 2 else f.state, c, 1, min (f.sinceSteady + 1) 2000⟩ := by
  simp [InputFilter.sample, h.symm]

/-- The 500th sample of a class in a row shows it. -/
theorem InputFilter.sample_state_of_run (h : f.cls = c) (hrun : 499 ≤ f.run) : (f.sample c).state = classState c := by
  have hsteady : 500 ≤ f.run + 1 := by omega
  simp [InputFilter.sample, h.symm, hsteady]

theorem InputFilter.sample_run (f : InputFilter) (h : f.cls = c) : (f.sample c).run = min (f.run + 1) 500 := by
  simp [InputFilter.sample, h.symm]

theorem InputFilter.one_le_sample_run (c : InputClass) (f : InputFilter) : 1 ≤ (f.sample c).run := by
  by_cases h : f.cls = c
  · rw [f.sample_run h]; omega
  · exact Nat.le_of_eq (congrArg run (sample_of_change h)).symm

/-- Samples of one class in a row make a run of their number, which is counted up to 500. -/
theorem InputFilter.run_of_samples (c : InputClass) (f : InputFilter) (n : Nat) :
    (Nat.repeat (sample c) (n + 1) f).cls = c ∧ min (n + 1) 500 ≤ (Nat.repeat (sample c) (n + 1) f).run := by
  induction n with
  | zero => exact ⟨rfl, f.one_le_sample_run c⟩
  | succ n ih =>
    obtain ⟨hcls, hrun⟩ := ih
    refine ⟨rfl, ?_⟩
    change _ ≤ (sample c (Nat.repeat (sample c) (n + 1) f)).run
    rw [sample_run _ hcls]
    omega

theorem InputFilter.state_of_samples (c : InputClass) (f : InputFilter) :
    (Nat.repeat (sample c) 500 f).state = classState c :=
  have ⟨hcls, hrun⟩ := run_of_samples c f 498
  sample_state_of_run hcls hrun

end

/-! ### REF's samples and its VINPUT (R121, R122) -/

section
variable (s : State)

theorem State.classify_spec (ua : Int) : ∃ n, (s.classify ua).2 = { s with freeCount := n } ∧
    ((s.classify ua).1 = (inputClasses ua).1 ∨ (s.classify ua).1 = (inputClasses ua).2) := by
  unfold State.classify
  dsimp only
  split
  · exact ⟨s.freeCount, rfl, .inl rfl⟩
  · refine ⟨_, rfl, ?_⟩
    dsimp only
    split
    · exact .inl rfl
    · exact .inr rfl

end

/-- REF's filter of an input. -/
def Ref.filter (r : Ref) : InputName → InputFilter
  | .cplFore => r.cplFore | .cplAft => r.cplAft | .cab => r.cab | .aux1 => r.aux1 | .aux2 => r.aux2

/-- What a change of one filter leaves of REF. -/
structure SameButFilter (n : InputName) (r q : Ref) : Prop where
  filter : ∀ m, m ≠ n → q.filter m = r.filter m
  grant : q.grant = r.grant
  killA : q.killA = r.killA
  killB : q.killB = r.killB

/-- A filter has taken a class that a current allows. -/
def TakesClass (ua : Int) (f g : InputFilter) : Prop :=
  ∃ k, (k = (inputClasses ua).1 ∨ k = (inputClasses ua).2) ∧ g = f.sample k

/-- The filter of one input has taken a class that the current allows, and of the node nothing else but REF's books of the inputs is
changed. -/
structure Sampled (n : InputName) (ua : Int) (s t : State) : Prop where
  own : TakesClass ua (s.ref.filter n) (t.ref.filter n)
  ref : SameButFilter n s.ref t.ref
  rest : t = { s with ref := t.ref, freeCount := t.freeCount }

theorem State.sampleInput_sampled (n : InputName) {get : Ref → InputFilter} {set : InputFilter → Ref → Ref}
    (hget : ∀ r, get r = r.filter n) (hown : ∀ f r, (set f r).filter n = f) (hrest : ∀ f r, SameButFilter n r (set f r))
    (ua : Int) (s : State) : Sampled n ua s (s.sampleInput get set ua) := by
  obtain ⟨m, hstate, hclass⟩ := s.classify_spec ua
  have hsampled (v : Half) : Sampled n ua s
      { s with ref := set ((get s.ref).sample (s.classify ua).1) { s.ref with vcount := v }, freeCount := m } := by
    obtain ⟨hfilter, hgrant, hkillA, hkillB⟩ :=
      hrest ((get s.ref).sample (s.classify ua).1) { s.ref with vcount := v }
    exact ⟨⟨_, hclass, by rw [hown, hget]⟩, ⟨fun i hi => (hfilter i hi).trans (by cases i <;> rfl), hgrant, hkillA, hkillB⟩, rfl⟩
  unfold State.sampleInput
  dsimp only
  rw [hstate]
  split
  · exact hsampled _
  · exact hsampled s.ref.vcount

/-- The five inputs are sampled one after another. -/
theorem exec_vinputSample_samples (a b c d e : Int) (s : State) : ∃ s₁ s₂ s₃ s₄ t, Sampled .cab a s s₁ ∧
    Sampled .cplFore b s₁ s₂ ∧ Sampled .cplAft c s₂ s₃ ∧ Sampled .aux1 d s₃ s₄ ∧ Sampled .aux2 e s₄ t ∧
    exec (.vinputSample a b c d e) s = .next t := by
  refine ⟨_, _, _, _, _, State.sampleInput_sampled .cab (fun _ => rfl) (fun _ _ => rfl) ?_ a s,
    State.sampleInput_sampled .cplFore (fun _ => rfl) (fun _ _ => rfl) ?_ b _,
    State.sampleInput_sampled .cplAft (fun _ => rfl) (fun _ _ => rfl) ?_ c _,
    State.sampleInput_sampled .aux1 (fun _ => rfl) (fun _ _ => rfl) ?_ d _,
    State.sampleInput_sampled .aux2 (fun _ => rfl) (fun _ _ => rfl) ?_ e _, rfl⟩ <;>
  exact fun f r => ⟨fun m hm => by revert hm; cases m <;> simp [Ref.filter], rfl, rfl, rfl⟩

/-- Each filter takes its own sample and is left by the other four. -/
theorem exec_vinputSample (a b c d e : Int) (s : State) : ∃ t, exec (.vinputSample a b c d e) s = .next t ∧
    TakesClass a s.ref.cab t.ref.cab ∧ TakesClass b s.ref.cplFore t.ref.cplFore ∧
    TakesClass c s.ref.cplAft t.ref.cplAft ∧ TakesClass d s.ref.aux1 t.ref.aux1 ∧ TakesClass e s.ref.aux2 t.ref.aux2 ∧
    t.ref.grant = s.ref.grant ∧ t.ref.killA = s.ref.killA ∧ t.ref.killB = s.ref.killB ∧
    t = { s with ref := t.ref, freeCount := t.freeCount } := by
  obtain ⟨s₁, s₂, s₃, s₄, t, ⟨hcab, h₁, r₁⟩, ⟨hfore, h₂, r₂⟩, ⟨haft, h₃, r₃⟩, ⟨haux1, h₄, r₄⟩, ⟨haux2, h₅, r₅⟩, hexec⟩ :=
    exec_vinputSample_samples a b c d e s
  have hfirst (n) (h : n ≠ .cab ∧ n ≠ .cplFore) : s₂.ref.filter n = s.ref.filter n := by
    rw [h₂.filter n h.2, h₁.filter n h.1]
  have hnext (n) (h : n ≠ .cplAft ∧ n ≠ .aux1) : s₄.ref.filter n = s₂.ref.filter n := by
    rw [h₄.filter n h.2, h₃.filter n h.1]
  have hlast (n) (h : n ≠ .aux2) : t.ref.filter n = s₄.ref.filter n := h₅.filter n h
  rw [← h₂.filter .cab (by decide), ← hnext .cab (by decide), ← hlast .cab (by decide)] at hcab
  rw [← hnext .cplFore (by decide), ← hlast .cplFore (by decide), h₁.filter .cplFore (by decide)] at hfore
  rw [← h₄.filter .cplAft (by decide), ← hlast .cplAft (by decide), hfirst .cplAft (by decide)] at haft
  rw [← hlast .aux1 (by decide), h₃.filter .aux1 (by decide), hfirst .aux1 (by decide)] at haux1
  rw [hnext .aux2 (by decide), hfirst .aux2 (by decide)] at haux2
  exact ⟨t, hexec, hcab, hfore, haft, haux1, haux2, by rw [h₅.grant, h₄.grant, h₃.grant, h₂.grant, h₁.grant],
    by rw [h₅.killA, h₄.killA, h₃.killA, h₂.killA, h₁.killA],
    by rw [h₅.killB, h₄.killB, h₃.killB, h₂.killB, h₁.killB], by rw [r₅, r₄, r₃, r₂, r₁]⟩

/-- The VINPUT as it stands now leaves on the CD–REF link. -/
def State.sendVinput (s : State) : State :=
  (s.modRef fun r => { r with vinput := s.vinputBytes, vinputAt := s.now }).sendLink .cdRef .second (.vinput s.vinputBytes)

theorem State.sendVinput_sends (s : State) :
    s.sendVinput.wire = .link .cdRef .second ((s.lend .cdRef .second).txSeq + 1) (.vinput s.sendVinput.ref.vinput) :: s.wire ∧
    s.sendVinput.ref.vinput = s.sendVinput.vinputBytes ∧ s.sendVinput.ref.vinputAt = s.sendVinput.now ∧
    s.sendVinput.now = s.now ∧ s.sendVinput.la = s.la ∧ s.sendVinput.lb = s.lb ∧ SameLogic s s.sendVinput ∧
    s.sendVinput.ref.grant = s.ref.grant :=
  ⟨rfl, rfl, rfl, rfl, rfl, rfl, ⟨rfl, rfl, rfl⟩, rfl⟩

/-- A change of a state is sent at once. -/
theorem exec_vinputSend_changed {s : State} (h : slice s.vinputBytes 0 2 ≠ slice s.ref.vinput 0 2) :
    exec .vinputSend s = .next s.sendVinput := by
  simp only [exec, execVinputSend, if_pos h]; rfl

/-- The VINPUT that shows no change follows 1.0 ms after the one before it. -/
theorem exec_vinputSend_unchanged {s : State} (h : slice s.vinputBytes 0 2 = slice s.ref.vinput 0 2) :
    exec .vinputSend s = .next (s.until (s.ref.vinputAt + ms 1)).sendVinput := by
  simp only [exec, execVinputSend, if_neg (not_not_intro h)]; rfl

/-! ### The inputs that the engine keeps (R122, R123) -/

section
variable {s : State} {payload : List Byte}

theorem exec_vinputReceived_bad (hrun : (s.lend .cdRef .first).running = true) (hbad : vinputOk payload = false) :
    exec (.vinputReceived payload) s = .next (s.modEnd .cdRef .first fun x => { x with lastValidAt := s.now }) := by
  simp [exec, execVinputReceived, hrun, hbad]

/-- A valid VINPUT is kept, and inputs that were stale are so no longer. -/
def State.keepVinput (payload : List Byte) (s : State) : State :=
  let kept := (s.modEnd .cdRef .first fun x => { x with lastValidAt := s.now }).modEng fun g =>
    { g with inputs := payload, inputsAt := s.now, inputsStale := false }
  if s.ld.engine.inputsStale then kept.ldClear fInputsStale 0x42 else kept

theorem State.keepVinput_vinput (payload) (s : State) :
    (s.keepVinput payload).ld.engine.vinput = (payload, s.now, false) := by
  simp only [State.keepVinput, apply_ite State.ld, apply_ite LineDie.engine, State.ldClear_engine, ite_self]; rfl

theorem State.keepVinput_offStream (payload) (s : State) : (s.keepVinput payload).offStream = s.offStream := by
  simp only [State.keepVinput, ite_offStream, State.ldClear_offStream, ite_self]; rfl

theorem exec_vinputReceived_good (hrun : (s.lend .cdRef .first).running = true) (hreset : s.ld.inReset = false)
    (hok : vinputOk payload = true) :
    exec (.vinputReceived payload) s = .next (s.keepVinput payload).engineEvent := by
  simp [exec, execVinputReceived, hrun, hreset, hok]; rfl

theorem vinputReceived_keeps (hrun : (s.lend .cdRef .first).running = true) (hreset : s.ld.inReset = false)
    (hok : vinputOk payload = true) :
    ∃ t, exec (.vinputReceived payload) s = .next t ∧ t.ld.engine.vinput = (payload, s.now, false) ∧
      SameHv s t ∧ (∀ p, t.lane p = s.lane p) := by
  have hoff := (State.engineEvent_offStream _).trans (s.keepVinput_offStream payload)
  exact ⟨_, exec_vinputReceived_good hrun hreset hok,
    (State.engineEvent_vinput _).trans (s.keepVinput_vinput payload),
    ⟨congrArg OffStream.la hoff, congrArg OffStream.lb hoff, congrArg OffStream.ref hoff⟩,
    congrFun (congrArg OffStream.lane hoff)⟩

/-- Inputs that are stale read INDETERMINATE, all of them. -/
theorem State.input_of_stale (h : s.ld.engine.inputsStale = true) (n : InputName) : s.input n = 2 := by
  simp [State.input, h]

/-- The inputs become stale 3.0 ms after the last valid VINPUT, and the LD raises it. -/
def State.inputsAge (s : State) : State :=
  ((s.until (s.ld.engine.inputsAt + ms 3)).modEng fun g => { g with inputsStale := true }).ldRaise fInputsStale 0x42 []

theorem State.inputsAge_offStream (s : State) :
    s.inputsAge.offStream = s.offStream.setNow (max s.now (s.ld.engine.inputsAt + 3000000)) :=
  State.ldRaise_offStream ..

theorem exec_vinputStale (hrun : s.ldRuns = true) (hfresh : s.ld.engine.inputsStale = false) :
    exec .vinputStale s = .next s.inputsAge.engineEvent := by
  simp [exec, execVinputStale, hrun, hfresh, State.inputsAge]

theorem vinputStale_blinds (hrun : s.ldRuns = true) (hfresh : s.ld.engine.inputsStale = false) :
    ∃ t, exec .vinputStale s = .next t ∧ (∀ n, t.input n = 2) ∧ t.now = max s.now (s.ld.engine.inputsAt + 3000000) ∧
      SameHv s t ∧ (∀ p, t.lane p = s.lane p) := by
  have hstale : s.inputsAge.engineEvent.ld.engine.inputsStale = true := by
    have hvinput := s.inputsAge.engineEvent_vinput
    rw [State.inputsAge, State.ldRaise_engine] at hvinput
    exact congrArg (fun v => v.2.2) hvinput
  have hoff := (State.engineEvent_offStream _).trans s.inputsAge_offStream
  exact ⟨_, exec_vinputStale hrun hfresh, State.input_of_stale hstale, congrArg OffStream.now hoff,
    ⟨congrArg OffStream.la hoff, congrArg OffStream.lb hoff, congrArg OffStream.ref hoff⟩,
    congrFun (congrArg OffStream.lane hoff)⟩

end

/-! ### O22 -/

/-- Settles O22: the filter counts runs, a sample changes one filter at a time, and the engine keeps the last valid VINPUT until
3.0 ms after it. -/
theorem vehicleInputsAreFilteredAndSent : Obligations.VehicleInputsAreFilteredAndSent := by
  refine ⟨⟨InputFilter.state_of_samples, fun c f hchange hsoon => ?_, fun c f hchange hlate => ?_⟩,
    fun a b c d e s => ?_, fun s => ?_, fun payload s hrun hreset => ⟨fun hok => ?_, fun hbad => ?_⟩,
    fun s => vinputStale_blinds⟩
  · rw [InputFilter.sample_of_change hchange]; exact if_neg (by omega)
  · rw [InputFilter.sample_of_change hchange]; exact if_pos (by omega)
  · exact exec_vinputSample a b c d e s
  · by_cases hsame : slice s.vinputBytes 0 2 = slice s.ref.vinput 0 2
    · obtain ⟨hwire, hbytes, hat, hnow, hla, hlb, hlogic, hgrant⟩ := (s.until (s.ref.vinputAt + ms 1)).sendVinput_sends
      exact ⟨_, exec_vinputSend_unchanged hsame, hwire, hbytes, hat, fun _ => hnow, fun h => absurd hsame h, hla, hlb,
        hlogic, hgrant⟩
    · obtain ⟨hwire, hbytes, hat, hnow, hla, hlb, hlogic, hgrant⟩ := s.sendVinput_sends
      exact ⟨_, exec_vinputSend_changed hsame, hwire, hbytes, hat, fun h => absurd h hsame, fun _ => hnow, hla, hlb,
        hlogic, hgrant⟩
  · obtain ⟨t, hexec, hvinput, hhv, hlane⟩ := vinputReceived_keeps hrun hreset hok
    obtain ⟨hinputs, hrest⟩ := Prod.mk.inj hvinput
    obtain ⟨hat, hstale⟩ := Prod.mk.inj hrest
    exact ⟨t, hexec, hinputs, hat, hstale, hhv, hlane⟩
  · exact ⟨_, exec_vinputReceived_bad hrun hbad, ⟨rfl, rfl, rfl⟩, ⟨rfl, rfl, rfl⟩⟩

end Sys2Proof.Machine
end

section
/-! Family 05, inauguration. The timers of pending verdicts (R126, Table 5.2), and BEACON (R128, R253). -/

namespace Sys2Proof.Machine

/-! ### Verdict timers (Table 5.2, R126) -/

section
variable {s : State} {e : VEnd}

/-- The timer of an end's row has run out, and the end is otherwise read as it was. -/
structure RowRunOut (e : VEnd) (s t : State) : Prop where
  now : t.now = max s.now ((s.vend e).rowAt + rowTime (s.vend e).row)
  hv : SameHv s t
  row : (t.vend e).row = (s.vend e).row
  expired : (t.vend e).rowExpired = true
  lostSince : (t.vend e).lostSince = (s.vend e).lostSince
  matching : t.verdictRow e = s.verdictRow e

theorem State.rowExpires_runsOut (e : VEnd) (s : State) : RowRunOut e s (s.rowExpires e) := by
  have hvend : (s.rowExpires e).vend e = { s.vend e with rowExpired := true } := State.vend_modVend ..
  refine ⟨rfl, ⟨rfl, rfl, rfl⟩, by rw [hvend], by rw [hvend], by rw [hvend]; rfl, ?_⟩
  exact State.verdictRow_modVend (fun _ => rfl) (fun _ => rfl) (fun _ => rfl)

/-- The timer of JOINING has run out: the coupler disagrees with the lane, and the LD raises it. -/
def State.joinExpires (e : VEnd) (s : State) : State :=
  let t := (s.rowExpires e).modVend e fun v => { v with disagreeRaised := true }
  t.ldRaise fCouplerDisagrees e.subject [(t.contact e).zeroExtend 8]

theorem State.joinExpires_runsOut (e : VEnd) (s : State) : RowRunOut e s (s.joinExpires e) := by
  obtain ⟨hnow, hhv, hrow, hexpired, hlost, hmatch⟩ := s.rowExpires_runsOut e
  have hvend : (s.joinExpires e).vend e = { (s.rowExpires e).vend e with disagreeRaised := true } := by
    simp [State.joinExpires]
  have hfound : (s.joinExpires e).verdictRow e = (s.rowExpires e).verdictRow e := by
    rw [State.joinExpires, State.verdictRow_ldRaise]
    exact State.verdictRow_modVend (fun _ => rfl) (fun _ => rfl) (fun _ => rfl)
  have hoff := State.ldRaise_offStream ((s.rowExpires e).modVend e fun v => { v with disagreeRaised := true })
    fCouplerDisagrees e.subject
  refine ⟨(congrArg OffStream.now (hoff _)).trans hnow, by simp [State.joinExpires, SameHv], ?_, ?_, ?_, hfound.trans hmatch⟩ <;>
    rw [hvend]
  · exact hrow
  · exact hexpired
  · exact hlost

/-- A timer that has run out settles the verdict of a row that matches still, where the end has lost no lane since. -/
theorem RowRunOut.settles {t : State} (h : RowRunOut e s t) (hmatch : s.verdictRow e = (s.vend e).row)
    (hne : (s.vend e).row ≠ 1) (hlost : (s.vend e).lostSince (s.vend e).row = none) :
    (t.engineEvent.vend e).rowExpired = true ∧ (t.engineEvent.vend e).verdict = rowVerdict (s.vend e).row true ∧
      t.engineEvent.now = max s.now ((s.vend e).rowAt + rowTime (s.vend e).row) ∧ SameHv s t.engineEvent := by
  obtain ⟨hnow, ⟨hla, hlb, href⟩, hrow, hexpired, hsince, hfound⟩ := h
  obtain ⟨hkeeps, kla, klb, kref⟩ := t.engineEvent_keeps
  obtain ⟨hran, hverdict⟩ := State.engineEvent_settles (s := t) (e := e) (by rw [hfound, hrow, hmatch]) (by rwa [hrow])
    (by rw [hsince, hrow, hlost])
  exact ⟨hran.trans hexpired, by rw [hverdict, hrow, hexpired], hkeeps.trans hnow, kla.trans hla, klb.trans hlb,
    kref.trans href⟩

theorem exec_joiningTimeout (hrow : (s.vend e).row = 4 ∨ (s.vend e).row = 6) (hpending : (s.vend e).rowExpired = false) :
    exec (.joiningTimeout e) s = .next (s.joinExpires e).engineEvent := by
  simp [exec, execJoiningTimeout, hrow, hpending, State.joinExpires]

theorem joiningTimeout_settles (hrow : (s.vend e).row = 4 ∨ (s.vend e).row = 6) (hpending : (s.vend e).rowExpired = false)
    (hmatch : s.verdictRow e = (s.vend e).row) :
    ∃ t, exec (.joiningTimeout e) s = .next t ∧ (t.vend e).rowExpired = true ∧
      (t.vend e).verdict = (if (s.vend e).row = 4 then .linked else .bridged) ∧
      t.now = max s.now ((s.vend e).rowAt + 500000000) ∧ SameHv s t := by
  have hlost := EndState.lostSince_of_other (s.vend e) (row := (s.vend e).row) (by omega) (by omega)
  obtain ⟨hexpired, hverdict, hnow, hhv⟩ := (s.joinExpires_runsOut e).settles hmatch (by omega) hlost
  refine ⟨_, exec_joiningTimeout hrow hpending, hexpired, ?_, ?_, hhv⟩
  · rw [hverdict]
    obtain h | h := hrow <;> simp [h, rowVerdict]
  · rw [hnow, rowTime, if_neg (by omega)]; rfl

theorem exec_holdingTimeout (hrow : (s.vend e).row = 8 ∨ (s.vend e).row = 9) (hpending : (s.vend e).rowExpired = false) :
    exec (.holdingTimeout e) s = .next (s.rowExpires e).engineEvent := by
  simp [exec, execHoldingTimeout, hrow, hpending]

theorem holdingTimeout_settles (hrow : (s.vend e).row = 8 ∨ (s.vend e).row = 9) (hpending : (s.vend e).rowExpired = false)
    (hmatch : s.verdictRow e = (s.vend e).row) (hlost : (s.vend e).lostSince (s.vend e).row = none) :
    ∃ t, exec (.holdingTimeout e) s = .next t ∧ (t.vend e).rowExpired = true ∧
      (t.vend e).verdict = (if (s.vend e).row = 8 then .broken else .doubt) ∧
      t.now = max s.now ((s.vend e).rowAt + if (s.vend e).row = 8 then 60000000 else 500000000) ∧ SameHv s t := by
  obtain ⟨hexpired, hverdict, hnow, hhv⟩ := (s.rowExpires_runsOut e).settles hmatch (by omega) hlost
  refine ⟨_, exec_holdingTimeout hrow hpending, hexpired, ?_, hnow, hhv⟩
  rw [hverdict]
  obtain h | h := hrow <;> simp [h, rowVerdict]

/-- The near lane of an end has been fenced for 1.0 s. -/
def State.fenceHolds (e : VEnd) (n : Nat) (s : State) : State :=
  (s.until (n + ms 1000)).modVend e fun v => { v with fencedLong := true }

theorem exec_fencedBrokenTimeout {n : Nat} (hat : (s.vend e).fencedAt = some n) (hshut : s.shut e.near = true)
    (hnew : (s.vend e).fencedLong = false) : exec (.fencedBrokenTimeout e) s = .next (s.fenceHolds e n).engineEvent := by
  simp [exec, execFencedBrokenTimeout, hat, hshut, hnew, State.fenceHolds]

/-- Row 2 matches an end whose near lane was fenced for 1.0 s, where no cut stands. -/
theorem State.verdictRow_of_fencedLong (hcut : (s.vend e).cut = false) (hlong : (s.vend e).fencedLong = true) :
    s.verdictRow e = 2 := by
  simp [State.verdictRow, hcut, hlong]

theorem fencedBrokenTimeout_breaks {n : Nat} (hat : (s.vend e).fencedAt = some n) (hshut : s.shut e.near = true)
    (hnew : (s.vend e).fencedLong = false) (hcut : (s.vend e).cut = false) :
    ∃ t, exec (.fencedBrokenTimeout e) s = .next t ∧ (t.vend e).fencedLong = true ∧ (t.vend e).verdict = .broken ∧
      t.now = max s.now (n + 1000000000) ∧ SameHv s t := by
  have hvend : (s.fenceHolds e n).vend e = { s.vend e with fencedLong := true } := State.vend_modVend ..
  have huncut : ((s.fenceHolds e n).vend e).cut = false := by rw [hvend]; exact hcut
  have hlong : ((s.fenceHolds e n).vend e).fencedLong = true := by rw [hvend]
  obtain ⟨hverdict, hfenced, -⟩ := State.engineEvent_judges huncut
  obtain ⟨hkeeps, hhv⟩ := (s.fenceHolds e n).engineEvent_keeps
  exact ⟨_, exec_fencedBrokenTimeout hat hshut hnew, hfenced.trans hlong,
    by rw [hverdict, State.verdictRow_of_fencedLong huncut hlong]; rfl, hkeeps, hhv⟩

end

/-! ### BEACON (R128, R253) -/

section
variable (s : State)

@[simp] theorem State.laneUp_modPort (p q : Port) (f : PortState → PortState) : (s.modPort p f).laneUp q = s.laneUp q := by
  rw [State.laneUp, State.lane_modPort, State.laneUp]

/-- A BEACON enters the control queue of a port whose lane is UP. -/
theorem State.sendFlood_beacon (p : Port) (h : LineHdr) (b : BeaconP) :
    s.sendFlood p ⟨h, .beacon b⟩ = s.modPort p fun x =>
      { x with control := x.control ++ if s.laneUp p then [⟨h, .beacon b⟩] else [] } := by
  cases hup : s.laneUp p
  · cases p <;> simp [State.sendFlood, hup, State.modPort, State.modLd, LineDie.setPort, LineDie.port]
  · simp [State.sendFlood, hup, State.pushControl]

/-- A change made at every port is made once at each. -/
theorem State.forPorts_modPort_port (g : Port → PortState → PortState) (p : Port) :
    (s.forPorts Port.all fun q t => t.modPort q (g q)).port p = g p (s.port p) := by
  cases p <;> simp [State.forPorts, Port.all, State.port_modPort_ne]

/-- A BEACON that floods enters the queue of each port whose lane is UP, the copy of each as it is made. -/
theorem State.flood_beacon (h : LineHdr) (b : Port → BeaconP) :
    (s.forPorts Port.all fun q t => t.sendFlood q ⟨h, .beacon (b q)⟩) =
      s.forPorts Port.all fun q t => t.modPort q fun x =>
        { x with control := x.control ++ if s.laneUp q then [⟨h, .beacon (b q)⟩] else [] } := by
  simp only [State.forPorts, Port.all, List.foldl, State.sendFlood_beacon, State.laneUp_modPort]

/-- The moment, and what the LD notes of the BEACON it sends. -/
def State.beaconNotes (s : State) : Nat × Half × Option BeaconP × Nat :=
  (s.now, s.ld.seqBeacon, s.ld.beaconLast, s.ld.beaconAt)

theorem State.originateBeacon_notes :
    s.originateBeacon.beaconNotes = (s.now, s.ld.seqBeacon + 1, some s.beaconNow, s.now) := by
  simp only [State.originateBeacon, State.flood_beacon]
  exact foldl_keeps State.beaconNotes _ (fun t q => by cases q <;> rfl) Port.all _

/-- The BEACON of the present moment goes out on every lane that is UP, each copy with its lane's name. -/
theorem State.originateBeacon_control (p : Port) :
    (s.originateBeacon.port p).control = (s.port p).control ++
      (if s.laneUp p then
        [⟨⟨s.position, 0, 63, s.epoch, s.ld.seqBeacon + 1⟩, .beacon (txPort p s.beaconNow)⟩] else []) := by
  simp only [State.originateBeacon, State.flood_beacon, State.forPorts_modPort_port]
  cases p <;> rfl

end

section
variable {s : State}

/-- A BEACON that shows what the last one showed waits for its period, which is a cycle in the last-word window. -/
def State.beaconDue (s : State) : State :=
  if s.ld.beaconLast = some s.beaconNow then s.until (s.ld.beaconAt + if s.cd.lastWord then 125000 else 1000000) else s

theorem exec_beaconSend (hrun : s.ldRuns = true) : exec .beaconSend s = .next s.beaconDue.originateBeacon := by
  cases hlast : s.cd.lastWord <;> simp [exec, execBeaconSend, hrun, hlast, State.beaconDue, cycleNs]

theorem State.beaconDue_eq (s : State) : ∃ n, s.beaconDue = s.until n ∧ max s.now n =
    (if s.ld.beaconLast = some s.beaconNow then
      max s.now (s.ld.beaconAt + if s.cd.lastWord then 125000 else 1000000) else s.now) := by
  unfold State.beaconDue
  split
  · exact ⟨_, rfl, rfl⟩
  · exact ⟨s.now, (s.until_of_past (Nat.le_refl _)).symm, Nat.max_self _⟩

theorem exec_beaconEntryAged {id : NodeId} {b : BeaconEntry}
    (hheld : s.ld.engine.beacons.find? (fun b => b.beacon.nodeId = id) = some b) :
    exec (.beaconEntryAged id) s = .next ((s.until (b.at_ + 24 * cycleNs)).modEng fun g =>
      { g with beacons := g.beacons.filter fun b => b.beacon.nodeId ≠ id }) := by
  simp only [exec, execBeaconEntryAged, hheld]

end

/-! ### O23 -/

/-- Settles O23: a timer that has run out leaves the row as it is, so that the event which follows settles its verdict; a BEACON is
one change of each port, of the LD's own SEQ and of what was last sent. -/
theorem verdictsSettleAndBeaconsGoOut : Obligations.VerdictsSettleAndBeaconsGoOut := by
  refine ⟨fun e s => ⟨joiningTimeout_settles, holdingTimeout_settles, fun n => fencedBrokenTimeout_breaks⟩,
    fun s hrun => ?_, fun id b s hheld => ?_⟩
  · obtain ⟨n, hdue, hmoment⟩ := s.beaconDue_eq
    obtain ⟨hnow, hnotes⟩ := Prod.mk.inj (s.until n).originateBeacon_notes
    obtain ⟨hseq, hnotes⟩ := Prod.mk.inj hnotes
    obtain ⟨hlast, hat⟩ := Prod.mk.inj hnotes
    refine ⟨_, exec_beaconSend hrun, ?_⟩
    rw [hdue]
    exact ⟨(s.until n).originateBeacon_control, hseq, hlast, hat.trans hnow.symm, hnow.trans hmoment,
      by simp [SameHv], by simp [SameLinks], by simp⟩
  · exact ⟨_, exec_beaconEntryAged hheld, rfl, rfl, ⟨rfl, rfl, rfl⟩, ⟨rfl, rfl, rfl⟩, rfl⟩

end Sys2Proof.Machine
end

section
/-! Family 06, lamp drive and patterns. What stands at each place of the machine right after reset, and O3. -/

namespace Sys2Proof.Machine

/-! ### The places of the machine at reset -/

/-- With LANES at its default of 0, no lane is limited to NRZ. -/
@[simp] theorem State.reset_lane (p : Port) : State.reset.lane p = .fresh false := by cases p <;> rfl

@[simp] theorem State.reset_die (d : Die) : State.reset.die d = .fresh := by cases d <;> rfl

/-- Only whether an end runs differs from one end of the framed links to another (R50). -/
theorem State.reset_lend (l : FLink) (e : LEnd) : ∃ running, State.reset.lend l e = .fresh running 0 := by
  cases l <;> cases e <;> exact ⟨_, rfl⟩

@[simp] theorem State.reset_slot (n : Fin 4) : State.reset.slot n = .free := Vector.getElem_replicate n.isLt

@[simp] theorem State.reset_tag (k : Fin 8) : State.reset.cd.tags[k.val] = .free := Vector.getElem_replicate k.isLt

/-! ### Numbering and train time -/

theorem State.position_of_unnumbered {s : State} (h : s.commit? = none) : s.position = 0 := by
  rw [State.position, h]

theorem State.epoch_of_unnumbered {s : State} (h : s.commit? = none) : s.epoch = 0 := by
  rw [State.epoch, h]

/-- Train time is its base at the moment from which it is counted, whatever its rate (R113). -/
theorem State.trainTimeAt_baseAt (s : State) : s.trainTimeAt s.ld.clock.baseAt = s.ld.clock.base := by
  simp [State.trainTimeAt, counterSteps]

theorem State.reset_unnumbered : State.reset.commit? = none := rfl

theorem State.reset_trainTime : State.reset.trainTime = 0 := State.reset.trainTimeAt_baseAt

/-! ### O3 -/

/-- Settles O3: the two dies, the four lanes, the sixteen link ends, the mailbox slots and the tags each stand at the one fresh
value of their kind; position and epoch are those of an unnumbered node. -/
theorem resetLeavesWhatTheTablesSay : Obligations.ResetLeavesWhatTheTablesSay := by
  have hlane (p : Port) : (State.reset.lane p).st = .off := by rw [State.reset_lane]; rfl
  have hdie (d : Die) : (State.reset.die d).grant = false ∧ (State.reset.die d).gate = false ∧
      (State.reset.die d).slots = defaultSlots := by rw [State.reset_die]; exact ⟨rfl, rfl, rfl⟩
  have hlost (l : FLink) (e : LEnd) : (State.reset.lend l e).lost = true := by
    obtain ⟨running, hfresh⟩ := State.reset_lend l e
    rw [hfresh]; rfl
  have hslot (n : Fin 4) : (State.reset.slot n).st = .free := by rw [State.reset_slot]; rfl
  have htag (k : Fin 8) : (State.reset.cd.tags[k.val]).st = .free := by rw [State.reset_tag]; rfl
  have hposition := State.position_of_unnumbered State.reset_unnumbered
  have hepoch := State.epoch_of_unnumbered State.reset_unnumbered
  exact ⟨rfl, rfl, rfl, rfl, rfl, rfl, rfl, hlane, State.reset_unnumbered, hposition, hepoch, State.reset_trainTime,
    hdie, rfl, rfl, rfl, hlost, rfl, hslot, htag⟩

end Sys2Proof.Machine
end

section
/-! Family 07, proof of light. What a sample or a window of one channel leaves of the node (`KeepsChans`): time, the rest of
the die, the other channels, and a loop that one of these holds open. -/

namespace Sys2Proof.Machine

/-! ### Channels of a die -/

section
variable (x : LampDie) {c e : Chan}

@[simp] theorem LampDie.chan_modChan (c : Chan) (f : Channel → Channel) : (x.modChan c f).chan c = f (x.chan c) :=
  Vector.getElem_set_self ..

theorem LampDie.chan_modChan_ne (h : e ≠ c) (f : Channel → Channel) : (x.modChan c f).chan e = x.chan e :=
  Vector.getElem_set_ne c.isLt e.isLt fun hval => h (Fin.ext hval.symm)

/-- R195: a dark channel holds the loop open. -/
theorem LampDie.loopClosed_of_dark (h : (x.chan c).proof = .dark) : x.loopClosed = false := by
  have hopen : ((List.finRange 12).all fun c => (x.chan c).proof ≠ .dark && (x.chan c).proof ≠ .qualifying) = false :=
    List.all_eq_false.mpr ⟨c, List.mem_finRange c, by simp [h]⟩
  rw [LampDie.loopClosed, hopen, Bool.and_false]

/-- A die without its channels and without what their proofs move: the loop, the view of before a switch-over, the alarm
record and the reports. -/
def LampDie.lessProofs : LampDie :=
  { x with
    chans := LampDie.fresh.chans, plClosed := false, gapViewProven := 0, alarmSeq := 0, unacked := none, insertedAt := 0,
    reports := [], conds := [] }

end

/-! ### What a channel's proofs leave alone -/

theorem SameLogic.trans {s t u : State} (h : SameLogic s t) (k : SameLogic t u) : SameLogic s u := by
  obtain ⟨hao, hcd, hld⟩ := h
  obtain ⟨kao, kcd, kld⟩ := k
  exact ⟨kao.trans hao, kcd.trans hcd, kld.trans hld⟩

/-- Of the node only what the proofs of lamp die `d` move has changed, and of its channels none of `K`; where a dark one of
these held the loop open, it is open still. -/
structure KeepsChans (d : Die) (K : Chan → Prop) (s t : State) : Prop where
  now : t.now = s.now
  die : (t.die d).lessProofs = (s.die d).lessProofs
  chan : ∀ c, K c → (t.die d).chan c = (s.die d).chan c
  loop : ∀ c, K c → ((s.die d).chan c).proof = .dark → (s.die d).plClosed = false → (t.die d).plClosed = false
  other : t.die d.other = s.die d.other
  ref : t.ref = s.ref
  logic : SameLogic s t

/-- A change of a die that is about no channel and not about the loop. -/
def KeepsProofs (f : LampDie → LampDie) : Prop :=
  ∀ x, (f x).lessProofs = x.lessProofs ∧ (f x).chan = x.chan ∧ (f x).plClosed = x.plClosed

namespace KeepsChans

variable {d : Die} {K : Chan → Prop} {s t u : State}

theorem refl (d : Die) (K : Chan → Prop) (s : State) : KeepsChans d K s s :=
  ⟨rfl, rfl, fun _ _ => rfl, fun _ _ _ h => h, rfl, rfl, rfl, rfl, rfl⟩

theorem trans (h : KeepsChans d K s t) (k : KeepsChans d K t u) : KeepsChans d K s u where
  now := k.now.trans h.now
  die := k.die.trans h.die
  chan c hc := (k.chan c hc).trans (h.chan c hc)
  loop c hc hdark hopen := k.loop c hc ((congrArg Channel.proof (h.chan c hc)).trans hdark) (h.loop c hc hdark hopen)
  other := k.other.trans h.other
  ref := k.ref.trans h.ref
  logic := h.logic.trans k.logic

theorem mono {J : Chan → Prop} (h : KeepsChans d K s t) (hJ : ∀ c, J c → K c) : KeepsChans d J s t :=
  { h with chan := fun c hc => h.chan c (hJ c hc), loop := fun c hc => h.loop c (hJ c hc) }

theorem ite {p : Prop} [Decidable p] (h : KeepsChans d K s t) (k : KeepsChans d K s u) :
    KeepsChans d K s (if p then t else u) := by
  split <;> assumption

/-! ### Rules: what keeps every channel -/

theorem of_dies (hnow : t.now = s.now) (ha : t.la = s.la) (hb : t.lb = s.lb) (href : t.ref = s.ref) (hlogic : SameLogic s t) :
    KeepsChans d K s t := by
  have hdie := State.die_of_same ha hb
  refine ⟨hnow, ?_, fun c _ => ?_, fun c _ _ hopen => ?_, hdie _, href, hlogic⟩
  · rw [hdie]
  · rw [hdie]
  · rw [hdie]; exact hopen

theorem of_modDie {f : LampDie → LampDie} (hdie : (f (t.die d)).lessProofs = (t.die d).lessProofs)
    (hchan : ∀ c, K c → (f (t.die d)).chan c = (t.die d).chan c)
    (hloop : ∀ c, K c → ((t.die d).chan c).proof = .dark → (t.die d).plClosed = false → (f (t.die d)).plClosed = false) :
    KeepsChans d K t (t.modDie d f) := by
  rw [← t.die_modDie d f] at hdie hchan hloop
  exact ⟨t.modDie_now d f, hdie, hchan, hloop, t.die_modDie_other d f, by simp, by simp [SameLogic]⟩

theorem modDie {f : LampDie → LampDie} (h : KeepsChans d K s t) (hf : KeepsProofs f) : KeepsChans d K s (t.modDie d f) := by
  obtain ⟨hdie, hchan, hloop⟩ := hf (t.die d)
  exact h.trans (of_modDie hdie (fun c _ => congrFun hchan c) fun _ _ _ hopen => hloop.trans hopen)

theorem modEnd {l : FLink} {e : LEnd} {f : LinkEnd → LinkEnd} (h : KeepsChans d K s t) : KeepsChans d K s (t.modEnd l e f) :=
  h.trans (of_dies rfl rfl rfl rfl ⟨rfl, rfl, rfl⟩)

theorem emit {x : Emission} (h : KeepsChans d K s t) : KeepsChans d K s (t.emit x) :=
  h.trans (of_dies rfl rfl rfl rfl ⟨rfl, rfl, rfl⟩)

theorem sendQueued {l : FLink} {seq : Byte} {q : List DieReport} (h : KeepsChans d K s t) :
    KeepsChans d K s (t.sendQueued l seq q) :=
  h.trans (of_dies (by simp) (by simp) (by simp) (by simp) (by simp [SameLogic]))

theorem dieReport {event : BitVec 2} {f : FaultDef} {subject : Byte} {data : List Byte} (h : KeepsChans d K s t) :
    KeepsChans d K s (t.dieReport d event f subject data) :=
  .sendQueued (h.modDie fun _ => ⟨rfl, rfl, rfl⟩)

theorem dieRaise {f : FaultDef} {subject : Byte} {data : List Byte} (h : KeepsChans d K s t) :
    KeepsChans d K s (t.dieRaise d f subject data) := h.dieReport

theorem dieClear {f : FaultDef} {subject : Byte} (h : KeepsChans d K s t) : KeepsChans d K s (t.dieClear d f subject) :=
  h.dieReport

theorem dieCond {f : FaultDef} {subject : Byte} {data : List Byte} {holds : Bool} (h : KeepsChans d K s t) :
    KeepsChans d K s (t.dieCond d f subject data holds) :=
  .ite (.dieRaise (h.modDie fun _ => ⟨rfl, rfl, rfl⟩)) (.ite (.dieClear (h.modDie fun _ => ⟨rfl, rfl, rfl⟩)) h)

theorem spendView {c : Chan} (h : KeepsChans d K s t) : KeepsChans d K s (t.modDie d (LampDie.spendView c)) :=
  h.modDie fun _ => ⟨rfl, rfl, rfl⟩

theorem insertAlarm {seq : Byte} {r : AlarmRecord} (h : KeepsChans d K s t) : KeepsChans d K s (t.insertAlarm d seq r) :=
  .modDie (.modEnd h.emit) fun _ => ⟨rfl, rfl, rfl⟩

theorem buildAlarm {c : Chan} {kind : BitVec 4} {noReq : Bool} (h : KeepsChans d K s t) :
    KeepsChans d K s (t.buildAlarm d c kind noReq) := by
  unfold State.buildAlarm
  exact .modEnd (.insertAlarm (h.modDie fun _ => ⟨rfl, rfl, rfl⟩))

/-- R195: the loop as it is found anew stays open while a channel is dark. -/
theorem updatePl (h : KeepsChans d K s t) : KeepsChans d K s (t.updatePl d) :=
  h.trans (of_modDie rfl (fun _ _ => rfl) fun _ _ hdark _ => LampDie.loopClosed_of_dark _ hdark)

/-! ### Rules: what is about one channel -/

section
variable {c : Chan} (hc : ¬ K c)
include hc

theorem modChan {f : Channel → Channel} (h : KeepsChans d K s t) : KeepsChans d K s (t.modChan d c f) :=
  h.trans (of_modDie rfl (fun _ he => LampDie.chan_modChan_ne _ (fun hec => hc (by rwa [hec] at he)) f) fun _ _ _ hopen => hopen)

theorem declareDark {k : DarkKind} (h : KeepsChans d K s t) : KeepsChans d K s (t.declareDark d c k) :=
  .updatePl (.dieRaise (.buildAlarm (.modChan hc h.spendView)))

theorem clearDark {p : Proof} {noReq : Bool} (h : KeepsChans d K s t) : KeepsChans d K s (t.clearDark d c p noReq) :=
  .dieClear (.buildAlarm (.modChan hc h))

theorem tryProve (h : KeepsChans d K s t) : KeepsChans d K s (t.tryProve d c) := by
  refine .ite ?_ h
  generalize ((t.die d).chan c).proof = p
  cases p
  case qualifying => exact .updatePl (.modChan hc h.spendView)
  case dark => exact .updatePl (.clearDark hc h)
  case offDuty => exact h
  case proven => exact h

theorem sampleOn {low : Bool} (h : KeepsChans d K s t) : KeepsChans d K s (t.sampleOn d c low) :=
  have hcounted := modChan hc h
  .ite (.ite (.declareDark hc hcounted) hcounted) (.tryProve hc hcounted)

theorem sampleOff {uv : Nat} (h : KeepsChans d K s t) : KeepsChans d K s (t.sampleOff d c uv) :=
  .ite (.modChan hc h) (.ite (.dieRaise (.modChan hc (.modChan hc h))) (.modChan hc h))

theorem sampleChan {uvs : List Nat} (h : KeepsChans d K s t) : KeepsChans d K s (t.sampleChan d uvs c) :=
  have hsensed := ite (modChan hc h) h
  .ite (.sampleOff hc hsensed) (.ite hsensed (.sampleOn hc hsensed))

theorem calibrate {own : Bool} {a : Nat} (h : KeepsChans d K s t) : KeepsChans d K s (t.calibrate d c own a) := by
  refine .ite h ?_
  generalize List.find? _ _ = run
  cases run
  case none => exact .modChan hc h
  case some r => exact .ite (.dieRaise (.modChan hc (.modChan hc h))) (.dieCond (.modChan hc (.modChan hc h)))

theorem ownWindow {a : Nat} (h : KeepsChans d K s t) : KeepsChans d K s (t.ownWindow d c a) := by
  unfold State.ownWindow
  extract_lets x
  generalize x.ownRef c = ref
  cases ref
  case none => exact .ite (.calibrate hc (.modChan hc h)) (.modChan hc h)
  case some r =>
    exact .ite (.declareDark hc (.modChan hc h)) (.ite (.tryProve hc (.modChan hc (.modChan hc h))) (.modChan hc h))

theorem viewRun {differ : Bool} (h : KeepsChans d K s t) : KeepsChans d K s (t.viewRun d c differ) :=
  .ite (.dieCond (.modChan hc h)) (.modChan hc h)

theorem viewWindow {a : Nat} (h : KeepsChans d K s t) : KeepsChans d K s (t.viewWindow d c a) := by
  unfold State.viewWindow
  extract_lets x
  generalize x.crossRef c = ref
  cases ref
  case none => exact .viewRun hc (.ite (.calibrate hc (.modChan hc h)) (.modChan hc h))
  case some r => exact .viewRun hc (.modChan hc h)

theorem windowChan {mid : Bool} {photo : List (List Int)} (h : KeepsChans d K s t) :
    KeepsChans d K s (t.windowChan d mid photo c) :=
  .ite (.ite (.ownWindow hc h) (.viewWindow hc h)) (.modChan hc h)

end

/-! ### All channels in turn -/

section
variable {c : Chan} {f : State → Chan → State} (hf : ∀ t e, KeepsChans d (· ≠ e) t (f t e))
include hf

theorem foldl_of_notMem {l : List Chan} (hc : c ∉ l) (h : KeepsChans d (· = c) s t) : KeepsChans d (· = c) s (l.foldl f t) := by
  induction l generalizing t with
  | nil => exact h
  | cons e l ih =>
    have hce : ∀ a, a = c → a ≠ e := fun a hac hae => hc (by rw [← hac, hae]; exact List.mem_cons_self)
    exact ih (fun hcl => hc (List.mem_cons_of_mem e hcl)) (h.trans ((hf t e).mono hce))

/-- Where each channel is served in its turn, one channel is served in a state in which it stands as before, and what follows
leaves it as served. -/
theorem foldl_turn (c : Chan) (s : State) :
    ∃ u, KeepsChans d (· = c) s u ∧ KeepsChans d (· = c) (f u c) ((List.finRange 12).foldl f s) := by
  obtain ⟨l₁, l₂, hsplit⟩ := List.append_of_mem (List.mem_finRange c)
  have hnodup : (l₁ ++ c :: l₂).Nodup := hsplit ▸ List.nodup_finRange 12
  obtain ⟨-, hnodup₂, hapart⟩ := List.nodup_append.mp hnodup
  have hc₁ : c ∉ l₁ := fun hmem => hapart c hmem c List.mem_cons_self rfl
  have hc₂ : c ∉ l₂ := (List.nodup_cons.mp hnodup₂).1
  refine ⟨l₁.foldl f s, foldl_of_notMem hf hc₁ (.refl d _ s), ?_⟩
  rw [hsplit, List.foldl_append, List.foldl_cons]
  exact foldl_of_notMem hf hc₂ (.refl d _ _)

theorem foldl_all (s : State) : KeepsChans d (fun _ => False) s ((List.finRange 12).foldl f s) := by
  obtain ⟨u, hbefore, hafter⟩ := foldl_turn hf 0 s
  exact ((hbefore.mono fun _ => False.elim).trans ((hf u 0).mono fun _ => False.elim)).trans
    (hafter.mono fun _ => False.elim)

end

end KeepsChans

end Sys2Proof.Machine
end

section
/-! Family 07, proof of light. What a sample and a window make of their own channel, the faults and REPORTs of proving, and
O30. -/

namespace Sys2Proof.Machine

/-! ### Declarations and proofs of one channel (R181, R195, R197) -/

section
variable (d : Die) (c : Chan) (s : State)

@[simp] theorem State.chan_modChan (f : Channel → Channel) :
    ((s.modChan d c f).die d).chan c = f ((s.die d).chan c) := by
  rw [State.modChan, State.die_modDie, LampDie.chan_modChan]

/-- The channel is declared dark, of a kind, and the loop is open (R181, R195). -/
def LampDie.DeclaredDark (x : LampDie) (c : Chan) (k : DarkKind) : Prop :=
  (x.chan c).proof = .dark ∧ (x.chan c).kind = k ∧ x.plClosed = false

theorem State.chan_declareDark (k : DarkKind) : ((s.declareDark d c k).die d).chan c =
    { (s.die d).chan c with proof := .dark, kind := k, curProven := false, lightProven := false } := by
  have hreported (t : State) (kind f subject data) :
      KeepsChans d (· = c) t (((t.buildAlarm d c kind false).dieRaise d f subject data).updatePl d) :=
    (KeepsChans.refl d _ t).buildAlarm.dieRaise.updatePl
  refine ((hreported _ _ _ _ _).chan c rfl).trans ?_
  rw [State.chan_modChan, State.die_modDie]
  rfl

theorem State.declareDark_declaredDark (k : DarkKind) : ((s.declareDark d c k).die d).DeclaredDark c k := by
  have hchan := s.chan_declareDark d c k
  refine ⟨by rw [hchan], by rw [hchan], ?_⟩
  simp only [State.declareDark, State.updatePl, State.die_modDie] at hchan ⊢
  exact LampDie.loopClosed_of_dark _ (congrArg Channel.proof hchan)

theorem State.chan_clearDark (p : Proof) (noReq : Bool) : ((s.clearDark d c p noReq).die d).chan c =
    { (s.die d).chan c with proof := p, kind := .none } := by
  have hreported (t : State) (f subject) : KeepsChans d (· = c) t ((t.buildAlarm d c 3 noReq).dieClear d f subject) :=
    (KeepsChans.refl d _ t).buildAlarm.dieClear
  refine ((hreported _ _ _).chan c rfl).trans ?_
  rw [State.chan_modChan]

/-- R197: a completed proof moves a channel's proof state, its kind of darkness with it, and a PROVEN channel stays. -/
theorem State.chan_tryProve : ∃ p k, ((s.tryProve d c).die d).chan c = { (s.die d).chan c with proof := p, kind := k } ∧
    (((s.die d).chan c).proof = .proven → p = .proven) := by
  have hloop (t : State) : ((t.updatePl d).die d).chan c = (t.die d).chan c :=
    (KeepsChans.refl d (· = c) t).updatePl.chan c rfl
  have hstays : ∃ p k, (s.die d).chan c = { (s.die d).chan c with proof := p, kind := k } ∧
    (((s.die d).chan c).proof = .proven → p = .proven) := ⟨_, _, rfl, id⟩
  unfold State.tryProve
  extract_lets x h
  split
  next =>
    split
    next => exact ⟨_, _, by rw [hloop, State.chan_modChan, State.die_modDie]; rfl, fun _ => rfl⟩
    next => exact ⟨_, _, by rw [hloop, State.chan_clearDark], fun _ => rfl⟩
    next => exact hstays
  next => exact hstays

end

/-! ### A current sample (R182, R183, R195) -/

/-- One more sample in a row below half of the target. -/
def Channel.countLow (h : Channel) : Channel := { h with lowRun := min 16 (h.lowRun + 1), okRun := 0 }

/-- One more sample in a row at half of the target or above. -/
def Channel.countOk (h : Channel) : Channel :=
  { h with okRun := min 16 (h.okRun + 1), lowRun := 0, curProven := h.curProven || 15 ≤ h.okRun }

/-- The sixteenth low sample in a row declares a channel that is QUALIFYING or PROVEN (R195). -/
def State.judgeLow (d : Die) (c : Chan) (s : State) : State :=
  let h := (s.die d).chan c
  if 16 ≤ h.lowRun && (h.proof = .qualifying || h.proof = .proven) then s.declareDark d c .current else s

theorem State.sampleOn_low (d : Die) (c : Chan) (s : State) :
    s.sampleOn d c true = (s.modChan d c Channel.countLow).judgeLow d c := rfl

theorem State.sampleOn_ok (d : Die) (c : Chan) (s : State) :
    s.sampleOn d c false = (s.modChan d c Channel.countOk).tryProve d c := rfl

/-- What a sample below half of the target makes of a channel that was `h`. -/
structure CountsLow (h : Channel) (x : LampDie) (c : Chan) : Prop where
  lowRun : (x.chan c).lowRun = min 16 (h.lowRun + 1)
  okRun : (x.chan c).okRun = 0
  sixteenth : 15 ≤ h.lowRun → h.proof = .qualifying ∨ h.proof = .proven → x.DeclaredDark c .current
  before : h.lowRun < 15 → (x.chan c).proof = h.proof

/-- What a sample at half of the target or above makes of a channel that was `h`. -/
structure CountsOk (h : Channel) (x : LampDie) (c : Chan) : Prop where
  lowRun : (x.chan c).lowRun = 0
  okRun : (x.chan c).okRun = min 16 (h.okRun + 1)
  proven : h.proof = .proven → (x.chan c).proof = .proven

theorem State.sampleOn_countsLow (d : Die) (c : Chan) (s : State) :
    CountsLow ((s.die d).chan c) ((s.sampleOn d c true).die d) c := by
  have hcounted := s.chan_modChan d c Channel.countLow
  have hrun : ((s.die d).chan c).countLow.lowRun = min 16 (((s.die d).chan c).lowRun + 1) := rfl
  rw [State.sampleOn_low, State.judgeLow, hcounted]
  split
  next hdark =>
    simp only [Bool.and_eq_true, decide_eq_true_eq] at hdark
    have hchan := (s.modChan d c Channel.countLow).chan_declareDark d c .current
    rw [hcounted] at hchan
    exact ⟨by rw [hchan]; rfl, by rw [hchan]; rfl, fun _ _ => State.declareDark_declaredDark .., fun hfew => by omega⟩
  next hstays =>
    simp only [Bool.and_eq_true, Bool.or_eq_true, decide_eq_true_eq] at hstays
    exact ⟨by rw [hcounted, hrun], by rw [hcounted]; rfl, fun hmany hproof => absurd ⟨by omega, hproof⟩ hstays,
      fun _ => by rw [hcounted]; rfl⟩

theorem State.sampleOn_countsOk (d : Die) (c : Chan) (s : State) :
    CountsOk ((s.die d).chan c) ((s.sampleOn d c false).die d) c := by
  obtain ⟨p, k, hchan, hproven⟩ := (s.modChan d c Channel.countOk).chan_tryProve d c
  rw [State.chan_modChan] at hchan hproven
  rw [State.sampleOn_ok]
  exact ⟨by rw [hchan]; rfl, by rw [hchan]; rfl, fun h => by rw [hchan]; exact hproven h⟩

/-- A channel without any sense voltage has no current left to conduct (R154). -/
def State.endWheel (d : Die) (c : Chan) (uv : Nat) (s : State) : State :=
  if uv = 0 then s.modChan d c fun h => { h with wheel := false } else s

theorem State.chan_endWheel (d : Die) (c : Chan) (uv : Nat) (s : State) :
    ∃ b, ((s.endWheel d c uv).die d).chan c = { (s.die d).chan c with wheel := b } := by
  unfold State.endWheel
  split
  next => exact ⟨false, State.chan_modChan ..⟩
  next => exact ⟨_, rfl⟩

section
variable {d : Die} {c : Chan} {uvs : List Nat} {s : State} (htarget : ((s.die d).chan c).target ≠ 0)
  (hgap : (s.die d).gapBlank = false) (hblank : ((s.die d).chan c).curBlankUntil ≤ s.now)
include htarget hgap hblank

/-- R182: the sample of a channel that is on and past its blank counts against half of its target. -/
theorem State.sampleChan_on : s.sampleChan d uvs c = (s.endWheel d c (uvs.getD c.val 0)).sampleOn d c
    (belowHalf (uvs.getD c.val 0) ((s.die d).chan c).target) := by
  have hkept : KeepsChans d (fun _ => False) s (s.endWheel d c (uvs.getD c.val 0)) :=
    .ite (.modChan (id) (.refl d _ s)) (.refl d _ s)
  have hgap' : ((s.endWheel d c (uvs.getD c.val 0)).die d).gapBlank = false :=
    (congrArg LampDie.gapBlank hkept.die :).trans hgap
  have hblank' : ¬ (s.endWheel d c (uvs.getD c.val 0)).now < ((s.die d).chan c).curBlankUntil := by
    rw [hkept.now]; omega
  have hcounts : (decide ((s.endWheel d c (uvs.getD c.val 0)).now < ((s.die d).chan c).curBlankUntil) ||
      ((s.endWheel d c (uvs.getD c.val 0)).die d).gapBlank) = false := by
    rw [hgap', Bool.or_false, decide_eq_false hblank']
  exact (if_neg htarget).trans (if_neg (Bool.eq_false_iff.mp hcounts))

theorem State.sampleChan_countsLow (hlow : belowHalf (uvs.getD c.val 0) ((s.die d).chan c).target = true) :
    CountsLow ((s.die d).chan c) ((s.sampleChan d uvs c).die d) c := by
  obtain ⟨b, hchan⟩ := s.chan_endWheel d c (uvs.getD c.val 0)
  have hcounts := (s.endWheel d c (uvs.getD c.val 0)).sampleOn_countsLow d c
  rw [State.sampleChan_on htarget hgap hblank, hlow]
  rw [hchan] at hcounts
  exact ⟨hcounts.lowRun, hcounts.okRun, hcounts.sixteenth, hcounts.before⟩

theorem State.sampleChan_countsOk (hok : belowHalf (uvs.getD c.val 0) ((s.die d).chan c).target = false) :
    CountsOk ((s.die d).chan c) ((s.sampleChan d uvs c).die d) c := by
  obtain ⟨b, hchan⟩ := s.chan_endWheel d c (uvs.getD c.val 0)
  have hcounts := (s.endWheel d c (uvs.getD c.val 0)).sampleOn_countsOk d c
  rw [State.sampleChan_on htarget hgap hblank, hok]
  rw [hchan] at hcounts
  exact ⟨hcounts.lowRun, hcounts.okRun, hcounts.proven⟩

end

/-! ### What a channel was left as stays with it -/

namespace KeepsChans

variable {d : Die} {c : Chan} {h : Channel} {s t : State} (hkept : KeepsChans d (· = c) s t)
include hkept

theorem declaredDark {k : DarkKind} (hdark : (s.die d).DeclaredDark c k) : (t.die d).DeclaredDark c k := by
  obtain ⟨hproof, hkind, hopen⟩ := hdark
  have hchan := hkept.chan c rfl
  exact ⟨by rw [hchan, hproof], by rw [hchan, hkind], hkept.loop c rfl hproof hopen⟩

theorem countsLow (hcounts : CountsLow h (s.die d) c) : CountsLow h (t.die d) c := by
  have hchan := hkept.chan c rfl
  exact ⟨by rw [hchan, hcounts.lowRun], by rw [hchan, hcounts.okRun],
    fun hrun hproof => hkept.declaredDark (hcounts.sixteenth hrun hproof), fun hfew => by rw [hchan, hcounts.before hfew]⟩

theorem countsOk (hcounts : CountsOk h (s.die d) c) : CountsOk h (t.die d) c := by
  have hchan := hkept.chan c rfl
  exact ⟨by rw [hchan, hcounts.lowRun], by rw [hchan, hcounts.okRun], fun hproof => by rw [hchan, hcounts.proven hproof]⟩

end KeepsChans

/-! ### CURRENT_SAMPLE -/

/-- The driver samples 1 µs after its last sample (R182). -/
def State.sampleDue (d : Die) (s : State) : State :=
  (s.until ((s.die d).sampleAt + us 1)).modDie d fun x => { x with sampleAt := max s.now ((s.die d).sampleAt + us 1) }

def State.sampleAll (d : Die) (uvs : List Nat) (s : State) : State :=
  (List.finRange 12).foldl (fun t c => t.sampleChan d uvs c) (s.sampleDue d)

@[simp] theorem State.die_until (n : Nat) (d : Die) (s : State) : (s.until n).die d = s.die d := by cases d <;> rfl

theorem State.die_sampleDue (d : Die) (s : State) :
    (s.sampleDue d).die d = { s.die d with sampleAt := (s.sampleDue d).now } := by
  rw [State.sampleDue, State.die_modDie, State.modDie_now, State.die_until]; rfl

theorem State.sampleDue_now (d : Die) (s : State) : (s.sampleDue d).now = max s.now ((s.die d).sampleAt + 1000) := by
  rw [State.sampleDue, State.modDie_now]; rfl

theorem State.sampleDue_frame (d : Die) (s : State) :
    (s.sampleDue d).die d.other = s.die d.other ∧ (s.sampleDue d).ref = s.ref ∧ SameLogic s (s.sampleDue d) := by
  refine ⟨?_, State.modDie_ref .., by simp [State.sampleDue, SameLogic]⟩
  rw [State.sampleDue, State.die_modDie_other, State.die_until]

theorem exec_currentSample {d : Die} {s : State} (hpow : (s.die d).powered = true) (hdrives : (s.die d).drives = true)
    (uvs : List Nat) : exec (.currentSample d uvs) s = .next (s.sampleAll d uvs) := by
  simp only [exec, execCurrentSample, hpow, hdrives]; rfl

theorem sampleChan_keeps (d : Die) (uvs : List Nat) (t : State) (e : Chan) : KeepsChans d (· ≠ e) t (t.sampleChan d uvs e) :=
  .sampleChan (fun h => h rfl) (.refl d _ t)

section
variable (d : Die) (uvs : List Nat) (s : State)

theorem State.sampleAll_keeps : KeepsChans d (fun _ => False) (s.sampleDue d) (s.sampleAll d uvs) :=
  KeepsChans.foldl_all (sampleChan_keeps d uvs) _

theorem State.sampleAll_now : (s.sampleAll d uvs).now = max s.now ((s.die d).sampleAt + 1000) :=
  (s.sampleAll_keeps d uvs).now.trans (s.sampleDue_now d)

theorem State.sampleAll_sampleAt : ((s.sampleAll d uvs).die d).sampleAt = (s.sampleAll d uvs).now := by
  have hat : ((s.sampleAll d uvs).die d).sampleAt = ((s.sampleDue d).die d).sampleAt :=
    (congrArg LampDie.sampleAt (s.sampleAll_keeps d uvs).die :)
  rw [hat, State.die_sampleDue, (s.sampleAll_keeps d uvs).now]

/-- Each channel is sampled in its turn. -/
theorem State.sampleAll_turn (c : Chan) : ∃ u : State, u.now = (s.sampleAll d uvs).now ∧
    (u.die d).gapBlank = (s.die d).gapBlank ∧ (u.die d).chan c = (s.die d).chan c ∧
    KeepsChans d (· = c) (u.sampleChan d uvs c) (s.sampleAll d uvs) := by
  obtain ⟨u, hbefore, hafter⟩ := KeepsChans.foldl_turn (sampleChan_keeps d uvs) c (s.sampleDue d)
  have hgap : (u.die d).gapBlank = ((s.sampleDue d).die d).gapBlank := (congrArg LampDie.gapBlank hbefore.die :)
  have hchan := hbefore.chan c rfl
  rw [State.die_sampleDue] at hgap hchan
  exact ⟨u, hbefore.now.trans (s.sampleAll_keeps d uvs).now.symm, hgap, hchan, hafter⟩

end

/-- R182: each sample of a channel that is on and past its blank is counted, whatever the other channels' samples do. -/
theorem currentSample_counts {d : Die} (uvs : List Nat) {c : Chan} {s : State} (htarget : ((s.die d).chan c).target ≠ 0)
    (hgap : (s.die d).gapBlank = false) (hblank : ((s.die d).chan c).curBlankUntil ≤ max s.now ((s.die d).sampleAt + 1000)) :
    (belowHalf (uvs.getD c.val 0) ((s.die d).chan c).target = true →
      CountsLow ((s.die d).chan c) ((s.sampleAll d uvs).die d) c) ∧
    (belowHalf (uvs.getD c.val 0) ((s.die d).chan c).target = false →
      CountsOk ((s.die d).chan c) ((s.sampleAll d uvs).die d) c) := by
  obtain ⟨u, hnow, hgap', hchan, hafter⟩ := s.sampleAll_turn d uvs c
  rw [← State.sampleAll_now d uvs, ← hnow, ← hchan] at hblank
  rw [← hgap'] at hgap
  rw [← hchan] at htarget ⊢
  exact ⟨fun hlow => hafter.countsLow (State.sampleChan_countsLow htarget hgap hblank hlow),
    fun hok => hafter.countsOk (State.sampleChan_countsOk htarget hgap hblank hok)⟩

/-! ### A light window (R185 to R187, R195) -/

/-- A window of the driver with its ratio to the reference enters its channel. -/
def Channel.takeWindow (w : WindowRec) (h : Channel) : Channel := (h.pushWindow (some w)).keepRatio w.ratio

theorem State.ownWindow_of_ref {d : Die} {c : Chan} {s : State} {r : LightRef} (href : (s.die d).ownRef c = some r) (a : Nat) :
    let h := (s.die d).chan c
    let w := windowOf a h.target ((s.die d).entry c).pilotDepth.toNat r
    let t := s.modChan d c (Channel.takeWindow w)
    s.ownWindow d c a =
      if bothLow w h.win2 && (h.proof = .qualifying || h.proof = .proven) then t.declareDark d c .light
      else if bothOk w h.win2 then (t.modChan d c fun h => { h with lightProven := true }).tryProve d c
      else t := by
  simp only [State.ownWindow, href]; rfl

/-- What a window of the driver makes of a channel that was `h`. -/
structure TakesWindow (w : WindowRec) (h : Channel) (x : LampDie) (c : Chan) : Prop where
  win1 : (x.chan c).win1 = some w
  win2 : (x.chan c).win2 = h.win1
  dark : w.low = true → (∃ v, h.win2 = some v ∧ v.low = true) → h.proof = .qualifying ∨ h.proof = .proven →
    x.DeclaredDark c .light

theorem KeepsChans.takesWindow {d : Die} {c : Chan} {w : WindowRec} {h : Channel} {s t : State}
    (hkept : KeepsChans d (· = c) s t) (htakes : TakesWindow w h (s.die d) c) : TakesWindow w h (t.die d) c := by
  have hchan := hkept.chan c rfl
  exact ⟨by rw [hchan, htakes.win1], by rw [hchan, htakes.win2],
    fun hlow hbefore hproof => hkept.declaredDark (htakes.dark hlow hbefore hproof)⟩

theorem State.ownWindow_takes {d : Die} {c : Chan} {s : State} {r : LightRef} (href : (s.die d).ownRef c = some r) (a : Nat) :
    TakesWindow (windowOf a ((s.die d).chan c).target ((s.die d).entry c).pilotDepth.toNat r) ((s.die d).chan c)
      ((s.ownWindow d c a).die d) c := by
  rw [State.ownWindow_of_ref href]
  generalize windowOf a ((s.die d).chan c).target ((s.die d).entry c).pilotDepth.toNat r = w
  have htaken := s.chan_modChan d c (Channel.takeWindow w)
  split
  next =>
    have hchan := (s.modChan d c (Channel.takeWindow w)).chan_declareDark d c .light
    rw [htaken] at hchan
    exact ⟨by rw [hchan]; rfl, by rw [hchan]; rfl, fun _ _ _ => State.declareDark_declaredDark ..⟩
  next hlit =>
    have hnot : w.low = true → (∃ v, ((s.die d).chan c).win2 = some v ∧ v.low = true) →
        ¬ (((s.die d).chan c).proof = .qualifying ∨ ((s.die d).chan c).proof = .proven) := by
      rintro hlow ⟨v, hv, hvlow⟩ hproof
      exact hlit (by simp [bothLow, hv, hlow, hvlow, hproof])
    split
    next =>
      obtain ⟨p, k, hchan, -⟩ :=
        ((s.modChan d c (Channel.takeWindow w)).modChan d c fun h => { h with lightProven := true }).chan_tryProve d c
      rw [State.chan_modChan, htaken] at hchan
      exact ⟨by rw [hchan]; rfl, by rw [hchan]; rfl, fun hlow hbefore hproof => absurd hproof (hnot hlow hbefore)⟩
    next =>
      exact ⟨by rw [htaken]; rfl, by rw [htaken]; rfl, fun hlow hbefore hproof => absurd hproof (hnot hlow hbefore)⟩

section
variable {d : Die} {c : Chan} {mid : Bool} {photo : List (List Int)} {s : State}

/-- R186: a window inside a blank of the die or of the channel is none. -/
theorem State.windowChan_blank (h : (s.die d).windowsOpen = false ∨ ((s.die d).chan c).windowValid s.now = false) :
    s.windowChan d mid photo c = s.modChan d c (Channel.pushWindow none) :=
  if_neg (by rcases h with h | h <;> simp [h])

theorem State.windowChan_own (hopen : (s.die d).windowsOpen = true) (hvalid : ((s.die d).chan c).windowValid s.now = true)
    (hdrives : (s.die d).drives = true) :
    s.windowChan d mid photo c = s.ownWindow d c ((s.die d).lightOf c mid photo) := by
  simp [State.windowChan, hopen, hvalid, hdrives]

end

/-! ### LIGHT_WINDOW_CLOSE -/

/-- The window that closes next closes at the mid-cycle point or at the boundary (R186). -/
def State.windowDue (d : Die) (mid : Bool) (s : State) : State :=
  s.until (if mid then (s.die d).clock.boundaryAt + 62500 else (s.die d).clock.advance.boundaryAt)

def State.closeWindows (d : Die) (mid : Bool) (photo : List (List Int)) (s : State) : State :=
  (List.finRange 12).foldl (fun t c => t.windowChan d mid photo c) (s.windowDue d mid)

theorem exec_lightWindowClose {d : Die} {mid : Bool} {s : State} (hpow : (s.die d).powered = true)
    (hmid : mid = decide (s.now < (s.die d).clock.boundaryAt + 62500)) (photo : List (List Int)) :
    exec (.lightWindowClose d photo) s = .next (s.closeWindows d mid photo) := by
  subst hmid; simp only [exec, execLightWindowClose, hpow]; rfl

theorem windowChan_keeps (d : Die) (mid : Bool) (photo : List (List Int)) (t : State) (e : Chan) :
    KeepsChans d (· ≠ e) t (t.windowChan d mid photo e) :=
  .windowChan (fun h => h rfl) (.refl d _ t)

section
variable (d : Die) (mid : Bool) (photo : List (List Int)) (s : State)

theorem State.closeWindows_keeps : KeepsChans d (fun _ => False) (s.windowDue d mid) (s.closeWindows d mid photo) :=
  KeepsChans.foldl_all (windowChan_keeps d mid photo) _

theorem State.closeWindows_now : (s.closeWindows d mid photo).now =
    max s.now (if mid then (s.die d).clock.boundaryAt + 62500 else (s.die d).clock.advance.boundaryAt) :=
  (s.closeWindows_keeps d mid photo).now

/-- The window of each channel closes in its turn. -/
theorem State.closeWindows_turn (c : Chan) : ∃ u : State, u.now = (s.closeWindows d mid photo).now ∧
    (u.die d).lessProofs = (s.die d).lessProofs ∧ (u.die d).chan c = (s.die d).chan c ∧
    KeepsChans d (· = c) (u.windowChan d mid photo c) (s.closeWindows d mid photo) := by
  obtain ⟨u, hbefore, hafter⟩ := KeepsChans.foldl_turn (windowChan_keeps d mid photo) c (s.windowDue d mid)
  have hdie := hbefore.die
  have hchan := hbefore.chan c rfl
  rw [State.windowDue, State.die_until] at hdie hchan
  exact ⟨u, hbefore.now.trans (s.closeWindows_keeps d mid photo).now.symm, hdie, hchan, hafter⟩

end

section
variable {d : Die} {c : Chan} {mid : Bool} {s : State} (photo : List (List Int))

theorem lightWindowClose_blank (h : (s.die d).windowsOpen = false ∨
      ((s.die d).chan c).windowValid (s.closeWindows d mid photo).now = false) :
    (((s.closeWindows d mid photo).die d).chan c).proof = ((s.die d).chan c).proof ∧
      (((s.closeWindows d mid photo).die d).chan c).win1 = none := by
  obtain ⟨u, hnow, hdie, hchan, hafter⟩ := s.closeWindows_turn d mid photo c
  have hopen : (u.die d).windowsOpen = (s.die d).windowsOpen := (congrArg LampDie.windowsOpen hdie :)
  rw [← hnow, ← hchan, ← hopen] at h
  rw [State.windowChan_blank h] at hafter
  rw [hafter.chan c rfl, State.chan_modChan, hchan]
  exact ⟨rfl, rfl⟩

theorem lightWindowClose_takes (hdrives : (s.die d).drives = true) (hopen : (s.die d).windowsOpen = true)
    (hvalid : ((s.die d).chan c).windowValid (s.closeWindows d mid photo).now = true) {r : LightRef}
    (href : (s.die d).ownRef c = some r) :
    TakesWindow (windowOf ((s.die d).lightOf c mid photo) ((s.die d).chan c).target ((s.die d).entry c).pilotDepth.toNat r)
      ((s.die d).chan c) ((s.closeWindows d mid photo).die d) c := by
  obtain ⟨u, hnow, hdie, hchan, hafter⟩ := s.closeWindows_turn d mid photo c
  have hentry : (u.die d).entry c = (s.die d).entry c := (congrArg (LampDie.entry · c) hdie :)
  have hlight : (u.die d).lightOf c mid photo = (s.die d).lightOf c mid photo :=
    (congrArg (LampDie.lightOf · c mid photo) hdie :)
  have href' : (u.die d).ownRef c = some r := by
    rw [← href, LampDie.ownRef, LampDie.ownRef, hchan]
    exact (congrArg (LampDie.refOk · c ((s.die d).chan c).own) hdie :)
  rw [← hnow, ← hchan] at hvalid
  have hserved := u.ownWindow_takes href' ((u.die d).lightOf c mid photo)
  rw [← State.windowChan_own (mid := mid) (photo := photo) ((congrArg LampDie.windowsOpen hdie :).trans hopen) hvalid
    ((congrArg LampDie.drives hdie :).trans hdrives), hchan, hentry, hlight] at hserved
  exact hafter.takesWindow hserved

end

/-! ### Faults of the light view and the margin (R198) -/

section
variable (d : Die) (s : State)

@[simp] theorem State.die_sendQueued (l seq q) : (s.sendQueued l seq q).die d = s.die d :=
  State.die_of_same (by simp) (by simp) d

/-- A report of a die changes neither its conditions nor its channels. -/
theorem State.die_dieReport (event f subject data) :
    ((s.dieReport d event f subject data).die d).conds = (s.die d).conds ∧
      ((s.dieReport d event f subject data).die d).chans = (s.die d).chans := by
  simp [State.dieReport]

/-- A condition that is found stands from then on, whether it began now or stood before, and the channels are as they were. -/
theorem State.die_dieCond_found (f : FaultDef) (subject : Byte) (data : List Byte) :
    (f.code, subject) ∈ ((s.dieCond d f subject data true).die d).conds ∧
      ((s.dieCond d f subject data true).die d).chans = (s.die d).chans := by
  by_cases hold : (f.code, subject) ∈ (s.die d).conds
  · have hsame : s.dieCond d f subject data true = s := by simp [State.dieCond, hold]
    rw [hsame]; exact ⟨hold, rfl⟩
  · have hbegins : s.dieCond d f subject data true =
        (s.modDie d fun x => { x with conds := (f.code, subject) :: x.conds }).dieReport d 0 f subject data := by
      simp [State.dieCond, hold, State.dieRaise]
    obtain ⟨hconds, hchans⟩ := State.die_dieReport d
      (s.modDie d fun x => { x with conds := (f.code, subject) :: x.conds }) 0 f subject data
    rw [State.die_modDie] at hconds hchans
    rw [hbegins, hconds, hchans]
    exact ⟨List.mem_cons_self, rfl⟩

end

theorem exec_lightViewDisagrees {d : Die} {c : Chan} {s : State} (hpow : (s.die d).powered = true)
    (hdiffer : 64 ≤ ((s.die d).chan c).viewDiffer) :
    exec (.lightViewDisagrees d c) s = .next (s.dieCond d fLightView (chanSubject d c) [] true) := by
  simp only [exec, execLightViewDisagrees, hpow, hdiffer]; rfl

theorem exec_lightMarginLow {d : Die} {s : State} (hpow : (s.die d).powered = true) (hmargin : (s.die d).margin < 768)
    (hrun : 1024 ≤ (s.die d).marginLow) (hnew : (fMarginLow.code, d.subject) ∉ (s.die d).conds) :
    exec (.lightMarginLow d) s =
      .next ((s.dieCond d fMarginLow d.subject (be16 (BitVec.ofNat 16 (s.die d).margin)) true).modDie d fun x =>
        { x with marginLow := 0 }) := by
  simp [exec, execLightMarginLow, hpow, hmargin, hrun, hnew]

/-! ### The proving REPORT (R199) -/

/-- The REPORT is due at once after a change of proof, and otherwise 64 cycles after the last. -/
def State.provingDue (d : Die) (s : State) : State :=
  if (s.die d).provingSent = some (s.die d).proofKey then s.until ((s.die d).provingAt + 64 * cycleNs) else s

def State.sendProving (d : Die) (s : State) : State :=
  (s.sendLink d.cdLink .second (.report (s.provingBytes d))).modDie d fun x =>
    { x with provingSent := some x.proofKey, provingAt := s.now }

theorem State.provingDue_eq (d : Die) (s : State) : ∃ n, s.provingDue d = s.until n ∧ max s.now n =
    if (s.die d).provingSent = some (s.die d).proofKey then max s.now ((s.die d).provingAt + 64 * cycleNs) else s.now := by
  unfold State.provingDue
  split
  · exact ⟨_, rfl, rfl⟩
  · exact ⟨s.now, (s.until_of_past (Nat.le_refl _)).symm, Nat.max_self _⟩

theorem exec_provingReportSend {d : Die} {s : State} (hpow : (s.die d).powered = true) :
    exec (.provingReportSend d) s = .next ((s.provingDue d).sendProving d) := if_pos hpow

theorem State.sendProving_sends (d : Die) (s : State) :
    (s.sendProving d).wire =
      .link d.cdLink .second ((s.lend d.cdLink .second).txSeq + 1) (.report (s.provingBytes d)) :: s.wire ∧
    (s.sendProving d).now = s.now ∧
    (s.sendProving d).die d = { s.die d with provingSent := some (s.die d).proofKey, provingAt := s.now } ∧
    SameOtherEnds d.cdLink .second s (s.sendProving d) ∧ (s.sendProving d).die d.other = s.die d.other ∧
    (s.sendProving d).ref = s.ref ∧ SameLogic s (s.sendProving d) := by
  have hdie (e : Die) : (s.sendLink d.cdLink .second (.report (s.provingBytes d))).die e = s.die e :=
    State.die_of_same rfl rfl e
  refine ⟨State.modDie_wire .., State.modDie_now .., ?_, ?_, ?_, State.modDie_ref .., ?_⟩
  · rw [State.sendProving, State.die_modDie, hdie]
  · exact (s.sendLink_sameOtherEnds d.cdLink .second _).trans (.of_ends (State.modDie_ends ..))
  · rw [State.sendProving, State.die_modDie_other, hdie]
  · simp [State.sendProving, SameLogic]

/-- The CD keeps the REPORT for the die it came from. -/
def ControlDie.keepProving (d : Die) (payload : List Byte) (c : ControlDie) : ControlDie :=
  match d with
  | .la => { c with provingA := payload }
  | .lb => { c with provingB := payload }

section
variable {d : Die} {payload : List Byte} {s : State} (seq : Byte) (hrun : (s.lend d.cdLink .first).running = true)
include hrun

theorem exec_provingReportReceived_good (hlen : payload.length = 16) (hkind : byteAt payload 0 = 0x10) :
    exec (.provingReportReceived d seq payload) s =
      .next ((s.heard d.cdLink .first).modCd (ControlDie.keepProving d payload)) := by
  simp only [exec, execProvingReportReceived, State.cdReport, hrun, hlen, hkind]; rfl

theorem exec_provingReportReceived_bad (hbad : payload.length ≠ 16 ∨ byteAt payload 0 ≠ 0x10) :
    exec (.provingReportReceived d seq payload) s = .next (s.discardFrame d.cdLink .first) := by
  simp only [exec, execProvingReportReceived, State.cdReport, hrun]
  exact (if_neg (by simp)).trans (if_pos (by simpa using hbad))

end

/-! ### O30 -/

/-- Settles O30: each channel is sampled, and each window taken, in its turn, and what another channel does leaves it and a loop
that it holds open alone; the faults and the REPORT are of the die and the CD alone. -/
theorem lowLightOrCurrentMakesAChannelDark : Obligations.LowLightOrCurrentMakesAChannelDark := by
  refine ⟨fun d uvs c s hpow hdrives htarget hgap hblank => ?_, fun d photo c mid s hpow hdrives hmid => ?_,
    fun d c s hpow hdiffer => ?_, fun d s hpow hmargin hrun hnew => ?_, fun d s hpow => ?_,
    fun d seq payload s hrun => ⟨fun hlen hkind => ?_, fun hbad hlt => ?_⟩⟩
  case refine_1 =>
    have hkept := s.sampleAll_keeps d uvs
    obtain ⟨hother, href, hlogic⟩ := s.sampleDue_frame d
    obtain ⟨hlow, hok⟩ := currentSample_counts uvs htarget hgap hblank
    refine ⟨_, exec_currentSample hpow hdrives uvs, s.sampleAll_now d uvs, s.sampleAll_sampleAt d uvs,
      fun h => ?_, fun h => ?_, hkept.other.trans hother, hkept.ref.trans href, SameLogic.trans hlogic hkept.logic⟩
    · obtain ⟨hlowRun, hokRun, hsixteenth, hbefore⟩ := hlow h
      exact ⟨hlowRun, hokRun, hsixteenth, hbefore⟩
    · obtain ⟨hlowRun, hokRun, hproven⟩ := hok h
      exact ⟨hlowRun, hokRun, hproven⟩
  case refine_2 =>
    have hkept := s.closeWindows_keeps d mid photo
    refine ⟨_, exec_lightWindowClose hpow hmid photo, s.closeWindows_now d mid photo, lightWindowClose_blank photo, ?_,
      hkept.other.trans (s.die_until _ _), hkept.ref, hkept.logic⟩
    rintro r w hopen hvalid href rfl
    obtain ⟨hwin1, hwin2, hdark⟩ := lightWindowClose_takes photo hdrives hopen hvalid href
    exact ⟨hwin1, hwin2, hdark⟩
  case refine_3 =>
    obtain ⟨hstands, hchans⟩ := State.die_dieCond_found d s fLightView (chanSubject d c) []
    have hkept : KeepsChans d (fun _ => False) s (s.dieCond d fLightView (chanSubject d c) [] true) :=
      (KeepsChans.refl d _ s).dieCond
    exact ⟨_, exec_lightViewDisagrees hpow hdiffer, hstands, hchans, hkept.other, hkept.ref, hkept.logic⟩
  case refine_4 =>
    obtain ⟨hstands, hchans⟩ := State.die_dieCond_found d s fMarginLow d.subject (be16 (BitVec.ofNat 16 (s.die d).margin))
    have hkept : KeepsChans d (fun _ => False) s
        (s.dieCond d fMarginLow d.subject (be16 (BitVec.ofNat 16 (s.die d).margin)) true) :=
      (KeepsChans.refl d _ s).dieCond
    refine ⟨_, exec_lightMarginLow hpow hmargin hrun hnew, ?_, ?_, ?_, (State.die_modDie_other ..).trans hkept.other,
      (State.modDie_ref ..).trans hkept.ref, ?_⟩
    · rw [State.die_modDie]; exact hstands
    · rw [State.die_modDie]
    · rw [State.die_modDie]; exact hchans
    · exact SameLogic.trans hkept.logic (by simp [SameLogic])
  case refine_5 =>
    obtain ⟨n, hdue, hat⟩ := s.provingDue_eq d
    obtain ⟨hwire, hnow, hdie, hends, hother, href, hlogic⟩ := (s.provingDue d).sendProving_sends d
    refine ⟨_, exec_provingReportSend hpow, ?_⟩
    rw [hnow, hdie, hwire, hdue]
    rw [hdue] at hends hother href hlogic
    exact ⟨rfl, hat, by rw [State.die_until], hends, hother.trans (s.die_until _ _), href, hlogic⟩
  case refine_6 =>
    refine ⟨_, exec_provingReportReceived_good seq hrun hlen hkind, ?_⟩
    cases d <;> exact ⟨rfl, rfl, ⟨rfl, rfl, rfl⟩, rfl, rfl, rfl⟩
  case refine_7 =>
    refine ⟨_, exec_provingReportReceived_bad seq hrun hbad, ?_⟩
    rw [State.discardFrame_of_lt hlt]
    exact ⟨by rw [State.lend_modEnd, satByte_of_ne hlt], ⟨rfl, rfl, rfl⟩, ⟨rfl, rfl, rfl⟩⟩

end Sys2Proof.Machine
end
